-- ==== Sys2Proof/Word.lean ====
section
/-! DEFINITION. Word types of the package: the manual's bytes and words, and their plainest names. -/

namespace Sys2Proof

/-- One byte (R11: multi-byte fields are little-endian). -/
abbrev Byte := BitVec 8
/-- 16-bit word. -/
abbrev W16 := BitVec 16
/-- 32-bit word (one row of a packet or instruction layout). -/
abbrev W32 := BitVec 32
/-- 48-bit local address (R16). -/
abbrev Addr48 := BitVec 48
/-- 64-bit word: a register (R460), a Fabric Time value (R36). -/
abbrev W64 := BitVec 64
/-- 128-bit word: an instruction (R116), a digest (R194), a generator state (R103). -/
abbrev W128 := BitVec 128

/-- A table of sparse data: key and value, keys rising, entries equal to the default left out. -/
abbrev Assoc (α : Type) := List (Nat × α)

end Sys2Proof
end

