-- ==== Sys2Proof/Syntax.lean ====
section
/-! DEFINITION. The commands of the package: one constructor of `Instr` for each row of the opcode table,
with the row's operands, and the operand types they are made of. -/

namespace Sys2Proof

/-- The four stream contexts of a cluster (R110). -/
inductive Ctx where
  | fwd | bin | bwt | svc
  deriving DecidableEq, Repr

/-- The statuses of R348. -/
inductive Status where
  | done | accepted | inProgress | deferred
  | badOpcode | badParam | denied | authFail | staleLayout | windowMissed | notYet
  | ownerLost | dieLost | retry | busy | underflow
  | digestMismatch | degraded
  deriving DecidableEq, Repr

/-- Where an Apune message came from and where its replies go (R336). -/
inductive CmdPort where
  /-- management Ethernet port `m`, with the source address and UDP port of the datagram -/
  | mgt (m : Fin 2) (ip : W128) (udp : W16)
  /-- the fabric, with the SRC package of the request and the port that it came in by -/
  | fabric (src : W16) (port : Fin 24)
  deriving DecidableEq, Repr

/-- What a management datagram says of its destination (R336): its IPv6 address and UDP port, and whether it is an IPv6 fragment. -/
structure Datagram where
  dst : W128
  udp : W16
  fragment : Bool
  deriving DecidableEq, Repr

/-- Where a message part comes in, and the datagram of a management port that carries it (R336). -/
structure Arrival where
  port : CmdPort
  via : Datagram
  deriving DecidableEq, Repr

/-- What a command carries of its header once admitted (R338, R344), and its ingress stamp S (R45). -/
structure CmdHdr where
  session : W16
  master : W16
  stream : W16
  seq : W32
  stamp : W64
  wake : Bool
  port : CmdPort
  /-- the tick at which the schedule dispatched the command (R47) -/
  posted : Option W64
  /-- the occurrence number when the command was dispatched by SCHEDULE_POST (R358) -/
  occurrence : Option Nat
  deriving DecidableEq, Repr

/-- An XADDR operand (R353). -/
structure XAddr where
  addr : W64
  kind : Byte
  port : Byte
  qp : Byte
  deriving DecidableEq, Repr

/-- The parameters of EXCHANGE_START (R234, R357). -/
structure ExParams where
  opId : W32
  kind : Byte
  group : Byte
  mode : Byte
  etype : Byte
  k : W16
  root : W16
  layout : W32
  tfirst : W32
  tcount : W32
  src : W64
  dst : W64
  len : W64
  caddr : W64
  cval : W64
  deriving DecidableEq, Repr

/-- A fabric packet (R297). -/
structure Pkt where
  cls : BitVec 4
  vn : Bool
  lane : Bool
  e2e : Bool
  mc : Bool
  syn : Bool
  op : BitVec 4
  plen : BitVec 13
  dst : W16
  src : W16
  seq : W32
  tag : W16
  status : Byte
  incarn : Byte
  addr : Addr48
  ttl : Byte
  mcHops : Byte
  cum : W32
  ecrc : W32
  payload : List Byte
  deriving DecidableEq, Repr

/-- A mesh packet (R281). -/
structure MeshPkt where
  net : Bool
  typ : BitVec 5
  ddie : BitVec 2
  dx : Byte
  dy : Byte
  mcend : Byte
  master : W16
  tag : W16
  addr : Addr48
  len : BitVec 12
  data : List Byte
  deriving DecidableEq, Repr

/-- A Solder message (R368). -/
structure SolderMsg where
  kind : BitVec 4
  sender : W16
  st : BitVec 3
  epoch : W64
  digest : W128
  ft : W64
  deriving DecidableEq, Repr

/-- The exchange header of a packet (R229), without NREC. -/
structure ExHdr where
  kind : BitVec 4
  mode : BitVec 2
  etype : Bool
  km1 : Byte
  rank : BitVec 13
  layout : W32
  opId : W32
  epoch : W64
  deriving DecidableEq, Repr

/-- One record of an exchange packet (R229): record header and body. -/
structure ExRec where
  tile : W32
  tensor : W16
  part : BitVec 2
  n : BitVec 9
  body : List Byte
  deriving DecidableEq, Repr

/-- The IDENT payload of a CTRL flit (R295). -/
structure Ident where
  pkgId : W16
  port : Byte
  part : W16
  incarn : Byte
  deriving DecidableEq, Repr

/-- The payload of a TIME flit (R312). -/
structure TimeFlit where
  txPrev : W64
  rxLast : W64
  tseq : W32
  rseq : W32
  deriving DecidableEq, Repr

/-- One end of a die-link edge: an edge of R20 (0 to 7) and which of its two ends.
`upper = false` is the end of the first die that R20 names, `true` the other (the IOD for IEk). -/
structure EdgeEnd where
  edge : Fin 8
  upper : Bool
  deriving DecidableEq, Repr

/-- How a training state of a die-link end ended (R274, R275). -/
inductive EdgeStage where
  /-- the state's work is done: bundles that locked or passed at this end -/
  | passed (mask : W32)
  /-- a partner's TRAIN flit was taken in MASK: its ATTEMPT and MASK -/
  | masks (attempt : Byte) (mask : W32)
  /-- the state's budget ran out, or CHECK saw a bit error -/
  | failed
  deriving DecidableEq, Repr

/-- How a training state of a fabric port ended (R295). -/
inductive PortStage where
  /-- the state's work is done; the lanes that passed (ALIGN) -/
  | passed (lanes : Byte)
  | budget
  deriving DecidableEq, Repr

/-- Why a port in service goes DOWN (R296). -/
inductive DownCause where
  | signal | watchdog
  deriving DecidableEq, Repr

/-- The grants an array or the read-out port of a cluster makes (R72). -/
inductive GrantPort where
  | feeder (arr : Fin 4)
  | load (arr : Fin 4)
  | readout
  deriving DecidableEq, Repr

/-- The wake sources of R423 that a wake event reports. -/
inductive WakeSrc where
  | pin | port (n : Fin 24) | packet | timer | thermal | command
  deriving DecidableEq, Repr

/-- An IEEE 1588 result at a management port (R38, R41): the measured offset of FT to the source in ns. -/
structure PtpInfo where
  mgt : Fin 2
  offset : Int
  errNs : Nat
  deriving DecidableEq, Repr

/-- A junction reading of every sensor group in degrees Celsius (R417, R427). -/
structure Temps where
  cd : List Byte
  iod : Byte
  stackHot : Byte
  deriving DecidableEq, Repr

/-- An Ethernet frame as R313 distinguishes it. -/
inductive EthFrame where
  | neighbourSolicit (src : W128) (target : W128)
  | echoRequest (src : W128) (data : List Byte)
  /-- a RoCEv2 acknowledgement of a local queue pair up to a packet sequence number -/
  | rdmaAck (lqpn psn : BitVec 24)
  /-- a RoCEv2 negative acknowledgement of a local queue pair: the packet sequence number that it expects -/
  | rdmaNak (lqpn psn : BitVec 24)
  /-- an RDMA READ response packet of a local queue pair -/
  | rdmaReadResponse (lqpn psn : BitVec 24) (data : List Byte)
  /-- priority-based flow control (IEEE 802.1Qbb): the pause of priority 3, in quanta of 512 bit times -/
  | pause (quanta : W16)
  /-- any inbound RDMA request or other frame -/
  | other (bytes : List Byte)
  deriving DecidableEq, Repr

/-- An I3C common command code (R446). -/
inductive I3cCcc where
  | setdasa (static : BitVec 7) (dynamic : BitVec 7)
  | entdaa (dynamic : BitVec 7)
  | enec | disec | rstdaa
  /-- any other common command code -/
  | other (code : Byte)
  /-- a private write of an operation byte; the seven that R447 lists have rows of their own, which this is not (log entry 89) -/
  | privateWrite (op : Byte)
  deriving DecidableEq, Repr

/-- A TAP data-register scan (R453): the bits shifted in, first bit first. -/
structure TapScan where
  bits : List Bool
  deriving DecidableEq, Repr

/-- The measurements of a boot stage that no rule computes: what came up (R430). -/
structure DieLinksUp where
  /-- for each of the eight edges, the bundles that pass at each end (R274) -/
  masks : List (W32 × W32)
  /-- for each of the eight edges, the number of the attempt that ended its training, 1 to 3 (R275) -/
  attempts : List Nat
  deriving DecidableEq, Repr

/-- The commands: one constructor for each row of the opcode table. -/
inductive Instr where
  -- sessions, registers and memory
  /-- `cred` is parameter bytes 0 to 7 as received: CRED, and the reserved bytes after it, which SIG covers (R354, R398) -/
  | sessionOpen (h : CmdHdr) (wc : W64) (header tag : List Byte) (cred : W64) (ek nonce sig : List Byte)
  | sessionClose (h : CmdHdr)
  | sessionInactivityExpiry (slot : Nat)
  | attest (h : CmdHdr) (nonce : List Byte) (sets : W32)
  | keyRotate (h : CmdHdr) (ek : List Byte)
  | regRead (h : CmdHdr) (addr : W64) (count : W32)
  | regWrite (h : CmdHdr) (addr : W64) (count : W32) (values : List W64)
  | memRead (h : CmdHdr) (src : XAddr) (len : W32)
  | memWrite (h : CmdHdr) (dst : XAddr) (len : W32) (data : List Byte)
  | memCopy (h : CmdHdr) (src dst : XAddr) (len caddr cval : W64) (slice : Nat)
  | memFill (h : CmdHdr) (dst : XAddr) (len pattern : W64) (slice : Nat)
  | programLoad (h : CmdHdr) (src : W64) (len offset : W32) (first count : W16) (slice : Nat)
  | streamStart (h : CmdHdr) (form : Byte) (banks entLo entHi : W16) (pc : W32) (xs : List W64)
  | streamStop (h : CmdHdr)
  | streamStopped (stream : Nat)
  | streamStatus (h : CmdHdr) (count : W16)
  | seedSet (h : CmdHdr) (seed : List Byte) (first count : W16) (sets : Byte) (slice : Nat)
  | stepBegin (h : CmdHdr) (epoch : W64)
  | stepCommit (h : CmdHdr) (epoch : W64)
  | updateRun (h : CmdHdr) (gscale tau : W32) (normScope ngroup : Byte)
  | updatePass1End
  | normJoin
  | updatePass2End
  | panelServicePost (tensor panel : Nat)
  | panelServiceDone (tensor panel : Nat)
  | precondRefreshDone (group : Nat)
  | exchangeStart (h : CmdHdr) (p : ExParams)
  | exchangeComplete (opId : W32)
  | groupTableLoad (h : CmdHdr) (groups tensors : W64) (tcount : W32)
  | precondRefresh (h : CmdHdr) (group : W16) (e : W64)
  -- sync and time
  | syncInit (h : CmdHdr) (addr value : W64) (owner : W16)
  | syncOpAdd (h : CmdHdr) (addr : W64) (n : Addr48)
  | syncOpDec (h : CmdHdr) (addr : W64) (n : Addr48)
  | syncOpTake (h : CmdHdr) (addr : W64)
  | syncOpWait (h : CmdHdr) (addr : W64) (n : Addr48)
  | syncOpMonitor (h : CmdHdr) (addr : W64) (n : Addr48) (notify : W64)
  | barrierArm (h : CmdHdr) (channel group : Byte)
  | barrierDisarm (h : CmdHdr) (channel : Byte)
  | timeSet (h : CmdHdr) (ft : W64)
  | timeQuery (h : CmdHdr)
  | schedulePost (h : CmdHdr) (due repeatNs : W64) (times : W32) (message : List Byte)
  | scheduleCancel (h : CmdHdr) (entry : W32)
  | scheduleDispatch
  -- reliability
  | ckptCapture (h : CmdHdr) (epoch : W64) (dest : XAddr) (manifest : W64) (nreg : W32)
  | ckptCaptureDone
  | ckptRestore (h : CmdHdr) (epoch : W64) (src : XAddr) (manifest : W64) (nreg : W32)
  | twinJoin (h : CmdHdr) (epoch : W64)
  | twinSole (h : CmdHdr)
  | replay (h : CmdHdr) (epoch : W64)
  | replayDigestCompare
  | remapCluster (h : CmdHdr) (logical : W16) (spareRow : Byte)
  | remapPerform (die : Fin 4) (row : Fin 32)
  | reshard (h : CmdHdr) (epoch : W64) (layout : W32)
  | digestQuery (h : CmdHdr) (epoch : W64)
  -- power
  | powerStateHold (h : CmdHdr)
  | powerStateBank (h : CmdHdr)
  | powerStateDark (h : CmdHdr)
  | powerStateRun (h : CmdHdr)
  | powerEntryCommit
  | powerExitComplete
  | modeSet (h : CmdHdr) (mode : Byte)
  | envelopeSet (h : CmdHdr) (target floor slew : W32)
  -- firmware, access, telemetry, maintenance
  | fwStage (h : CmdHdr) (src : W64) (len : W32) (slot : Byte) (flashOk : Bool) (slice : Nat)
  | fwActivateNextBoot (h : CmdHdr) (slot : Byte)
  | fwActivateNow (h : CmdHdr) (slot : Byte)
  | accessTableSet (h : CmdHdr) (target : W16) (first count : Byte) (entries : List W128)
  | telemetryRead (h : CmdHdr) (kind : Byte) (first count : W16)
  | counterClear (h : CmdHdr) (first count : W16)
  | eventSubscribe (h : CmdHdr) (classes : W32)
  | scrubRun (h : CmdHdr) (mask : W16)
  | testPortLoop (h : CmdHdr) (target : W16)
  | testEdgePrbs (h : CmdHdr) (target : W16)
  | testStackTest (h : CmdHdr) (target : W16)
  | testClusterTest (h : CmdHdr) (target : W16)
  | testDieTest (h : CmdHdr) (target : W16)
  | linkRetrainEdge (h : CmdHdr) (index : Byte)
  | linkRetrainPort (h : CmdHdr) (index : Byte)
  -- the command processors
  /-- a part of a message; `via` is for the management ports alone -/
  | messagePartArrival (port : Arrival) (bytes : List Byte)
  | messageAssemblyTimeout (key : Nat)
  | longOpSlice (id : Nat) (n : Nat)
  | longOpProgress (id : Nat)
  | commandProcessorStart (slice : Nat)
  -- array instructions and the array's own steps
  | arrLoad (cl : Nat) (c : Ctx)
  | loadCommit (cl : Nat) (arr : Fin 4)
  | arrPass (cl : Nat) (c : Ctx)
  | arrayGrant (cl : Nat) (port : GrantPort)
  | feederSlotIssue (cl : Nat) (arr : Fin 4) (throttle filler : Bool)
  | drainCommit (cl : Nat) (arr : Fin 4)
  | arrRead (cl : Nat) (c : Ctx)
  | arrFlush (cl : Nat) (c : Ctx)
  | arrWin (cl : Nat) (c : Ctx)
  | arrPart (cl : Nat) (c : Ctx)
  | arrFuse (cl : Nat) (c : Ctx)
  -- vector instructions
  | vecAdd (cl : Nat) (c : Ctx)
  | vecSub (cl : Nat) (c : Ctx)
  | vecMul (cl : Nat) (c : Ctx)
  | vecFma (cl : Nat) (c : Ctx)
  | vecMax (cl : Nat) (c : Ctx)
  | vecMin (cl : Nat) (c : Ctx)
  | vecDiv (cl : Nat) (c : Ctx)
  | vecRcp (cl : Nat) (c : Ctx)
  | vecRsqrt (cl : Nat) (c : Ctx)
  | vecExp2 (cl : Nat) (c : Ctx)
  | vecLog2 (cl : Nat) (c : Ctx)
  | vecDot2 (cl : Nat) (c : Ctx)
  | vecLd (cl : Nat) (c : Ctx)
  | vecSt (cl : Nat) (c : Ctx)
  | vecCvt (cl : Nat) (c : Ctx)
  | vecCvtb (cl : Nat) (c : Ctx)
  | vecCvt8 (cl : Nat) (c : Ctx)
  | vecRedsum (cl : Nat) (c : Ctx)
  | vecRedsq (cl : Nat) (c : Ctx)
  | vecRedmax (cl : Nat) (c : Ctx)
  | vecRedmin (cl : Nat) (c : Ctx)
  | vecBcast (cl : Nat) (c : Ctx)
  | vecXfer (cl : Nat) (c : Ctx)
  -- movement, sync and control instructions
  | movDma (cl : Nat) (c : Ctx)
  | dmaCompletionAdd (cl : Nat) (desc : Nat)
  | synAdd (cl : Nat) (c : Ctx)
  | synDec (cl : Nat) (c : Ctx)
  | synTake (cl : Nat) (c : Ctx)
  | synWait (cl : Nat) (c : Ctx)
  | synMonitor (cl : Nat) (c : Ctx)
  | synBar (cl : Nat) (c : Ctx)
  | ctlNop (cl : Nat) (c : Ctx)
  | ctlSeti (cl : Nat) (c : Ctx)
  | ctlAlu (cl : Nat) (c : Ctx)
  | ctlBr (cl : Nat) (c : Ctx)
  | ctlLoop (cl : Nat) (c : Ctx)
  | ctlLdx (cl : Nat) (c : Ctx)
  | ctlStx (cl : Nat) (c : Ctx)
  | ctlFence (cl : Nat) (c : Ctx)
  | ctlYield (cl : Nat) (c : Ctx)
  | ctlHalt (cl : Nat) (c : Ctx)
  | ctlRdsr (cl : Nat) (c : Ctx)
  | ctlClrf (cl : Nat) (c : Ctx)
  | streamFault (cl : Nat) (c : Ctx)
  -- sync steps
  | syncWaitWake (addr : Addr48)
  | syncWatchPoll (cl : Nat) (c : Ctx)
  | syncRemotePoll (cl : Nat) (c : Ctx)
  | monitorFire (addr : Addr48)
  | wordOrphan (addr : Addr48)
  | barrierRelease (ch : Fin 16)
  | barrierEpisodeCollective (ch : Fin 16)
  -- die links and mesh
  | d2dFlitReceive (e : EdgeEnd) (bundle : Nat) (data : List Byte) (sideband : W64)
  | d2dNakResend (e : EdgeEnd) (bundle : Nat)
  | d2dBundleExclude (e : EdgeEnd) (bundle : Nat)
  | d2dTrainStageEnd (e : EdgeEnd) (r : EdgeStage)
  | d2dTrainFlitWhileUp (e : EdgeEnd)
  | d2dWatchdogExpiry (e : EdgeEnd)
  | dieFence (die : Fin 4)
  | meshPacketDeliver (die : Fin 4) (p : MeshPkt) (others : List MeshPkt)
  | meshMcWrite (die : Fin 4) (srcRow srcCol : Nat) (p : MeshPkt)
  -- fabric
  | fabFlitReceive (port : Fin 24) (flit : List Byte) (fecCorrected : Nat) (fecOk : Bool)
  | fabNakResend (port : Fin 24)
  | fabRetryExhaustion (port : Fin 24)
  | fabSignalDetect (port : Fin 24) (lanes : Nat)
  | fabTrainStageEnd (port : Fin 24) (r : PortStage)
  | fabTrainRetryTimer (port : Fin 24)
  | fabIdentReceive (port : Fin 24) (i : Ident)
  | fabIdentSend (port : Fin 24)
  | fabPortDown (port : Fin 24) (cause : DownCause)
  | fabRequestArrival (port : Fin 24) (p : Pkt)
  | fabResponseArrival (port : Fin 24) (p : Pkt)
  | fabBusyResend (tag : W16)
  | fabServiceTimeout (tag : W16)
  | fabE2eResend (tag : W16)
  | fabE2eQuiet (dst : W16)
  | fabHoldTimeout (port : Fin 24)
  | fabMulticast (port : Fin 24) (p : Pkt)
  | timeFlitSend (port : Fin 24)
  | timeFlitReceive (port : Fin 24) (f : TimeFlit)
  | ethFrameReceive (port : Fin 24) (f : EthFrame)
  | exchRecordArrival (h : ExHdr) (r : ExRec)
  -- time
  | timeInEdge
  | ptpMessage (m : PtpInfo)
  | ftParentLost
  | ftErrEstThreshold
  | timeOutPulse
  -- stack memory
  | stackCorrectedRead (stack : Fin 16) (offset : Nat)
  | stackUncorrectable (stack : Fin 16) (offset : Nat)
  | scrubLine (stack : Fin 16) (corrected uncorrectable : Bool)
  | rowSpare (stack : Fin 16) (row : Nat)
  | pageRetire (stack : Fin 16) (page : Nat)
  | stackTrainingLoss (stack : Fin 16) (retrained : Bool)
  | cowBlockCopy (die : Fin 4) (block : Nat)
  | ckptBlockCapture (die : Fin 4) (block : Nat)
  -- twin
  | solderHeartbeatSend
  | solderMessageReceive (m : SolderMsg)
  | twinHeartbeatLoss
  | twinDigestTimeout
  | twinJoinTimeout
  -- power and thermal
  | envelopeRampStart
  | powerSample (watts : Nat)
  | excursionStart (watts : Nat)
  | thermalWarnCross (t : Temps)
  | thermalThrottle (t : Temps)
  | thermalTrip (t : Temps)
  | vinWarn (mv : W16)
  | vinFaultOff (mv : W16)
  | pwrEnDeassert
  | pwrEnAssert
  | resetNLow
  | wakeEvent (src : WakeSrc)
  | wakeTimer
  -- boot
  | bootIsland (flashOk : Bool)
  | bootIod (domainOk firmwareOk : Bool)
  | bootDieLinks (up : DieLinksUp)
  | bootDiesStacks (stacksOk : W16)
  | bootFabric
  | bootTime
  | recovery
  | announcement (port : Fin 2)
  -- register writes
  | pkgIdWrite (mid : W16) (v : W64)
  | ftCtlWrite (mid : W16) (v : W64)
  | ftTickWrite (mid : W16) (v : W64)
  | guardRegWrite (mid : W16) (off : W16) (v : W64)
  | updRegWrite (mid : W16) (off : W16) (v : W64)
  | exRegWrite (mid : W16) (off : W16) (v : W64)
  | memCowWrite (mid : W16) (die : Fin 4) (off : W16) (v : W64)
  | memAcctProgWrite (mid : W16) (die : Fin 4) (v : W64)
  | memScrubWrite (mid : W16) (die : Fin 4) (v : W64)
  | barMaskWrite (mid : W16) (die : Fin 4) (ch : Fin 16) (w : Fin 16) (v : W64)
  | fabCtlWrite (mid : W16) (off : W16) (v : W64)
  | fabPortCfgWrite (mid : W16) (port : Fin 24) (v : W64)
  | syncTableBaseWrite (mid : W16) (v : W64)
  | cmdCtlWrite (mid : W16) (off : W16) (v : W64)
  | twinRegWrite (mid : W16) (off : W16) (v : W64)
  | cobCredInstall (mid : W16) (v : W64)
  | cobDebugUnlock (mid : W16) (v : W64)
  | cobAccSelWrite (mid : W16) (v : W64)
  | pwrWakeWrite (mid : W16) (off : W16) (v : W64)
  | pwrThermCfgWrite (mid : W16) (v : W64)
  | registerWrite (mid : W16) (addr : W64) (size : Nat) (v : W64)
  -- I3C and the test access port
  | i3cBlockRead (block offset : W16) (count : Byte)
  | i3cStatus
  | i3cCredData (offset : W16) (data : List Byte)
  | i3cCredCommit
  | i3cImgBegin (slot : Byte)
  | i3cImgData (offset : W32) (data : List Byte)
  | i3cImgEnd (len : W32)
  | tapInstructionUpdate (code : Byte)
  | tapDebugToken (token : List Byte)
  | failureAnalysisUnlock (token : List Byte)
  | trstNLow
  | resetNRise
  | vinClear (mv : W16)
  | ckptRestoreDone (diesUp : List Bool) (stacksUp : List Bool)
  | modeRailsSettled
  | mgtLinkChange (m : Fin 2) (up : Bool)
  | ethPortLinkChange (port : Fin 24) (up : Bool)
  | i3cCcc (c : I3cCcc)
  | tapDrUpdate (d : TapScan)
  deriving DecidableEq, Repr

end Sys2Proof
end

