-- ==== Sys2Proof/Decode.lean ====
section
/-! DEFINITION. The command that a word spells by the bits of the opcode table. No row of the table gives bits, so no
word spells a command; the layouts of messages and instructions are parsed in Machine/Apune.lean and Machine/Operands.lean. -/

namespace Sys2Proof

/-- The command that an instruction word of the table spells: none, as no row of the table gives bits. -/
def decodeTableWord (_nbits _w : Nat) : Option Instr := none

end Sys2Proof
end

