-- ==== Sys2Proof/Machine/Bits.lean ====
section
/-! DEFINITION. Bytes and words (R11: little-endian), bit fields, saturating counters, and sparse tables. -/

namespace Sys2Proof.Machine

/-- The `n` low bytes of a number, least significant first (R11). -/
def leBytes : Nat → Nat → List Byte
  | 0, _ => []
  | n + 1, v => BitVec.ofNat 8 v :: leBytes n (v / 256)

/-- The number that bytes spell, least significant first (R11). -/
def leNat : List Byte → Nat
  | [] => 0
  | b :: bs => b.toNat + 256 * leNat bs

/-- Bits [hi:lo] of a number (R11). -/
def bits (v hi lo : Nat) : Nat := (v >>> lo) % 2 ^ (hi + 1 - lo)

/-- Bit `i` of a number. -/
def bit (v i : Nat) : Bool := v.testBit i

/-- A flag as 0 or 1. -/
def b2n (b : Bool) : Nat := if b then 1 else 0

/-- A field of `w` bits at bit `lo`. -/
def fieldAt (v w lo : Nat) : Nat := (v % 2 ^ w) <<< lo

/-- A number of `w` bits read as two's complement. -/
def sext (w v : Nat) : Int :=
  let m := v % 2 ^ w
  if m < 2 ^ (w - 1) then (m : Int) else (m : Int) - (2 ^ w : Nat)

/-- An integer as a two's-complement number of `w` bits. -/
def wrap (w : Nat) (i : Int) : Nat := (i % ((2 ^ w : Nat) : Int)).toNat

/-- A counter plus `k`, saturating at all ones. -/
def satAdd {w : Nat} (c : BitVec w) (k : Nat) : BitVec w :=
  if c.toNat + k < 2 ^ w then BitVec.ofNat w (c.toNat + k) else BitVec.allOnes w

/-- `n` bytes of a list from offset `off`; bytes past the end are 0. -/
def slice (l : List Byte) (off n : Nat) : List Byte :=
  let t := (l.drop off).take n
  t ++ List.replicate (n - t.length) 0

/-- The little-endian number of `n` bytes at offset `off` of a list. -/
def leAt (l : List Byte) (off n : Nat) : Nat := leNat (slice l off n)

/-- The 32-bit words of a list of bytes (R11). -/
def words32 : Nat → List Byte → List Nat
  | 0, _ => []
  | n + 1, l => leNat (l.take 4) :: words32 n (l.drop 4)

/-- The chunks of `k` bytes of a list, the last one short. -/
def chunks (k : Nat) : Nat → List α → List (List α)
  | 0, _ => []
  | f + 1, l => if l.isEmpty then [] else l.take k :: chunks k f (l.drop k)

/-- The smallest multiple of `m` at or above `v`. -/
def roundUp (v m : Nat) : Nat := (v + m - 1) / m * m

/-- The ceiling of a quotient. -/
def ceilDiv (a b : Nat) : Nat := (a + b - 1) / b

/-- Position of the highest one bit of a nonzero number. -/
def log2 (v : Nat) : Nat := Nat.log2 v

/-- Number of one bits among the low `w` bits. -/
def popCount : Nat → Nat → Nat
  | 0, _ => 0
  | w + 1, v => v % 2 + popCount w (v / 2)

/-- Index of the lowest one bit among the low `w` bits. -/
def lowestOne (w v : Nat) : Option Nat := (List.range w).find? (fun i => v.testBit i)

/-- Whether an address is a multiple of `m`. -/
def aligned (a m : Nat) : Bool := a % m == 0

/-! ### Sparse tables -/

/-- The entry of a sparse table at a key. -/
def look (l : Assoc α) (k : Nat) : Option α :=
  match l with
  | [] => none
  | (j, v) :: t => if j = k then some v else look t k

/-- The entry of a sparse table at a key, or a default. -/
def lookD (l : Assoc α) (k : Nat) (d : α) : α := (look l k).getD d

/-- A sparse table with the entry at a key set; keys stay rising. -/
def put (l : Assoc α) (k : Nat) (v : α) : Assoc α :=
  match l with
  | [] => [(k, v)]
  | (j, w) :: t => if j = k then (k, v) :: t else if k < j then (k, v) :: (j, w) :: t else (j, w) :: put t k v

/-- A sparse table without the entry at a key. -/
def del (l : Assoc α) (k : Nat) : Assoc α := l.filter (fun p => p.1 != k)

/-- A list of numbers with no repeats, with one number added at its rising place. -/
def insertNat (l : List Nat) (k : Nat) : List Nat :=
  match l with
  | [] => [k]
  | j :: t => if j = k then j :: t else if k < j then k :: j :: t else j :: insertNat t k

/-- `f` applied `n` times. -/
def iter (n : Nat) (f : α → α) (a : α) : α :=
  match n with
  | 0 => a
  | k + 1 => iter k f (f a)

/-- The last element of a list that satisfies a test. -/
def findLast? (p : α → Bool) (l : List α) : Option α := l.reverse.find? p

/-- `modify` at an index of a vector, nothing past its end. -/
def vmod {n : Nat} (v : Vector α n) (i : Nat) (f : α → α) : Vector α n :=
  if h : i < n then v.set i (f v[i]) else v

/-- An element of a vector, or a default. -/
def vgetD {n : Nat} (v : Vector α n) (i : Nat) (d : α) : α :=
  if h : i < n then v[i] else d

end Sys2Proof.Machine
end

