-- ==== Sys2Proof/Config.lean ====
section
/-! DEFINITION. What an implementation fixes, and the free values: constants without a body, so that nothing can
be proved of the value one takes. Each is applied to the operands it depends on or to the counter `fresh` of State. -/

namespace Sys2Proof.Config

/-- A byte the manual calls undefined (R190, R249, R250, R131): counter and index. Free value, log 3. -/
opaque freeByte : Nat → Nat → Byte
/-- A 32-bit value the manual leaves open: counter. Free value, log 3. -/
opaque free32 : Nat → W32
/-- A 64-bit value the manual leaves open: counter. Free value, log 3. -/
opaque free64 : Nat → W64
/-- A count the manual leaves open: counter. Free value, log 3. -/
opaque freeNat : Nat → Nat
/-- A choice the manual leaves open: counter. Free value, log 3. -/
opaque freeBool : Nat → Bool

/-- What an element of a frozen block enters panel service as, of what its array holds: the manual has service use whole panels and
read no frozen block (R183, R186). Free value, log 84. -/
opaque frozenElem : W32 → W32

/-- How many tiles of a tensor (index, tiles) the package owns, which the exchange tensor table does not say (R221, R228, R263). Free
value, log 10. -/
opaque ownedTiles : Nat → Nat → Nat

/-- PKG_STEPPING, fused at manufacture (R33). -/
opaque stepping : W16
/-- The place of each covered land, by its number in R455's list, in the chain of the BSDL file, which the spec does not hold. -/
opaque bsdlPlace : Nat → Nat
/-- The public key of the device identity key (R389), 2,592 bytes in ML-DSA-87. -/
opaque dikPublic : List Byte
/-- The DER certificate chain in the provisioning area (R389, R401). -/
opaque certChain : List Byte
/-- The contents of the boot ROM, as MR0 measures it (R392). -/
opaque bootRom : List Byte
/-- The fuse state as MR5 measures it (R392, which gives it no layout): counters, key hashes, revoke fuses, RMA fuse. -/
opaque fuseBytes : List (Nat × Byte) → List (Nat × List Byte) → BitVec 4 → Bool → List Byte
/-- Spare rows that a stack offers to post-package repair (R252: the manual gives no count). -/
opaque spareRows : Fin 16 → Nat
/-- The row that a stack offset lies in (R243: a fixed order that the manual does not give). -/
opaque rowOf : Fin 16 → Nat → Nat
/-- The pages of a stack that hold a byte of a row (R243). -/
opaque rowPages : Fin 16 → Nat → List Nat

/-- ML-DSA-87 verification (FIPS 204): key, message, context string, signature. Uninterpreted, log 4. -/
opaque mldsaVerify : List Byte → List Byte → List Byte → List Byte → Bool
/-- ML-DSA-87 signing by the device identity key (FIPS 204): entropy, message, context string. Log 4. -/
opaque dikSign : Nat → List Byte → List Byte → List Byte
/-- ML-KEM-1024 encapsulation (FIPS 203): entropy, encapsulation key; ciphertext and shared secret. Log 4. -/
opaque mlkemEncaps : Nat → List Byte → List Byte × List Byte
/-- Whether a failure-analysis token is signed by an Ifepor firmware signing key of the given fuse hashes (R408, which
gives the token no layout). Log 4. -/
opaque faTokenOk : List (List Byte) → List Byte → Bool
/-- Cobalt's entropy source: the debug challenge (R407). Free value, log 4. -/
opaque challenge : Nat → W64

/-- The stack-interface energy of an access in microjoules, from fused calibration (R427). Log 3. -/
opaque ifEnergy : Nat → Nat

/-- The CODE of an event whose chapter gives none (R351): class, cause. Log 7. -/
opaque eventCode : Nat → Nat → Byte

/-- The edge router port and row of a unit that is no cluster (R280, R281: the manual does not number them). Log 61. -/
opaque edgePort : Nat → Nat

/-- The link-local IPv6 address of a management port (R364), which its manufacture gives. Log 87. -/
opaque linkLocal : Nat → W128

/-- Whether one NaN pattern stands above another in the order of R128, which gives none. Log 9. -/
opaque nanAbove : W32 → W32 → Bool

end Sys2Proof.Config
end

