-- ==== Sys2Proof/Machine/State.lean ====
section
/-! DEFINITION. The state of the package: every register, table, queue, buffer, mode and pin that the manual gives
it, as plain data, and the state after reset. -/

namespace Sys2Proof.Machine

/-- Why a step can stop. The package reports every error of a command in its status (R348), so no rule of the
manual stops the machine. Raised by no meaning of this model; kept closed and safe. -/
inductive Fault where
  /-- no meaning raises this: the manual gives every command an outcome; safe -/
  | none
  deriving DecidableEq, Repr

/-- Why a command has no meaning. -/
inductive Refusal where
  /-- raised by the dispatch alone, for a command without a meaning yet; safe -/
  | notModelled (mnemonic : String)
  deriving DecidableEq, Repr

/-! ### Fabric Time (R36 to R47) -/

/-- Invar (R42), control block 0x0004. -/
structure Invar where
  ft : W64
  /-- ns that ISL has been powered: the model's own count of the durations that rules state (log entry 2). TIME_SET does
  not move it -/
  clk : W64
  state : BitVec 3
  src : Byte
  depth : Byte
  /-- FT_ERR_EST in units of 1/20,000,000 ns: at 50 ns per second (R41) each ns adds one unit -/
  err : Nat
  parent : Byte
  timeinEn : Bool
  en1588 : Bool
  linkEn : Bool
  tickNs : W32
  horizon : W64
  timeinDelay : W16
  cntTimeinIgn : W16
  cntWindowMissed : W16
  cntNotYet : W16
  cntLatePost : W16
  /-- TIME_IN edges ignored in a row (R39) -/
  ignoredRun : Nat
  /-- the seconds count has come from 1588 or from TIME_SET, which a root needs besides TIME_IN -/
  seconds : Bool
  /-- the correction, in ns, that Invar still has to slew (R37) -/
  slew : Int
  /-- ns since the slewing last moved FT by 1 ns (R37: at most 1 ns per 1,000 ns) -/
  slewAge : Nat
  /-- the clk until which TIME_OUT is high (R43); none: low -/
  timeOutUntil : Option W64
  deriving DecidableEq, Repr

/-! ### Clusters, streams and arrays -/

/-- The states of a stream (R114). -/
inductive StreamState where
  | idle | running | stopping | stopped | halted | faulted
  deriving DecidableEq, Repr

/-- One entry of a loop stack (R111, R134). -/
structure Loop where
  count : W64
  index : W64
  start : Nat
  stop : Nat
  xd : BitVec 4
  deriving DecidableEq, Repr

/-- An instruction as issued: its PC, its words and the scalar operands and WIN it took at issue (R113). -/
structure Issued where
  /-- its number in the issue order of its context -/
  n : Nat
  pc : Nat
  w : W128
  x : Vector W64 16
  win : BitVec 10
  deriving DecidableEq, Repr

/-- A DMA descriptor (R130). -/
structure DmaDesc where
  src : W64
  dst : W64
  len0 : BitVec 24
  cnt1 : W16
  cnt2 : W16
  sstr1 : W32
  dstr1 : W32
  sstr2 : W32
  dstr2 : W32
  caddr : W64
  cval : W32
  cgran : BitVec 2
  cloc : Bool
  dloc : Bool
  sloc : Bool
  deriving DecidableEq, Repr

/-- An instruction kept for resumption (R140, R142). -/
structure Kept where
  ins : Issued
  /-- a cut PASS: its slots already issued -/
  slots : Nat
  /-- a MOV kept after an error while its bytes moved: its descriptor and the units whose ADD was made -/
  desc : Option DmaDesc
  units : Nat
  deriving DecidableEq, Repr

/-- The stop record of a stream (R141), as its fields. -/
structure StopRec where
  kept : BitVec 6
  cls : BitVec 3
  cause : Byte
  pc : BitVec 22
  keptPc : BitVec 22
  slots : BitVec 10
  movPc : BitVec 22
  movFresh : Bool
  haltCode : W32
  ftStop : W64
  movUnits : W32
  deriving DecidableEq, Repr

/-- The parameters of a STREAM_START held DEFERRED (R115). -/
structure StartParams where
  hdr : CmdHdr
  form : Byte
  banks : W16
  entLo : W16
  entHi : W16
  pc : W32
  xs : List W64
  deriving DecidableEq, Repr

/-- What a context waits for. -/
inductive Block where
  | none
  /-- SYN WAIT on a word of this package, registered in its home's watch table (R322) -/
  | wait (addr : Addr48) (n : Addr48)
  /-- the same, polling because the table was full -/
  | poll (addr : Addr48) (n : Addr48)
  /-- SYN WAIT or another SYN operation on a word of another package, awaiting its answer (R322) -/
  | remote
  /-- a remote WAIT whose last answer was below its threshold: to be sent again at this clk (R322) -/
  | remotePoll (due : W64)
  /-- BAR on a channel (R330) -/
  | bar (ch : Fin 16)
  deriving DecidableEq, Repr

/-- The fault that stops a stream (R117, R141). -/
structure FaultInfo where
  cause : Status
  cls : BitVec 3
  pc : Nat
  isMov : Bool
  /-- the MOV faulted on the fields of its descriptor -/
  movFresh : Bool
  units : Nat
  deriving DecidableEq, Repr

/-- A stream context (R111) and what the command processors keep of its stream (R114, R141). -/
structure Stream where
  st : StreamState
  pc : Nat
  x : Vector W64 16
  v : Vector (Vector W32 64) 16
  loops : List Loop
  win : BitVec 10
  c : Bool
  nfs : Bool
  sat : Bool
  nfe : Bool
  banks : W16
  entLo : W16
  entHi : W16
  kept : List Kept
  record : StopRec
  deferred : Option StartParams
  block : Block
  /-- the SYN instruction in progress as issued, while `block` is not `none` -/
  blocked : Option Issued
  /-- SYN instructions that wait in the sync unit's queue and have not begun (R113), oldest first -/
  synq : List Issued
  fault : Option FaultInfo
  /-- once its next READ or FLUSH has reached its grant: the passes that it waits for, by array, context and issue number (R135) -/
  roPasses : Option (List (Nat × Ctx × Nat))
  /-- the clk until which YIELD gives up turns and grants (R133) -/
  yieldUntil : W64
  /-- instructions issued since the stream's FRESH start -/
  issued : Nat
  deriving DecidableEq, Repr

/-- The weight formats of a bank (R56, R118). -/
inductive WFmt where
  | f4 | i4 | t2 | i8
  deriving DecidableEq, Repr

/-- One bank of one quadrant: its format, the codes of its 1,024 cells and its joint row's scales,
as the image part of R121 lays them out. Bytes left out are 0 (R465). -/
structure BankPart where
  fmt : WFmt
  codes : List Byte
  scales : List Byte
  deriving DecidableEq, Repr

/-- The partitions (R65). -/
inductive Partition where
  | p1 | p2h | p2v | p4
  deriving DecidableEq, Repr

/-- The fused shapes (R66). -/
inductive FuseShape where
  | s128x64 | s64x128 | s128x128
  deriving DecidableEq, Repr

/-- A LOAD or PASS in an array queue (R113). -/
structure QEntry where
  c : Ctx
  ins : Issued
  isLoad : Bool
  /-- slots issued before a cut, for a PASS resumed (R142) -/
  slots : Nat
  deriving DecidableEq, Repr

/-- The pass that holds the feeder (R72). -/
structure Feeding where
  c : Ctx
  ins : Issued
  slots : Nat
  /-- the tensor descriptor as read at the grant (R123) -/
  td : List Byte
  deriving DecidableEq, Repr

/-- A slot in flight or in the drain queue (R59, R62, R63, R64). A bubble has no effect and is not held. -/
structure Slot where
  c : Ctx
  /-- issue number of its pass -/
  passId : Nat
  /-- WT of its pass -/
  wt : Bool
  /-- its pass was cut by a stop (R73) -/
  cut : Bool
  /-- entries of its pass: the first and how many -/
  passEnt : Nat
  passM : Nat
  bank : BitVec 4
  /-- ck of the array in which the slot was issued -/
  issued : Nat
  /-- drain descriptor (R62): SET or ADD, entry, first column, column count, and whether odd columns are left out (R89) -/
  set : Bool
  entry : Nat
  colLo : Nat
  colN : Nat
  evenOnly : Bool
  /-- the long lane of each column of the array -/
  lanes : List W64
  /-- in the drain queue -/
  queued : Bool
  deriving DecidableEq, Repr

/-- A load that has pushed and awaits its commit (R70, R71). -/
structure Loading where
  c : Ctx
  ins : Issued
  bank : BitVec 4
  /-- cluster, quadrant and image part of each quadrant that loads -/
  parts : List (Nat × Nat × BankPart)
  /-- passes through the bank that precede the load and have not ended -/
  before : List Nat
  deriving DecidableEq, Repr

/-- One array of a cluster's partition, with its edge units (R55, R64, R72). -/
structure ArrayUnit where
  ck : Nat
  queue : List QEntry
  feeder : Option Feeding
  lastGrant : Ctx
  loading : Option Loading
  lastLoad : Ctx
  flight : List Slot
  /-- the ck after that of the latest slot issued, a bubble or a filler slot included (R78) -/
  slotCk : Option Nat
  deriving DecidableEq, Repr

/-- A descriptor in the DMA mover (R113, R131). -/
structure DmaJob where
  id : Nat
  c : Ctx
  ins : Issued
  d : DmaDesc
  /-- completion units whose ADD was made -/
  units : Nat
  /-- the first run not yet moved: it waits for a hold (R257) -/
  next : Nat
  /-- a completion ADD sent as a fabric COUNT and not yet answered -/
  adding : Bool
  /-- an error of a transaction, with the completion unit it failed in; the first one counts -/
  bad : Option (Status × Nat)
  deriving DecidableEq, Repr

/-- A cluster's own state (R54, R111). The stores are in `mem`. -/
structure Cluster where
  part : Partition
  /-- as leader of a fused group: its shape (R66) -/
  fused : Option FuseShape
  /-- as member other than the leader: the leader -/
  leader : Option Nat
  arrays : Vector ArrayUnit 4
  /-- banks by quadrant × 16 + bank; a missing one is as R465 leaves it -/
  banks : Assoc BankPart
  /-- the counter of the free values that a missing bank holds instead, after a pass or a refresh (R190, R192) -/
  banksFree : Option Nat
  streams : Vector Stream 4
  /-- generator states by lane (R103); a missing lane holds the all-zero-seed state of R106 -/
  gens : Assoc W128
  /-- READ and FLUSH waiting in the read-out queue, in issue order (R113) -/
  readq : List (Ctx × Issued)
  lastRead : Ctx
  /-- the vector unit's queue, in issue order across contexts (R113) -/
  vecq : List (Ctx × Issued)
  mover : List DmaJob
  nextId : Nat
  /-- a PART or FUSE that waits for empty arrays (R137): the context and the instruction -/
  change : Option (Ctx × Issued)
  /-- context that issued last (R113) -/
  lastIssue : Ctx
  deriving DecidableEq, Repr

/-! ### Dies, links and stacks -/

/-- Die states of PKG_DIE_STATUS (R33). -/
inductive DieState where
  | off | up | narrow | fenced
  deriving DecidableEq, Repr

/-- Stack states of PKG_STACK_STATE (R33, R247). -/
inductive StackState where
  | off | up | selfRefresh | fenced
  deriving DecidableEq, Repr

/-- A flit as a die-link end holds it for replay (R269, R270). -/
structure D2dFlit where
  bseq : BitVec 12
  typ : BitVec 4
  eseq : W16
  units : Byte
  payload : List Byte
  sends : Nat
  deriving DecidableEq, Repr

/-- One bundle direction of an edge end (R272). -/
structure Bundle where
  rxExpect : BitVec 12
  /-- a NAK is outstanding -/
  nakOut : Bool
  /-- the bundle's next flit carries a NAK, or an acknowledgement that the partner has not had yet -/
  nakOwed : Bool
  ackOwed : Bool
  /-- the partner's NAK names this flit, and it has not been resent yet -/
  nakFrom : Option (BitVec 12)
  txNext : BitVec 12
  replay : List D2dFlit
  deriving DecidableEq, Repr

/-- One end of a die-link edge (R274, R289). -/
structure LinkEnd where
  tstate : BitVec 3
  attempt : Byte
  cause : Byte
  mask : W32
  peerMask : W32
  exclude : W32
  /-- bundles that passed PATTERN in this attempt, and the bundles allowed (a forced retrain narrows them) -/
  passed : W32
  allowed : W32
  /-- the partner's mask of the last MASK round of this attempt (R275) -/
  peerIn : W32
  second : Bool
  bundles : Assoc Bundle
  /-- next ESEQ to deliver on each network, and flits received ahead of it: what its receive buffers hold -/
  rxEseqReq : W16
  rxEseqRsp : W16
  held : List D2dFlit
  /-- credits of the receive buffers to return to the partner on each network (R271) -/
  owedReq : Nat
  owedRsp : Nat
  /-- next ESEQ to send and credits held on each network, and packets that wait for a credit, oldest first, each with how many of
  its bytes have gone (R271) -/
  txEseqReq : W16
  txEseqRsp : W16
  crReq : Nat
  crRsp : Nat
  txWait : List (MeshPkt × Nat)
  /-- flits waiting to be sent again on the remaining bundles after training (R273) -/
  requeue : List D2dFlit
  /-- payload delivered to the mesh, REQ then RSP byte streams -/
  streamReq : List Byte
  streamRsp : List Byte
  /-- flits sent, newest first: the bundle, the data wires and the sideband (R269, R270) -/
  wire : List (Nat × List Byte × W64)
  cntFlits : W64
  cntCrc : W64
  cntReplay : W64
  cntTrain : W64
  deriving DecidableEq, Repr

/-- A request of a master waiting for, or in flight to, a die (R276, R278). -/
structure MeshReq where
  src : Option (Fin 4)
  pkt : MeshPkt
  deriving DecidableEq, Repr

/-- Die-level registers and mesh of CDk (R78, R143, R201, R266, R289). -/
structure Die where
  st : DieState
  /-- compute-die domain powered -/
  on : Bool
  arrValid : W64
  arrFeed : W64
  arrDrain : W64
  arrThrottle : W64
  arrFiller : W64
  seqLastFault : W64
  seqInstr : W64
  seqFault : W64
  engBytes : W64
  acctProg : W64
  acctGather : W64
  cowBase : W64
  cowSize : W32
  scrubHours : Byte
  meshReqMax : Byte
  meshRspMax : Byte
  meshReq : W64
  meshRsp : W64
  meshCombined : W64
  meshBad : W64
  /-- BAR_MASK words by 16 × channel + word (R289) -/
  barMask : Assoc W64
  /-- replies delivered to the die's units on the RSP network (R281), newest first -/
  rspSeen : List MeshPkt
  /-- spares by row: in use, bad, pending, logical number served (R386) -/
  spares : Assoc (Bool × Bool × Bool × Nat)
  /-- pending remaps by spare row: logical number, and the command that asked -/
  pending : List (Nat × Nat × CmdHdr)
  /-- remaps that the commit instant has released (R379) -/
  due : List (Nat × Nat × CmdHdr)
  remapBad : List Nat
  remapCnt : W64
  deriving DecidableEq, Repr

/-- A stack and its controller (R243 to R254). -/
structure StackUnit where
  st : StackState
  ue : W16
  ce : BitVec 28
  rowsSpared : BitVec 7
  pagesRetired : BitVec 13
  /-- rows repaired, as the repair log holds them -/
  repairs : List Nat
  /-- pages redirected to the reserve, in order of their spare page (R253) -/
  redirects : List Nat
  /-- line that patrol scrub reads next -/
  scrubLine : Nat
  /-- lines corrected in this scrub interval and in the one before (R252) -/
  corrected : List Nat
  correctedPrev : List Nat
  /-- lines left of an immediate scrub pass (R251); none: patrol only -/
  scrubRun : Option Nat
  deriving DecidableEq, Repr

/-! ### Guard and update (R144 to R202) -/

/-- Step accumulators of one guard entry (R150, R157). -/
structure GAcc where
  amax : W32
  elems : Nat
  zero : Nat
  sat : Nat
  nonfin : Nat
  lossy : Nat
  flagged : Nat
  deriving DecidableEq, Repr

/-- What the guard keeps to undo one commit (R160, R161). -/
structure GUndo where
  epoch : W64
  /-- entry words 8–13 and 16–31 as they stood, by TID -/
  words : List (Nat × List W32)
  /-- changed override records: TID, index, old value -/
  recs : List (Nat × Nat × Byte)
  overflow : Bool
  /-- GUARD_TABLE_BASE and OV_BASE by TID, as they stood at the commit -/
  table : Nat
  bases : Assoc Nat
  deriving DecidableEq, Repr

/-- The guard (R145, R166). The table itself is in `mem`. -/
structure Guard where
  tableBase : W64
  en : Bool
  logBase : W64
  logRecs : W32
  untrkElems : W64
  untrkSat : W64
  untrkNonfin : W64
  /-- configuration words 0–7 as latched, by TID; only accepted VALID entries (R146) -/
  cfg : Assoc (List W32)
  rejected : Nat
  acc : Assoc GAcc
  log : List GUndo
  /-- committed epochs for which the guard has nothing to undo: GUARD_EN was 0 at their commit (R146), or a REPLAY has undone
  it (R160) -/
  bare : List W64
  deriving DecidableEq, Repr

/-- A tensor of the latched list (R174), as its words. -/
structure Tensor where
  idx : Nat
  group : Nat
  die : Fin 4
  kb : Nat
  nb : Nat
  pkt : Nat
  pnt : Nat
  region : Nat
  freeze : Nat
  kstate : Nat
  tid : W16
  deriving DecidableEq, Repr

/-- The rules of R176. -/
inductive URule where
  | m | a | o | k
  deriving DecidableEq, Repr

/-- A VALID group of the latched table (R176). -/
structure Group where
  rule : URule
  clipx : Bool
  tracked : Bool
  b1 : W32
  b2 : W32
  eps : W32
  gain : W32
  kbeta : W32
  keps : W32
  kperiod : W16
  kiter : Byte
  lrCurve : Nat
  wdCurve : Nat
  lrPoints : Nat
  wdPoints : Nat
  deriving DecidableEq, Repr

/-- A group's committed state (R177). -/
structure GState where
  p1 : W32
  p2 : W32
  steps : W64
  nextSwitch : W64
  rootSlot : Bool
  deriving DecidableEq, Repr

/-- The scalars of a group in a pass (R182). -/
structure GScalars where
  eta : W32
  kap : W32
  alpha : W32
  epsh : W32
  clip : W32
  p1n : W32
  p2n : W32
  deriving DecidableEq, Repr

/-- An update pass (R168 to R185). -/
structure Pass where
  hdr : CmdHdr
  gscale : W32
  tau : W32
  normScope : Byte
  ngroup : Byte
  s : Nat
  nf1 : W64
  nf2 : W64
  gnorm : W32
  clip : W32
  skipped : Bool
  digest : W128
  scalars : Assoc GScalars
  /-- panels posted to panel service and panels whose DIR is written: (tensor, panel) -/
  posted : List (Nat × Nat)
  served : List (Nat × Nat)
  /-- the norm sum has come back (NORM_SCOPE 1) -/
  normIn : Bool
  tiles : Nat
  deriving DecidableEq, Repr

/-- The package update block and its working state (R200). -/
structure Upd where
  phase : BitVec 4
  areaBase : W64
  stateBase : W64
  refreshBase : W64
  refreshClusters : BitVec 6
  digestLo : W64
  digestHi : W64
  digestEpoch : W64
  norm : W64
  cntBytes : W64
  cntSkipped : W32
  cntDone : W32
  ccActive : Bool
  rejected : Nat
  /-- a GROUP_TABLE_LOAD that awaits STEP_BEGIN: groups, tensors, count -/
  load : Option (W64 × W64 × W32)
  groups : Assoc Group
  /-- states that the array at UPD_STATE_BASE is still to take at the group's next commit (R177, R179, R193) -/
  gstate : Assoc GState
  tensors : List Tensor
  pass : Option Pass
  /-- the step in progress has had its pass (R169) -/
  passHad : Bool
  /-- K groups whose first commit since becoming VALID is still to come (R191) -/
  kNew : List Nat
  /-- groups with a refresh running in the inactive root slot (R192) -/
  refreshing : List Nat
  /-- digests of the last four committed epochs (R359), newest first -/
  history : List (W64 × W128)
  deriving DecidableEq, Repr

/-! ### Exchange (R220 to R242) -/

/-- An incomplete operation (R234, R235). -/
structure ExOp where
  hdr : CmdHdr
  p : ExParams
  /-- the group entry as it stood at the start: LINE, rank, members, PORT_NEG, PORT_POS -/
  line : Bool
  rank : Nat
  members : List W16
  portNeg : Byte
  portPos : Byte
  epoch : W64
  /-- records taken: header kind, tensor, tile, part, rank -/
  taken : List (BitVec 4 × W16 × W32 × BitVec 2 × BitVec 13)
  /-- contributions held for the tiles or units this package owns -/
  contribs : List (ExHdr × ExRec)
  applied : Nat
  sent : Nat
  received : Nat
  nonfin : Nat
  /-- result records it expects, and own results it owes -/
  expect : Nat
  owed : Nat
  /-- the package started it itself (R180, R331): the barrier channel or the norm sum -/
  own : Bool
  /-- the read of its source waits for the commit instant (R257) -/
  waits : Bool
  deriving DecidableEq, Repr

/-- An operation that has completed in the epoch in progress, and the records that it took, as `ExOp.taken` names them
(R236). -/
structure PastOp where
  opId : W32
  epoch : W64
  taken : List (BitVec 4 × W16 × W32 × BitVec 2 × BitVec 13)
  deriving DecidableEq, Repr

/-- The result records of one step in the exchange log (R239). -/
structure ExLogStep where
  epoch : W64
  records : List (ExHdr × ExRec)
  bytes : Nat
  logged : Bool
  deriving DecidableEq, Repr

/-- The exchange block (R241). -/
structure Exch where
  layout : W32
  groupBase : W64
  tensorBase : W64
  bufBase : W64
  bufSize : W64
  logBase : W64
  logSize : W64
  cntTx : W64
  cntRx : W64
  cntStale : W64
  cntDup : W64
  cntNonfin : W64
  ops : List ExOp
  early : List (ExHdr × ExRec)
  log : List ExLogStep
  /-- completed operations of the epoch in progress and the records that each took (R236) -/
  past : List PastOp
  deriving DecidableEq, Repr

/-! ### Memory view, checkpoints (R255 to R267, R375 to R378, R385) -/

/-- The package memory block (R265). -/
structure MemBlk where
  epoch : W64
  failed : Bool
  hold : Bool
  /-- a step is in progress (R203) -/
  stepOn : Bool
  cntHeld : W64
  cntCow : W64
  deriving DecidableEq, Repr

/-- Capture state of a 64 KiB block (R260). A `taken` block is one whose pool copy the checkpoint engine has read to free the
pool (R261) and whose bytes have still to go to the image. -/
inductive BlockState where
  | uncaptured | copied (pool : Nat) | taken | done
  deriving DecidableEq, Repr

/-- A region of a manifest (R375). -/
structure Region where
  addr : Nat
  len : Nat
  offset : Nat
  record : Bool
  deriving DecidableEq, Repr

/-- An active restore (R378). -/
structure Restore where
  hdr : CmdHdr
  epoch : W64
  src : XAddr
  regions : List Region
  /-- the manifest holds a RECORD -/
  gens : Bool
  /-- 0 header and hash table asked for, 1 regions asked for -/
  phase : Nat
  /-- dies that its first step has power-cycled -/
  cycled : List Nat
  deriving DecidableEq, Repr

/-- An active capture (R377). -/
structure Capture where
  hdr : CmdHdr
  dest : XAddr
  manifest : W64
  regions : List Region
  header : List Byte
  gens : List (Nat × Nat × W128)
  /-- die × 2^32 + block to its state -/
  blocks : Assoc BlockState
  bytes : Nat
  cow : Nat
  /-- bytes of each captured block, by die × 2^32 + block, kept for the hash table -/
  image : List Host.Cell
  /-- a block taken from a pool copy held a poisoned line: the capture is to end (R250) -/
  bad : Bool
  /-- 0 regions, 1 hash table and generator states sent, 2 header sent -/
  phase : Nat
  /-- groups whose refresh was running at the snapshot: their inactive root slots are captured as copied (R191, R192) -/
  refreshing : List Nat
  deriving DecidableEq, Repr

/-- The checkpoint block (R385). -/
structure Ckpt where
  lastStatus : Byte
  baseValid : Bool
  baseEpoch : W64
  baseLoc : XAddr
  baseManifest : W64
  baseNreg : BitVec 13
  /-- of the base: UPD_CC_ACTIVE of its header, the length of its image, and the groups whose refresh was running at its capture -/
  baseCc : Bool
  baseLen : Nat
  baseRefreshing : List Nat
  cntBytes : W64
  cntCaptures : W64
  capture : Option Capture
  restore : Option Restore
  /-- an accepted REPLAY that has not ended: its command, epoch and committed form -/
  replaying : Option (CmdHdr × W64 × Bool)
  /-- epochs of which a CKPT_CAPTURE has completed DONE (R218) -/
  captured : List W64
  /-- bytes of an image that lies outside the package, by image offset, as a restore or a replay reads them -/
  fetched : List Host.Cell
  deriving DecidableEq, Repr

/-! ### Die-link package block, barriers and sync (R285 to R289, R318 to R335) -/

/-- A barrier channel (R285, R331 to R333). -/
structure Barrier where
  phase : Bool
  arrived : List Nat
  /-- contexts blocked on the channel: cluster and context -/
  waiting : List (Nat × Ctx)
  /-- armed: group and episode number -/
  armed : Option (Byte × Nat)
  /-- an episode's COUNT collective is incomplete, and whether it has completed -/
  collective : Bool
  collectiveDone : Bool
  disarming : Bool
  deferred : Option (CmdHdr × Byte)
  deriving DecidableEq, Repr

/-- A blocked waiter in a watch table (R322). -/
structure Waiter where
  addr : Addr48
  n : Addr48
  cl : Nat
  c : Ctx
  deriving DecidableEq, Repr

/-- An armed MONITOR (R324). -/
structure Monitor where
  addr : Addr48
  n : Addr48
  /-- the notification word, as a local or a global address -/
  notify : W64
  notifyLocal : Bool
  master : W16
  /-- its threshold has been met, or its word is lost: it is to fire -/
  due : Bool
  deriving DecidableEq, Repr

/-- The sync block (R334) and the homes' tables. -/
structure Sync where
  tableBase : W64
  pollNs : W16
  cntOps : W64
  cntRetry : W64
  cntUnderflow : W64
  cntOrphan : W64
  waiters : List Waiter
  monitors : List Monitor
  /-- the owner index (R327): word address and owner code -/
  index : List (Addr48 × W16)
  /-- indexed words of owners met by an orphaning event, not yet processed (R328) -/
  orphans : List Addr48
  barriers : Vector Barrier 16
  cntRelease : W64
  deriving DecidableEq, Repr

/-! ### Fabric (R290 to R317) -/

/-- A packet on its way out of a port. -/
structure OutPkt where
  pkt : Pkt
  /-- the clk at which it came into being or into the package (R307) -/
  since : W64
  /-- the port and lane of its arrival (R300); none: a packet of this package -/
  came : Option (Nat × Bool)
  /-- bytes of it that have gone into flits -/
  sent : Nat
  deriving DecidableEq, Repr

/-- A whole packet in the receive buffers of a port. -/
structure InPkt where
  port : Fin 24
  pkt : Pkt
  /-- FT and clk at which the first flit of its header left the FEC decoder (R309, R307) -/
  ft : W64
  at_ : W64
  /-- the flits of the receive buffer that hold it -/
  flits : List Nat
  deriving DecidableEq, Repr

/-- A DATA flit in a replay buffer or on its way out (R292, R294). -/
structure Flit where
  fseq : BitVec 12
  vn : Bool
  lane : Bool
  hdrOff : Byte
  body : List Byte
  sends : Nat
  /-- the packets with bytes in it -/
  pkts : List OutPkt
  deriving DecidableEq, Repr

/-- A fabric port (R295, R316). -/
structure Port where
  lineNext : Byte
  line : BitVec 3
  dateline : Bool
  raw : Bool
  ethRate : BitVec 2
  mode : BitVec 2
  lanes : BitVec 4
  fecStd : Bool
  downCause : Byte
  pstate : BitVec 3
  peerPart : W16
  peerPort : Byte
  peerIncarn : Byte
  peerId : W16
  asym : W16
  txPkts : W64
  rxPkts : W64
  txBytes : W64
  rxBytes : W64
  fecCorr : W64
  fecUncorr : W64
  /-- the last flit decoded touched an uncorrectable codeword (R316) -/
  fecRun : Bool
  crc : W64
  replayCnt : W64
  train : W64
  qmaxReq : W16
  qmaxRsp : W16
  stallReq : W64
  stallRsp : W64
  ethMac : W64
  ethIpLo : W64
  ethIpHi : W64
  ethQp : W64
  ethUp : Bool
  /-- an IDENT has come since the port entered IDENT (R295) -/
  identIn : Bool
  /-- the clk at which training is tried again after a budget failure (R295) -/
  retryAt : Option W64
  /-- it has exceeded a budget since its ports began to train (R430) -/
  overran : Bool
  rxExpect : BitVec 12
  /-- a NAK is outstanding (R294) -/
  nakOut : Bool
  /-- the next flit carries a NAK, or an acknowledgement that the partner has not had yet -/
  nakOwed : Bool
  ackOwed : Bool
  /-- the partner's NAK names this flit, and it has not been resent yet -/
  nakFrom : Option (BitVec 12)
  txNext : BitVec 12
  replay : List Flit
  /-- packets that are not yet whole in flits, oldest first -/
  outq : List OutPkt
  /-- the pair of VN and lane that had the last flit slot (R294) -/
  turn : BitVec 2
  /-- credits for the four pairs of VN and lane: REQ0, REQ1, RSP0, RSP1 -/
  credits : Vector Nat 4
  /-- byte streams being received for the four pairs -/
  rxStream : Vector (List Byte) 4
  /-- the flits of each stream, and the FT and clk at which the first of them came -/
  rxPart : Vector (List Nat) 4
  rxFt : Vector W64 4
  rxAt : Vector W64 4
  /-- the number of the next flit received, and the flits in the receive buffers, each with its pair (R294) -/
  rxCount : Nat
  rxHeld : List (Nat × Nat)
  /-- credits to return to the partner for the four pairs -/
  owed : Vector Nat 4
  /-- flits sent, newest first: what leaves the port's transmit lanes -/
  wire : List (List Byte)
  /-- time transfer (R312): own and partner's sequence numbers and stamps -/
  tseq : W32
  txStamp : W64
  prevTxStamp : W64
  rxLast : W64
  rseq : W32
  offset : Option Int
  /-- FT less the local clock when each of those stamps and the offset was taken: what slewing or TIME_SET has moved FT by since then
  is taken out of them (R37, R40) -/
  txLine : W64
  prevTxLine : W64
  rxLine : W64
  offLine : W64
  /-- the clk up to which the partner's priority flow control holds priority 3, and the frames that wait for it (R313) -/
  ethPause : W64
  ethWait : List (List Byte × Nat)
  /-- packets sent so far on a queue pair: what its packet sequence number has moved on by (R314) -/
  qpSent : Assoc Nat
  deriving DecidableEq, Repr

/-- What a transaction was made for. -/
inductive TxnFor where
  /-- write of a MOV's bytes: cluster, job and completion unit -/
  | movWrite (cl job unit : Nat)
  /-- read of a MOV's source: cluster, job, completion unit, and the local or global destination of the bytes -/
  | movRead (cl job unit : Nat) (dst : W64) (dloc : Bool)
  /-- completion ADD of a MOV -/
  | movAdd (cl job : Nat)
  /-- SYN operation of a context -/
  | syn (cl : Nat) (c : Ctx)
  /-- slice of a memory command: long operation, read destination if it is a read -/
  | cmd (op : Nat) (dst : Option Nat)
  /-- a notification or completion ADD of the package itself -/
  | add
  /-- exchange records, a reply or event, a Solder message, a capture write -/
  | exch | reply | solder | capture
  /-- bytes of an image that a restore reads, at an image offset -/
  | restore (off : Nat)
  deriving DecidableEq, Repr

/-- An outstanding transaction (R303, R308). -/
structure Txn where
  tag : W16
  pkt : Pkt
  what : TxnFor
  sent : W64
  resends : Nat
  /-- answered BUSY: send again as a new transaction at this clk (R305) -/
  busyAt : Option W64
  /-- multicast: answers still awaited, by PKG_ID -/
  mcWait : List W16
  /-- multicast: members answered BUSY, each to be asked again by itself at a clk (R305, R310) -/
  mcBusy : List (W16 × W64)
  deriving DecidableEq, Repr

/-- A send flow (R304, R308). -/
structure SendFlow where
  dst : W16
  next : W32
  started : Bool
  e2e : Bool
  lastActive : W64
  deriving DecidableEq, Repr

/-- A receive flow: what the destination keeps for each SEQ of the window (R304). -/
structure RecvFlow where
  src : W16
  /-- the package itself, or the last member of a line multicast (R310) -/
  dst : W16
  incarn : Byte
  cum : W32
  seen : List (W32 × Byte × W64)
  deriving DecidableEq, Repr

/-- An Ethernet transfer in progress (R313). -/
structure EthXfer where
  port : Nat
  qp : Byte
  op : Nat
  read : Bool
  /-- region offset of its next packet, and that packet's sequence number (R314) -/
  off : Nat
  psn : Nat
  packets : Nat
  /-- the packets of a WRITE that are not acknowledged, and the bytes of a READ that are still to come -/
  frames : List (List Byte × Nat)
  left : Nat
  deriving DecidableEq, Repr

/-- A request that waits for a transaction slot or for the window of its flow (R303, R304); a line multicast with its port and its
members (R310). -/
structure WaitReq where
  pkt : Pkt
  what : TxnFor
  line : Option (Nat × List W16)
  deriving DecidableEq, Repr

/-- The fabric package block (R315) and flow state. -/
structure Fab where
  e2eAll : Bool
  fwdEn : Bool
  en : Bool
  routeBase : W64
  peerBase : W64
  flowBase : W64
  toService : W16
  toE2e : W16
  tries : Byte
  incarn : Byte
  /-- the clk at which the incarnation was last raised (R307) -/
  incarnAt : W64
  cntNoroute : W64
  cntResend : W64
  cntDup : W64
  cntEcrc : W64
  cntStale : W64
  cntUnreach : W64
  cntBad : W64
  txns : List Txn
  /-- requests that wait for a transaction slot or for the window of their flow (R303, R304), oldest first -/
  waitq : List WaitReq
  nextTag : W16
  sends : List SendFlow
  recvs : List RecvFlow
  ports : Vector Port 24
  /-- whole packets received and not yet taken by an arrival step, oldest first -/
  inbox : List InPkt
  /-- COMMAND requests whose ACK waits for the first reply (R336): the request, the session and SEQUENCE -/
  acks : List (Pkt × W16 × W32)
  /-- next twin port to use when both are UP (R367) -/
  twinAlt : Bool
  eth : List EthXfer
  /-- Ethernet frames sent, newest first -/
  ethOut : List (Nat × List Byte)
  deriving DecidableEq, Repr

/-! ### Commands (R336 to R365) -/

/-- A reply or event message of the package (R346, R351). -/
structure Reply where
  event : Bool
  opcode : W16
  session : W16
  master : W16
  stream : W16
  seq : W32
  status : Status
  ftDone : W64
  stamp : W64
  ftState : BitVec 3
  cond : Byte
  epoch : W64
  cursor : W64
  results : List Byte
  port : CmdPort
  /-- sent again to a duplicate (R343) -/
  resent : Bool
  deriving DecidableEq, Repr

/-- Session keys: command key and reply key (R340). -/
structure Keys where
  kc : List Byte
  kr : List Byte
  deriving DecidableEq, Repr

/-- An open session (R341, R343). -/
structure Session where
  gen : BitVec 10
  cred : Nat
  keys : Keys
  /-- the keys before each KEY_ROTATE and its SEQUENCE, newest first, until they are erased (R400) -/
  old : List (Keys × W32)
  /-- SEQUENCEs of the KEY_ROTATEs admitted that have no final reply yet (R400) -/
  rotating : List W32
  h : W32
  /-- SEQUENCEs seen in the window, with the latest reply of each -/
  seen : List (W32 × Option Reply)
  last : W64
  classes : W32
  port : CmdPort
  deriving DecidableEq, Repr

/-- An admitted command waiting for a processor (R345). -/
structure QCmd where
  hdr : CmdHdr
  opcode : W16
  serial : Bool
  params : List Byte
  /-- header bytes and tag, as SESSION_OPEN's signature covers them -/
  raw : List Byte
  tag : List Byte
  wc : W64
  deriving DecidableEq, Repr

/-- An entry of the schedule (R45, R47, R358). -/
structure SchedEntry where
  id : W32
  /-- its due tick; one at 2^64 or above never comes (R36, R46) -/
  due : Nat
  nb : W64
  cmd : QCmd
  isPost : Bool
  repeatNs : W64
  times : W32
  occurrence : Nat
  deriving DecidableEq, Repr

/-- A message being assembled (R339). -/
structure Partial where
  key : Nat
  port : CmdPort
  header : List Byte
  parts : Nat
  slices : Assoc (List Byte)
  first : W64
  deriving DecidableEq, Repr

/-- What a long operation does (R349). -/
inductive LongKind where
  /-- bytes done, epoch of the state bytes read, first error, and whether the completion ADD awaits its answer -/
  | memCopy (src dst : XAddr) (len caddr cval : W64) (done : Nat) (epoch : Option W64) (bad : Option Status) (adding : Bool)
  | memFill (dst : W64) (len pattern : W64) (done : Nat) (bad : Option Status)
  | programLoad (src : W64) (len offset : Nat) (first count : Nat) (done : Nat)
  | seedSet (seed : List Byte) (first count : Nat) (sets : Byte) (done : Nat)
  | streamStop (stream : Nat)
  | stepCommit (epoch : W64)
  | updateRun
  | exchange (opId : W32)
  | capture | restore
  | twinJoin (epoch : W64) (prev : BitVec 3)
  | replay
  | reshard (layout : W32)
  | power (target : BitVec 2)
  | modeSet (mode : BitVec 2)
  | fwStage (src : W64) (len : Nat) (slot : Bool) (done : Nat) (flashOk : Bool)
  | scrub (mask : W16)
  | edge (e : Fin 8) (prbs : Option W64)
  | port (p : Fin 24) (test : Bool) (start : W64)
  deriving DecidableEq, Repr

/-- A long operation in progress (R349). -/
structure LongOp where
  id : Nat
  hdr : CmdHdr
  opcode : W16
  kind : LongKind
  cursor : W64
  lastReply : W64
  deriving DecidableEq, Repr

/-- A MEM_READ or MEM_WRITE of another package's memory that awaits answers (R355): the bytes read so far. -/
structure MemWait where
  id : Nat
  hdr : CmdHdr
  opcode : W16
  bytes : List Byte
  bad : Option Status
  deriving DecidableEq, Repr

/-- An event in the event log (R351, R352). -/
structure Event where
  number : W32
  cls : Byte
  code : Byte
  ft : W64
  epoch : W64
  detail : List Byte
  deriving DecidableEq, Repr

/-- A datagram that leaves a management port: its port, the address and UDP port it goes to, and its payload (R336). -/
structure MgtDatagram where
  port : Fin 2
  /-- source address and source port, where the manual gives them -/
  src : Option (W128 × W16)
  ip : W128
  udp : W16
  bytes : List Byte
  deriving DecidableEq, Repr

/-- The command block (R364) and the command processors. -/
structure Cmd where
  udpPort : W16
  progressMs : W16
  sliceNs : W32
  ip : Vector W64 4
  cntRx : W64
  cntDiscard : W64
  cntAuthFail : W64
  cntDup : W64
  cntBusy : W64
  queue : List QCmd
  /-- wake-class commands that Run has released and that no processor has taken yet (R421) -/
  ready : List Instr
  /-- commands that keep their processors while a path of theirs crosses a training edge (R276), oldest first -/
  held : List Instr
  schedule : List SchedEntry
  nextEntry : W32
  partials : List Partial
  longs : List LongOp
  nextLong : Nat
  waits : List MemWait
  sessions : Assoc Session
  /-- generation last used by each session slot -/
  gens : Assoc (BitVec 10)
  /-- open-nonce list (R398): nonce and WC -/
  nonces : List (List Byte × W64)
  eventNo : W32
  events : List Event
  /-- replies and events sent, newest first -/
  sent : List Reply
  /-- the datagrams of the management ports that carry them, newest first -/
  mgtOut : List MgtDatagram
  /-- the clk of the AUTH_FAIL replies of the last second, each with its port: MGT0, MGT1 and the fabric ports -/
  authFails : List (W64 × Nat)
  deriving DecidableEq, Repr

/-! ### Twin and replay log (R366 to R387) -/

/-- Bytes of stack memory from one linear address to another whose unlisted ones hold no defined value: free values of one
counter (log entry 3). -/
structure Vague where
  lo : Nat
  stop : Nat
  f : Nat
  deriving DecidableEq, Repr

/-- The bytes of the package by key: linear stack addresses and store addresses. -/
structure Mem where
  /-- the listed bytes, in the one canonical form -/
  cells : List Host.Cell
  /-- runs of stack memory without defined values -/
  vague : List Vague
  /-- clusters whose store bytes +0x20_0000 to +0x2F_FFFF and accumulation store a pass or a refresh has left without defined
  values (R190, R192), with the counter of their free values -/
  spoiled : Assoc Nat
  deriving DecidableEq, Repr

/-- A record of the replay log (R371); the bodies of table images and generator states stand in its step. -/
structure LogRec where
  opcode : W16
  stream : W16
  seq : W32
  master : W16
  status : Byte
  kind : Byte
  ft : W64
  epoch : W64
  body : List Byte
  deriving DecidableEq, Repr

/-- What the replay log keeps of one step (R370). -/
structure LogStep where
  epoch : W64
  records : List LogRec
  groups : Assoc Group
  tensors : List Tensor
  gstate : Assoc GState
  clip : W32
  gscale : W32
  skipped : Bool
  hadPass : Bool
  nf1 : W64
  nf2 : W64
  digest : W128
  gens : List (Nat × Nat × W128)
  /-- where the latched images stood (groups, tensors, count), when the latch changed the tables; and memory there at the latch -/
  imageAt : Option (W64 × W64 × W32)
  image : Mem
  bytes : Nat
  logged : Bool
  deriving DecidableEq, Repr

/-- The twin block (R384) and Solder. -/
structure Twin where
  peerId : W16
  mark : BitVec 4
  cause : Byte
  st : BitVec 3
  digestToMs : W16
  hbLimitUs : W16
  orig : W128
  peer : W128
  epoch : W64
  logBase : W64
  logSize : W64
  cntMatch : W64
  cntMismatch : W64
  cntReplay : W64
  cntHbLost : W64
  /-- own and twin's digest for the epoch being built (R369) -/
  own : Option (W64 × W128)
  held : Option (W64 × W128)
  /-- the clk of the last Solder message taken, and of the wait of a STEP_COMMIT -/
  lastMsg : W64
  /-- the clk of the last HEARTBEAT sent (R368) -/
  hbAt : W64
  waitFrom : Option W64
  /-- the JOIN taken from the twin (R382), and the clk of the own one -/
  joinIn : Option (W64 × W128)
  joinAt : W64
  /-- replay digests: own and the twin's (R374) -/
  ownReplay : Option (W64 × W128)
  peerReplay : Option (W64 × W128)
  /-- REPLAY_DIGEST has been sent for the own replay -/
  replaySent : Bool
  log : List LogStep
  /-- Solder messages sent, newest first -/
  sent : List SolderMsg
  deriving DecidableEq, Repr

/-! ### Security and flash (R388 to R409) -/

/-- A credential slot (R396). -/
structure Cred where
  role : Byte
  ordinal : W64
  pubkey : List Byte
  deriving DecidableEq, Repr

/-- The security block (R409), fuses, measurements, flash. -/
structure Cob where
  credLast : Byte
  creds : Assoc Cred
  /-- ordinals stay when a slot is revoked -/
  ordinals : Assoc W64
  chal : W64
  cntDenied : W64
  ctrs : Assoc Byte
  accSel : W16
  /-- region entries of every target, by target × 64 + entry (R403, R404) -/
  table : Assoc W128
  mr : Assoc (List Byte)
  keyHashes : Assoc (List Byte)
  revoked : BitVec 4
  rma : Bool
  dikPresent : Bool
  provOk : Bool
  debug : Bool
  keyslot : BitVec 4
  /-- running image: slot and BUILD -/
  bootSlot : Bool
  build : W64
  commitSvn : Bool
  /-- counter and SVN of each component of the running image -/
  svns : List (Nat × Nat)
  /-- xSPI flash: device × 2^25 + offset -/
  flash : List Host.Cell
  /-- FW_STAGE running into a slot -/
  staging : Option Bool
  deriving DecidableEq, Repr

/-! ### Power (R410 to R428) -/

/-- The power block (R427). -/
structure Power where
  wakeLast : BitVec 4
  excursion : Bool
  thermThr : Bool
  envThr : Bool
  mode : BitVec 2
  st : BitVec 2
  /-- state being entered -/
  entering : Option (BitVec 2)
  exiting : Bool
  /-- a deferred POWER_STATE to Run (R425) -/
  deferredRun : Option CmdHdr
  /-- POWER_STATE commands taken during the entry, decided at its commit, oldest first -/
  next : List (BitVec 2 × CmdHdr)
  /-- the first enabled edge of the entry, and the local clock at it (R424) -/
  latched : Option (BitVec 4 × W64)
  /-- levels reported during the entry: bit 0 the WAKE land, bit 1 + n signal detect of port n (R424) -/
  levels : BitVec 25
  slew : W16
  floor : W16
  target : W16
  vinMv : W16
  p100 : Nat
  limit : Nat
  low : Nat
  floorMet : Bool
  /-- a raised FLOOR is being reached at SLEW (R415) -/
  floorRises : Bool
  samples : Nat
  sampleSum : Nat
  /-- input energy below 1 mJ not yet counted, in µJ -/
  energyUj : Nat
  filler : Bool
  wakeCfg : W64
  wakeFt : W64
  /-- PWR_WAKE_FT was written above FT_NOW and has not fired (R428) -/
  wakeArmed : Bool
  temps : Temps
  thermWarn : Byte
  cntEnergy : W64
  cntIfEnergy : W64
  cntEnvThr : W64
  cntThermThr : W64
  cntExcursion : W64
  lastExcursion : Option W64
  excursionEnd : W64
  vinBad : Bool
  /-- a thermal trip has turned the domains off (R417) -/
  tripped : Bool
  /-- MODE_SET in progress: the new mode and its phase (R414) -/
  modeTo : Option (BitVec 2 × Nat)
  clockStopped : Bool
  ramp : Option W64
  /-- wake-class commands buffered (R421) -/
  buffer : List Instr
  deriving DecidableEq, Repr

/-! ### Boot, pins, I3C and TAP (R429 to R456) -/

/-- The boot block (R437) and the boot record (R431). -/
structure Boot where
  stage : BitVec 4
  fail : Byte
  warn : Byte
  active : Bool
  lastGood : Bool
  trial : Bool
  tries : BitVec 2
  ftStart : W64
  ftReg : W64
  /-- the package has been registered since the last restart (R435) -/
  complete : Bool
  /-- an exit from Dark runs stages again (R436) -/
  fromDark : Bool
  annSeq : W16
  /-- local clock as the stage began (R430) -/
  since : W64
  /-- local clock at the last announcement of each management port (R434) -/
  annAt : Vector W64 2
  /-- announcements sent, newest first (R434) -/
  anns : List MgtDatagram
  deriving DecidableEq, Repr

/-- The I3C target (R446, R447). -/
structure I3c where
  address : Option (BitVec 7)
  ibiEn : Bool
  result : Byte
  buffer : List Host.Cell
  image : Option Bool
  /-- bytes that the next private read returns -/
  readData : List Byte
  /-- in-band interrupts raised: mandatory data bytes, newest first -/
  ibis : List Byte
  /-- provisioned IDs driven on the bus in ENTDAA, newest first (R446) -/
  ids : List (BitVec 48)
  deriving DecidableEq, Repr

/-- The test access port and the board pins (R440, R453, R454). -/
structure Tap where
  ir : Byte
  /-- the instruction has control of the lands -/
  landsTaken : Bool
  testIod : Bool
  shifted : List Bool
  /-- cells of the boundary-scan chain as last updated -/
  cells : List Bool
  tdo : List Bool
  token : List Bool
  /-- PWR_EN is asserted and VIN is there (R411, R451; log entry 90) -/
  pwrEn : Bool
  resetN : Bool
  alert : Bool
  mgtUp : Vector Bool 2
  deriving DecidableEq, Repr

/-- The whole state of the package. -/
structure State where
  /-- commands that wait, first in first out -/
  pending : List Instr
  /-- the model's counter for free values -/
  fresh : Nat
  /-- stack memory by linear address, and the clusters' stores; an unlisted byte reads as 0 (R247, R430), or as a free value
  where the manual leaves its contents undefined -/
  mem : Mem
  /-- poisoned 64-byte lines of stack memory, by linear line number (R249) -/
  poison : List Nat
  pkgId : W16
  inv : Invar
  clusters : Assoc Cluster
  dies : Vector Die 4
  stk : Vector StackUnit 16
  /-- ends of the eight edges: lower end, upper end (R20) -/
  links : Vector (LinkEnd × LinkEnd) 8
  /-- requests held by training edges or in flight between dies (R276, R278), oldest first -/
  waitingReqs : List MeshReq
  /-- mesh requests that have come over an edge and whose replies have not been delivered (R278) -/
  openReqs : List MeshPkt
  /-- mesh packets that a fenced die took with it: each completes its request with DIE_LOST (R278), newest first -/
  meshLost : List MeshPkt
  /-- MASTER and TAG of requests that have completed so: a reply that still comes is discarded (R278) -/
  meshLate : List (W16 × W16)
  /-- mesh replies delivered to units of the I/O die, newest first -/
  iodSeen : List MeshPkt
  guard : Guard
  upd : Upd
  exch : Exch
  memblk : MemBlk
  ckpt : Ckpt
  sync : Sync
  fab : Fab
  cmd : Cmd
  twin : Twin
  cob : Cob
  power : Power
  boot : Boot
  i3c : I3c
  tap : Tap
  /-- generator states in the stack reserve, saved at Bank entry (R418): cluster, lane, state -/
  savedGens : List (Nat × Nat × W128)
  /-- status of the last register write and of the last access made outside a command -/
  lastStatus : Status
  deriving DecidableEq, Repr

/-! ### The state after reset

The package with VIN applied, ISL powered and PWR_EN low: stage 1 of R430. A register that a rule gives a reset value
has it; every other field has the value that log entry 1 names. -/

/-- Invar after reset (R42, R37). -/
def Invar.reset : Invar where
  ft := 0
  clk := 0
  state := 0
  src := 0xFF
  depth := 0xFF
  err := 65535 * 20000000
  parent := 0xFF
  timeinEn := false
  en1588 := true
  linkEn := true
  tickNs := 1000
  horizon := 10000000000
  timeinDelay := 0
  cntTimeinIgn := 0
  cntWindowMissed := 0
  cntNotYet := 0
  cntLatePost := 0
  ignoredRun := 0
  seconds := false
  slew := 0
  slewAge := 0
  timeOutUntil := none

/-- An empty stop record. -/
def StopRec.reset : StopRec where
  kept := 0
  cls := 0
  cause := 0
  pc := 0
  keptPc := 0
  slots := 0
  movPc := 0
  movFresh := false
  haltCode := 0
  ftStop := 0
  movUnits := 0

/-- A stream context of an idle stream (R111, R114). -/
def Stream.reset : Stream where
  st := .idle
  pc := 0
  x := Vector.replicate 16 0
  v := Vector.replicate 16 (Vector.replicate 64 0)
  loops := []
  win := 0
  c := false
  nfs := false
  sat := false
  nfe := false
  banks := 0
  entLo := 0
  entHi := 0
  kept := []
  record := StopRec.reset
  deferred := none
  block := .none
  blocked := none
  synq := []
  fault := none
  roPasses := none
  yieldUntil := 0
  issued := 0

/-- An array with nothing queued or in flight. R72 names no context that its rotations favour before any grant: they begin after
SVC, so that FWD comes first (DESIGN CHOICE, log entry 1). -/
def ArrayUnit.reset : ArrayUnit where
  ck := 0
  queue := []
  feeder := none
  lastGrant := .svc
  loading := none
  lastLoad := .svc
  flight := []
  slotCk := none

/-- A cluster as stage 5 of bring-up leaves it (R430, R465). -/
def Cluster.reset : Cluster where
  part := .p1
  fused := none
  leader := none
  arrays := Vector.replicate 4 ArrayUnit.reset
  banks := []
  banksFree := none
  streams := Vector.replicate 4 Stream.reset
  gens := []
  readq := []
  lastRead := .svc
  vecq := []
  mover := []
  nextId := 0
  change := none
  lastIssue := .svc

/-- A die whose domain is off (R33). -/
def Die.reset : Die where
  st := .off
  on := false
  arrValid := 0
  arrFeed := 0
  arrDrain := 0
  arrThrottle := 0
  arrFiller := 0
  seqLastFault := 0
  seqInstr := 0
  seqFault := 0
  engBytes := 0
  acctProg := 0
  acctGather := 0
  cowBase := 0
  cowSize := 0
  scrubHours := 0
  meshReqMax := 0
  meshRspMax := 0
  meshReq := 0
  meshRsp := 0
  meshCombined := 0
  meshBad := 0
  barMask := []
  rspSeen := []
  spares := []
  pending := []
  due := []
  remapBad := []
  remapCnt := 0

/-- A stack that is off (R33, R247). -/
def StackUnit.reset : StackUnit where
  st := .off
  ue := 0
  ce := 0
  rowsSpared := 0
  pagesRetired := 0
  repairs := []
  redirects := []
  scrubLine := 0
  corrected := []
  correctedPrev := []
  scrubRun := none

/-- A die-link end before training (R274, R289). -/
def LinkEnd.reset : LinkEnd where
  tstate := 0
  attempt := 0
  cause := 0
  mask := 0
  peerMask := 0
  exclude := 0
  passed := 0
  allowed := 0
  peerIn := 0
  second := false
  bundles := []
  rxEseqReq := 0
  rxEseqRsp := 0
  held := []
  owedReq := 0
  owedRsp := 0
  txEseqReq := 0
  txEseqRsp := 0
  crReq := 0
  crRsp := 0
  txWait := []
  requeue := []
  streamReq := []
  streamRsp := []
  wire := []
  cntFlits := 0
  cntCrc := 0
  cntReplay := 0
  cntTrain := 0

/-- The guard after reset (R166). -/
def Guard.reset : Guard where
  tableBase := 0
  en := false
  logBase := 0
  logRecs := 1048576
  untrkElems := 0
  untrkSat := 0
  untrkNonfin := 0
  cfg := []
  rejected := 0
  acc := []
  log := []
  bare := []

/-- The update block after reset (R200). -/
def Upd.reset : Upd where
  phase := 0
  areaBase := 0
  stateBase := 0
  refreshBase := 0
  refreshClusters := 8
  digestLo := 0
  digestHi := 0
  digestEpoch := 0
  norm := 0
  cntBytes := 0
  cntSkipped := 0
  cntDone := 0
  ccActive := false
  rejected := 0
  load := none
  groups := []
  gstate := []
  tensors := []
  pass := none
  passHad := false
  kNew := []
  refreshing := []
  history := []

/-- The exchange block after reset (R241). -/
def Exch.reset : Exch where
  layout := 0
  groupBase := 0
  tensorBase := 0
  bufBase := 0
  bufSize := 0
  logBase := 0
  logSize := 0
  cntTx := 0
  cntRx := 0
  cntStale := 0
  cntDup := 0
  cntNonfin := 0
  ops := []
  early := []
  log := []
  past := []

/-- The package memory block after reset (R265). -/
def MemBlk.reset : MemBlk where
  epoch := 0
  failed := false
  hold := false
  stepOn := false
  cntHeld := 0
  cntCow := 0

/-- An XADDR of zeros. -/
def XAddr.zero : XAddr := ⟨0, 0, 0, 0⟩

/-- The checkpoint block after reset (R385). -/
def Ckpt.reset : Ckpt where
  lastStatus := 0
  baseValid := false
  baseEpoch := 0
  baseLoc := XAddr.zero
  baseManifest := 0
  baseNreg := 0
  baseCc := false
  baseLen := 0
  baseRefreshing := []
  cntBytes := 0
  cntCaptures := 0
  capture := none
  restore := none
  replaying := none
  captured := []
  fetched := []

/-- A barrier channel that is not armed (R285). -/
def Barrier.reset : Barrier where
  phase := false
  arrived := []
  waiting := []
  armed := none
  collective := false
  collectiveDone := false
  disarming := false
  deferred := none

/-- The sync block after reset (R334). -/
def Sync.reset : Sync where
  tableBase := 0
  pollNs := 2000
  cntOps := 0
  cntRetry := 0
  cntUnderflow := 0
  cntOrphan := 0
  waiters := []
  monitors := []
  index := []
  orphans := []
  barriers := Vector.replicate 16 Barrier.reset
  cntRelease := 0

/-- A fabric port after reset (R316). -/
def Port.reset : Port where
  lineNext := 0xFF
  line := 7
  dateline := false
  raw := false
  ethRate := 1
  mode := 1
  lanes := 0
  fecStd := false
  downCause := 0
  pstate := 0
  peerPart := 0
  peerPort := 0xFF
  peerIncarn := 0
  peerId := 0xFFFF
  asym := 0
  txPkts := 0
  rxPkts := 0
  txBytes := 0
  rxBytes := 0
  fecCorr := 0
  fecUncorr := 0
  fecRun := false
  crc := 0
  replayCnt := 0
  train := 0
  qmaxReq := 0
  qmaxRsp := 0
  stallReq := 0
  stallRsp := 0
  ethMac := 0
  ethIpLo := 0
  ethIpHi := 0
  ethQp := 0
  ethUp := false
  identIn := false
  retryAt := none
  overran := false
  rxExpect := 0
  nakOut := false
  nakOwed := false
  ackOwed := false
  nakFrom := none
  txNext := 0
  replay := []
  outq := []
  turn := 0
  credits := Vector.replicate 4 0
  rxStream := Vector.replicate 4 []
  rxPart := Vector.replicate 4 []
  rxFt := Vector.replicate 4 0
  rxAt := Vector.replicate 4 0
  rxCount := 0
  rxHeld := []
  owed := Vector.replicate 4 0
  wire := []
  tseq := 0
  txStamp := 0
  prevTxStamp := 0
  rxLast := 0
  rseq := 0
  offset := none
  txLine := 0
  prevTxLine := 0
  rxLine := 0
  offLine := 0
  ethPause := 0
  ethWait := []
  qpSent := []

/-- The fabric package block after reset (R315). -/
def Fab.reset : Fab where
  e2eAll := true
  fwdEn := false
  en := false
  routeBase := 0
  peerBase := 0
  flowBase := 0
  toService := 1000
  toE2e := 50
  tries := 12
  incarn := 0
  incarnAt := 0
  cntNoroute := 0
  cntResend := 0
  cntDup := 0
  cntEcrc := 0
  cntStale := 0
  cntUnreach := 0
  cntBad := 0
  txns := []
  waitq := []
  nextTag := 0
  sends := []
  recvs := []
  ports := Vector.replicate 24 Port.reset
  inbox := []
  acks := []
  twinAlt := false
  eth := []
  ethOut := []

/-- The command block after reset (R364). -/
def Cmd.reset : Cmd where
  udpPort := 19416
  progressMs := 10
  sliceNs := 20000
  ip := Vector.replicate 4 0
  cntRx := 0
  cntDiscard := 0
  cntAuthFail := 0
  cntDup := 0
  cntBusy := 0
  queue := []
  ready := []
  held := []
  schedule := []
  nextEntry := 0
  partials := []
  longs := []
  nextLong := 0
  waits := []
  sessions := []
  gens := []
  nonces := []
  eventNo := 0
  events := []
  sent := []
  mgtOut := []
  authFails := []

/-- The twin block after reset (R384). -/
def Twin.reset : Twin where
  peerId := 0xFFFF
  mark := 0
  cause := 0
  st := 0
  digestToMs := 50
  hbLimitUs := 10000
  orig := 0
  peer := 0
  epoch := 0
  logBase := 0
  logSize := 0
  cntMatch := 0
  cntMismatch := 0
  cntReplay := 0
  cntHbLost := 0
  own := none
  held := none
  lastMsg := 0
  hbAt := 0
  waitFrom := none
  joinIn := none
  joinAt := 0
  ownReplay := none
  peerReplay := none
  replaySent := false
  log := []
  sent := []

/-- The security block of a part as delivered: a device identity key, no credential, empty flash (R389, R409). -/
def Cob.reset : Cob where
  credLast := 0
  creds := []
  ordinals := []
  chal := 0
  cntDenied := 0
  ctrs := []
  accSel := 0
  table := []
  mr := []
  keyHashes := []
  revoked := 0
  rma := false
  dikPresent := true
  provOk := true
  debug := false
  keyslot := 0
  bootSlot := false
  build := 0
  commitSvn := false
  svns := []
  flash := []
  staging := none

/-- The power block after reset (R427). -/
def Power.reset : Power where
  wakeLast := 0
  excursion := false
  thermThr := false
  envThr := false
  mode := 0
  st := 0
  entering := none
  exiting := false
  deferredRun := none
  next := []
  latched := none
  levels := 0
  slew := 150
  floor := 0
  target := 3400
  vinMv := 0
  p100 := 0
  limit := 0
  low := 0
  floorMet := false
  floorRises := false
  samples := 0
  sampleSum := 0
  energyUj := 0
  filler := false
  wakeCfg := 5
  wakeFt := 0
  wakeArmed := false
  temps := { cd := [0, 0, 0, 0], iod := 0, stackHot := 0 }
  thermWarn := 95
  cntEnergy := 0
  cntIfEnergy := 0
  cntEnvThr := 0
  cntThermThr := 0
  cntExcursion := 0
  lastExcursion := none
  excursionEnd := 0
  vinBad := false
  tripped := false
  modeTo := none
  clockStopped := false
  ramp := none
  buffer := []

/-- The boot block after reset (R437): stage 1, and the boot record of log entry 1. -/
def Boot.reset : Boot where
  stage := 1
  fail := 0
  warn := 0
  active := false
  lastGood := false
  trial := false
  tries := 0
  ftStart := 0
  ftReg := 0
  complete := false
  fromDark := false
  annSeq := 0
  since := 0
  annAt := Vector.replicate 2 0
  anns := []

/-- The I3C target after reset (R446, R447). -/
def I3c.reset : I3c where
  address := none
  ibiEn := false
  result := 0
  buffer := []
  image := none
  readData := []
  ibis := []
  ids := []

/-- The test access port after reset, and the pins: PWR_EN low, RESET_N high (R429, R454). -/
def Tap.reset : Tap where
  ir := 0x02
  landsTaken := false
  testIod := false
  shifted := []
  cells := []
  tdo := []
  token := []
  pwrEn := false
  resetN := true
  alert := false
  mgtUp := Vector.replicate 2 false

/-- Nothing listed: every byte of memory reads 0 (R247, R430). -/
def Mem.reset : Mem := { cells := [], vague := [], spoiled := [] }

/-- The package right after reset: stage 1 of R430, no command waiting. -/
def State.reset : State where
  pending := []
  fresh := 0
  mem := Mem.reset
  poison := []
  pkgId := 0xFFFF
  inv := Invar.reset
  clusters := []
  dies := Vector.replicate 4 Die.reset
  stk := Vector.replicate 16 StackUnit.reset
  links := Vector.replicate 8 (LinkEnd.reset, LinkEnd.reset)
  waitingReqs := []
  openReqs := []
  meshLost := []
  meshLate := []
  iodSeen := []
  guard := Guard.reset
  upd := Upd.reset
  exch := Exch.reset
  memblk := MemBlk.reset
  ckpt := Ckpt.reset
  sync := Sync.reset
  fab := Fab.reset
  cmd := Cmd.reset
  twin := Twin.reset
  cob := Cob.reset
  power := Power.reset
  boot := Boot.reset
  i3c := I3c.reset
  tap := Tap.reset
  savedGens := []
  lastStatus := .done

end Sys2Proof.Machine
end

