-- ==== Sys2Proof/Machine/Mem.lean ====
section
/-! DEFINITION. The address map (R16, R28, R29, R246), the memory of stacks and stores as one canonical list of bytes,
poison (R249) and copy-on-write under capture (R260). Addresses are numbers once they are used to reach memory. -/

namespace Sys2Proof.Machine

/-! ### The list of bytes -/

/-- The byte at a key; `d` says what an unlisted one reads as, which is 0 but in the package's own memory. -/
def Memory.read (m : List Host.Cell) (k : Nat) (d : Nat → Byte := fun _ => 0) : Byte :=
  match m with
  | [] => d k
  | (j, b) :: t => if j = k then b else Memory.read t k d

/-- The list with the byte at a key removed. -/
def Memory.erase (m : List Host.Cell) (k : Nat) : List Host.Cell := m.filter (fun c => decide (c.1 ≠ k))

/-- The list with a byte at a key. -/
def Memory.insert (m : List Host.Cell) (k : Nat) (v : Byte) : List Host.Cell :=
  match m with
  | [] => [(k, v)]
  | (j, b) :: t => if j = k then (k, v) :: t else if k < j then (k, v) :: (j, b) :: t
    else (j, b) :: Memory.insert t k v

/-- The list with the byte at a key written: writing what an unlisted one reads as removes the entry. -/
def Memory.write (m : List Host.Cell) (k : Nat) (v : Byte) (d : Nat → Byte := fun _ => 0) : List Host.Cell :=
  if v = d k then Memory.erase m k else Memory.insert m k v

/-- Keys rise from a bound and no listed byte is what an unlisted one reads as. -/
def Memory.wfFrom (d : Nat → Byte) (lo : Nat) : List Host.Cell → Bool
  | [] => true
  | (k, v) :: t => decide (lo ≤ k) && decide (v ≠ d k) && Memory.wfFrom d (k + 1) t

/-- The canonical form of memory: keys strictly rising, no byte equal to what an unlisted key reads as. -/
def Memory.wf (m : List Host.Cell) (d : Nat → Byte := fun _ => 0) : Bool := Memory.wfFrom d 0 m

/-- Bytes written at consecutive keys. -/
def Memory.writeRange (m : List Host.Cell) (k : Nat) : List Byte → List Host.Cell
  | [] => m
  | b :: t => Memory.writeRange (Memory.write m k b) (k + 1) t

/-- The list with every key of a range removed. -/
def Memory.clear (m : List Host.Cell) (lo hi : Nat) : List Host.Cell :=
  m.filter (fun c => decide (c.1 < lo) || decide (hi ≤ c.1))

/-! ### The address map -/

/-- Bytes of one stack: 96 GiB (R28). -/
def stackLen : Nat := 0x1800000000
/-- End of the linear view (R28). -/
def linearEnd : Nat := 0x18000000000
/-- Base of the interleaved views (R16). -/
def viewBase : Nat := 0x080000000000
/-- Distance of two interleaved views (R28). -/
def viewStride : Nat := 0x8000000000
/-- Bytes of one interleaved view: 384 GiB (R28). -/
def viewLen : Nat := 0x6000000000
/-- Base of the cluster stores (R16). -/
def storeBase : Nat := 0x100000000000
/-- Distance of two cluster stores (R28). -/
def storeStride : Nat := 0x400000
/-- Offset of the accumulation store (R28). -/
def accOffset : Nat := 0x300000
/-- End of the mapped part of a cluster's 4 MiB (R28). -/
def storeEnd : Nat := 0x340000
/-- Base of control register space (R16). -/
def ctrlBase : Nat := 0x300000000000
/-- First stack offset of the stack reserve (R245). -/
def reserveAt : Nat := 0x17FC000000

/-- Where a local address lies. -/
inductive Place where
  | stack (k off : Nat)
  | store (n off : Nat)
  | ctrl (block off : Nat)
  | unmapped
  deriving DecidableEq, Repr

/-- The control blocks that R457 and R458 list. -/
def listedBlock (b : Nat) : Bool :=
  (b < 0x20 && b % 4 == 0) || (decide (0x20 ≤ b) && decide (b < 0x38)) ||
  (decide (0x38 ≤ b) && decide (b ≤ 0x50) && b % 4 == 0) ||
  (decide (0x100 ≤ b) && decide (b ≤ 0x4FF) && b % 16 == 0 && decide (0x10 ≤ b % 256) && decide (b % 256 ≤ 0x60))

/-- Where a local address lies (R16, R28, R246, R459). -/
def place (a : Nat) : Place :=
  if a < linearEnd then .stack (a / stackLen) (a % stackLen)
  else if viewBase ≤ a ∧ a < viewBase + 4 * viewStride then
    let k := (a - viewBase) / viewStride
    let o := (a - viewBase) % viewStride
    if o < viewLen then .stack (4 * k + bits o 13 12) ((o / 0x4000) * 0x1000 + o % 0x1000) else .unmapped
  else if storeBase ≤ a ∧ a < storeBase + 4096 * storeStride then
    let o := (a - storeBase) % storeStride
    if o < storeEnd then .store ((a - storeBase) / storeStride) o else .unmapped
  else if ctrlBase ≤ a ∧ a < ctrlBase + 0x500 * 0x10000 then
    let b := (a - ctrlBase) / 0x10000
    if listedBlock b then .ctrl b ((a - ctrlBase) % 0x10000) else .unmapped
  else .unmapped

/-- The key of a place in memory: the linear address, or the address of a store. -/
def Place.key : Place → Nat
  | .stack k o => k * stackLen + o
  | .store n o => storeBase + n * storeStride + o
  | .ctrl b o => ctrlBase + b * 0x10000 + o
  | .unmapped => 0

/-- The key of a local address. -/
def keyOf (a : Nat) : Nat := (place a).key

/-- A range of local addresses meets the stack reserve, in the linear view or in an interleaved one (R245). -/
def meetsReserve (a n : Nat) : Bool :=
  if a < linearEnd then decide (reserveAt < a % stackLen + n)
  else decide (viewBase ≤ a) && decide (0x5FF0000000 < (a - viewBase) % viewStride + n)

/-- The die that serves a place; none is the I/O die (R29). -/
def Place.die : Place → Option Nat
  | .stack k _ => some (k / 4)
  | .store n _ => some (n / 1024)
  | .ctrl b _ => if b < 0x100 then none else some (b / 0x100 - 1)
  | .unmapped => none

/-- Whether a place lies in stack memory or a store. -/
def Place.isMem : Place → Bool
  | .stack _ _ => true
  | .store _ _ => true
  | _ => false

/-- Whether a place lies in a stack. -/
def Place.isStack : Place → Bool
  | .stack _ _ => true
  | _ => false

/-- The linear line number of an address in stack memory (R244). -/
def lineOf (a : Nat) : Option Nat :=
  match place a with
  | .stack k o => some ((k * stackLen + o) / 64)
  | _ => none

/-- The address in its die's interleaved view of a stack offset: die and offset in the view (the inverse of R246). -/
def viewOf (k o : Nat) : Nat × Nat := (k / 4, (o / 0x1000) * 0x4000 + (k % 4) * 0x1000 + o % 0x1000)

/-- The start of each piece of a range that no 4 KiB boundary cuts: each lies in one place. -/
def pages (a len : Nat) : List Nat :=
  if len = 0 then [] else
    a :: (List.range ((a + len - 1) / 0x1000 - a / 0x1000)).map (fun i => (a / 0x1000 + i + 1) * 0x1000)

/-- Whether every byte of a range is mapped (R30). -/
def mapped (a len : Nat) : Bool := (pages a len).all (fun p => place p != .unmapped)

/-! ### Bytes of the package -/

/-- What an unlisted byte reads as: 0 (R247, R430), or a free value where the contents are undefined (R190, R192, R218; log
entry 3). -/
def Mem.unlisted (m : Mem) (k : Nat) : Byte :=
  if storeBase ≤ k then
    let o := (k - storeBase) % storeStride
    if 0x200000 ≤ o ∧ o < storeEnd then
      match look m.spoiled ((k - storeBase) / storeStride) with
      | some f => Config.freeByte f k
      | none => 0
    else 0
  else match m.vague.find? (fun v => decide (v.lo ≤ k) && decide (k < v.stop)) with
    | some v => Config.freeByte v.f k
    | none => 0

/-- The byte at a key. -/
def Mem.read (m : Mem) (k : Nat) : Byte := Memory.read m.cells k m.unlisted

/-- Memory with the byte at a key written. -/
def Mem.write (m : Mem) (k : Nat) (v : Byte) : Mem := { m with cells := Memory.write m.cells k v m.unlisted }

/-- Memory is in its canonical form. -/
def Mem.wf (m : Mem) : Bool := Memory.wf m.cells m.unlisted

/-- The runs without defined values, apart from a range. -/
def cutVague (l : List Vague) (lo stop : Nat) : List Vague :=
  (l.flatMap (fun v => [{ v with stop := min v.stop lo }, { v with lo := max v.lo stop }])).filter (fun v => decide (v.lo < v.stop))

/-- Stack memory from one linear address to another holds 0. -/
def Mem.clearStack (m : Mem) (lo stop : Nat) : Mem :=
  { m with cells := Memory.clear m.cells lo (min stop storeBase), vague := cutVague m.vague lo stop }

/-- The stores of the clusters from number `lo` to below `stop` hold 0. -/
def Mem.clearStores (m : Mem) (lo stop : Nat) : Mem :=
  { m with cells := Memory.clear m.cells (storeBase + lo * storeStride) (storeBase + stop * storeStride)
           spoiled := m.spoiled.filter (fun e => decide (e.1 < lo) || decide (stop ≤ e.1)) }

/-- Stack memory from one linear address to another holds no defined value. -/
def Mem.spoilStack (m : Mem) (lo stop f : Nat) : Mem :=
  let c := m.clearStack lo stop
  { c with vague := { lo := lo, stop := stop, f := f } :: c.vague }

/-- The part of a cluster's stores that panel service and refreshes use holds no defined value (R190, R192). -/
def Mem.spoilStore (m : Mem) (n f : Nat) : Mem :=
  { m with cells := Memory.clear m.cells (storeBase + n * storeStride + 0x200000) (storeBase + n * storeStride + storeEnd)
           spoiled := put m.spoiled n f }

/-- The byte at a local address of memory. -/
def rdByte (s : State) (a : Nat) : Byte := s.mem.read (keyOf a)

/-- `n` bytes from a local address. -/
def rdBytes (s : State) (a n : Nat) : List Byte := (List.range n).map (fun i => rdByte s (a + i))

/-- A little-endian number of `n` bytes at a local address (R11). -/
def rdNat (s : State) (a n : Nat) : Nat := leNat (rdBytes s a n)

/-- The linear lines that a range of local addresses touches. -/
def linesOf (a n : Nat) : List Nat :=
  ((pages a n).flatMap (fun p =>
    match place p with
    | .stack k o =>
      let lo := k * stackLen + o
      let stop := min (a + n) ((p / 0x1000 + 1) * 0x1000)
      (List.range ((lo + (stop - p) - 1) / 64 - lo / 64 + 1)).map (fun i => lo / 64 + i)
    | _ => []))

/-- Whether a range touches a poisoned line (R249). -/
def poisoned (s : State) (a n : Nat) : Bool := (linesOf a n).any (fun l => s.poison.contains l)

/-- The poisoned lines that a write of a range covers only in part (R249). -/
def partialPoison (s : State) (a n : Nat) : Bool :=
  s.poison.any (fun l =>
    (linesOf a n).contains l &&
    !((List.range 64).all (fun i => (List.range n).any (fun j => keyOf (a + j) == 64 * l + i))))

/-- The key of a capture block: die and 64 KiB block of its interleaved view (R260). -/
def blockKey (d b : Nat) : Nat := d * 2 ^ 32 + b

/-- The bytes of a 64 KiB block of a die's interleaved view. -/
def blockAddr (d b : Nat) : Nat := viewBase + d * viewStride + b * 0x10000

/-- The blocks of the interleaved views that a range of local addresses touches. -/
def blocksOf (a n : Nat) : List Nat :=
  ((pages a n).filterMap (fun p =>
    match place p with
    | .stack k o => let v := viewOf k o; some (blockKey v.1 (v.2 / 0x10000))
    | _ => none)).dedup

/-- Pool blocks of a die in use by a capture. -/
def poolUsed (c : Capture) (d : Nat) : List Nat :=
  c.blocks.filterMap (fun e => match e.2 with
    | .copied p => if e.1 / 2 ^ 32 = d then some p else none
    | _ => none)

/-- The address of a pool block of a die (R261). -/
def poolAddr (s : State) (d p : Nat) : Nat := (vgetD s.dies d Die.reset).cowBase.toNat + p * 0x10000

/-- The raw bytes of memory written at a local address, whatever a capture or poison says. -/
def pokeBytes (s : State) (a : Nat) (bs : List Byte) : State :=
  { s with mem := (List.range bs.length).foldl (fun m i => m.write (keyOf (a + i)) (bs.getD i 0)) s.mem }

/-- Poison of the lines of one range carried to the lines of another of the same length, both 64-byte aligned. -/
def carryPoison (s : State) (src dst n : Nat) : State :=
  let pairs := (List.range (n / 64)).filterMap (fun i =>
    match lineOf (src + 64 * i), lineOf (dst + 64 * i) with
    | some l, some m => some (l, m)
    | _, _ => none)
  { s with poison := pairs.foldl (fun p (l, m) =>
      if s.poison.contains l then insertNat p m else p.filter (· != m)) s.poison }

/-- The checkpoint engine reads a block, from the pool copy of a COPIED one or in place, and the block takes the state
`st` (R260): `done`, or `taken` while its bytes are still to be sent. A poisoned read marks the capture (R250). -/
def captureBlock (s : State) (key : Nat) (st : BlockState := .done) : State :=
  match s.ckpt.capture with
  | none => s
  | some c =>
    let from? := match lookD c.blocks key .uncaptured with
      | .uncaptured => some (blockAddr (key / 2 ^ 32) (key % 2 ^ 32))
      | .copied p => some (poolAddr s (key / 2 ^ 32) p)
      | _ => none
    match from? with
    | none => s
    | some a => { s with ckpt := { s.ckpt with capture := some { c with
        blocks := put c.blocks key st
        bad := c.bad || poisoned s a 0x10000
        image := Memory.writeRange c.image (key * 0x10000) (rdBytes s a 0x10000) } } }

/-- Copy-on-write of one UNCAPTURED block: its four quarters are copied into a free pool block (R260). When the pool
is full the checkpoint engine takes a COPIED block first (R261), whose bytes it sends afterwards. -/
def cowBlock (s : State) (key : Nat) : State :=
  match s.ckpt.capture with
  | none => s
  | some c =>
    if look c.blocks key ≠ some .uncaptured then s else
    let d := key / 2 ^ 32
    let size := (vgetD s.dies d Die.reset).cowSize.toNat
    let s1 := if (poolUsed c d).length < size then s else
      match (c.blocks.find? (fun e => e.1 / 2 ^ 32 = d && (match e.2 with | .copied _ => true | _ => false))) with
      | some e => captureBlock s e.1 .taken
      | none => s
    match s1.ckpt.capture with
    | none => s1
    | some c1 =>
      match (List.range size).find? (fun p => !(poolUsed c1 d).contains p) with
      | none => s1
      | some p =>
        let src := blockAddr d (key % 2 ^ 32)
        let s2 := carryPoison (pokeBytes s1 (poolAddr s1 d p) (rdBytes s1 src 0x10000)) src (poolAddr s1 d p) 0x10000
        { s2 with ckpt := { s2.ckpt with capture := some { c1 with blocks := put c1.blocks key (.copied p)
                                                                   cow := c1.cow + 1
                                                                   bytes := c1.bytes } }
                  memblk := { s2.memblk with cntCow := satAdd s2.memblk.cntCow 1 } }

/-- Copy-on-write of every block that a write of a range touches (R260). -/
def cowRange (s : State) (a n : Nat) : State :=
  match s.ckpt.capture with
  | none => s
  | some _ => (blocksOf a n).foldl cowBlock s

/-- A write of bytes at a local address of memory, all checks passed: copy-on-write first (R260); a full-line write
clears poison, and a partial write leaves a poisoned line poisoned and as it was (R249). -/
def wrBytes (s : State) (a : Nat) (bs : List Byte) : State :=
  let s1 := cowRange s a bs.length
  if s1.poison.isEmpty then pokeBytes s1 a bs else
  let keys := (List.range bs.length).map (fun i => keyOf (a + i))
  let full := s1.poison.filter (fun l => (List.range 64).all (fun i => keys.contains (64 * l + i)))
  let stay := s1.poison.filter (fun l => !full.contains l)
  { s1 with
    mem := (List.range bs.length).foldl (fun m i =>
      let k := keyOf (a + i)
      if (place (a + i)).isStack && stay.contains (k / 64) then m else m.write k (bs.getD i 0)) s1.mem
    poison := stay }

/-- A number of `n` bytes written at a local address (R11). -/
def wrNat (s : State) (a n v : Nat) : State := wrBytes s a (leBytes n v)

/-- The lines that a range touches become poisoned (R249): a write, before which their blocks are copied (R260). -/
def poisonRange (s : State) (a n : Nat) : State :=
  let s1 := cowRange s a n
  { s1 with poison := (linesOf a n).foldl insertNat s1.poison }

/-- The address of cluster `n`'s store at an offset. -/
def storeAddr (n off : Nat) : Nat := storeBase + n * storeStride + off

/-! ### Nested updates -/

/-- Cluster `n` (R54); one that nothing has touched is as stage 5 leaves it. -/
def cluster (s : State) (n : Nat) : Cluster := lookD s.clusters n Cluster.reset

/-- The state with a cluster changed. -/
def modCluster (s : State) (n : Nat) (f : Cluster → Cluster) : State :=
  { s with clusters := put s.clusters n (f (cluster s n)) }

/-- The number of a context (R110). -/
def ctxIdx : Ctx → Fin 4
  | .fwd => 0
  | .bin => 1
  | .bwt => 2
  | .svc => 3

/-- The context of a number (R110). -/
def ctxOf (i : Nat) : Ctx :=
  match i % 4 with
  | 0 => .fwd
  | 1 => .bin
  | 2 => .bwt
  | _ => .svc

/-- A stream context of a cluster. -/
def stream (s : State) (n : Nat) (c : Ctx) : Stream := (cluster s n).streams[ctxIdx c]

/-- The state with a stream context changed. -/
def modStream (s : State) (n : Nat) (c : Ctx) (f : Stream → Stream) : State :=
  modCluster s n (fun k => { k with streams := k.streams.set (ctxIdx c) (f k.streams[ctxIdx c]) })

/-- The stream number of a context (R110). -/
def streamNo (n : Nat) (c : Ctx) : Nat := 4 * n + (ctxIdx c).val

/-- The state with an array of a cluster changed. -/
def modArray (s : State) (n : Nat) (a : Fin 4) (f : ArrayUnit → ArrayUnit) : State :=
  modCluster s n (fun k => { k with arrays := k.arrays.set a (f k.arrays[a]) })

/-- The state with a die changed. -/
def modDie (s : State) (d : Nat) (f : Die → Die) : State := { s with dies := vmod s.dies d f }

/-- The state with a stack changed. -/
def modStack (s : State) (k : Nat) (f : StackUnit → StackUnit) : State := { s with stk := vmod s.stk k f }

/-- The state with a port changed. -/
def modPort (s : State) (p : Nat) (f : Port → Port) : State :=
  { s with fab := { s.fab with ports := vmod s.fab.ports p f } }

/-- A die. -/
def die (s : State) (d : Nat) : Die := vgetD s.dies d Die.reset

/-- A stack. -/
def stackUnit (s : State) (k : Nat) : StackUnit := vgetD s.stk k StackUnit.reset

/-- A port. -/
def port (s : State) (p : Nat) : Port := vgetD s.fab.ports p Port.reset

/-- Fabric Time now, as a number (R36). -/
def now (s : State) : Nat := s.inv.ft.toNat

/-- The ns that ISL has been powered: what the durations of the rules are counted on (log entry 2). -/
def clk (s : State) : Nat := s.inv.clk.toNat

/-- A global fabric address that the package serves itself (R32): its local address. -/
def localOf (s : State) (g : W64) : Option Nat :=
  let id := g.toNat / 2 ^ 48
  if s.pkgId ≠ 0xFFFF ∧ id = s.pkgId.toNat then some (g.toNat % 2 ^ 48) else none

/-- The counter of free values moved on. -/
def useFresh (s : State) (k : Nat) : State := { s with fresh := s.fresh + k }

end Sys2Proof.Machine
end

