-- ==== Sys2Proof/Machine/CmdParse.lean ====
section
/-! DEFINITION. The commands of R354 to R363 as messages: their opcodes, scopes, parameter lengths, and the rows that their
parameters spell. -/

namespace Sys2Proof.Machine

/-! ### Opcodes, scopes and lengths (R344 steps 5 and 6) -/

/-- PARAM_LEN of the commands whose length is fixed (R354 to R363). -/
def cmdLengths : List (Nat × Nat) :=
  [(0x0101, 6235), (0x0102, 0), (0x0103, 36), (0x0104, 1568), (0x0201, 12), (0x0203, 20), (0x0205, 56), (0x0206, 32),
   (0x0301, 20), (0x0302, 80), (0x0303, 0), (0x0304, 8), (0x0305, 40), (0x0401, 8), (0x0402, 8), (0x0403, 16),
   (0x0405, 64), (0x0406, 24), (0x0407, 16)] ++
  [(0x0501, 24), (0x0502, 24), (0x0503, 8), (0x0504, 8), (0x0505, 0), (0x0601, 40), (0x0602, 40), (0x0603, 8), (0x0604, 0),
   (0x0605, 8), (0x0606, 8), (0x0607, 16), (0x0608, 8), (0x0701, 8), (0x0702, 8), (0x0703, 16), (0x0801, 16), (0x0802, 8),
   (0x0901, 8), (0x0902, 8), (0x0903, 8), (0x0A01, 8), (0x0A02, 8), (0x0A03, 8)]

/-- PARAM_LEN that a command states for its parameters; none for an opcode that no rule defines. -/
def cmdLength (op : Nat) (p : List Byte) : Option Nat :=
  match op with
  | 0x0202 => some (16 + 8 * leAt p 8 4)
  | 0x0204 => some (24 + leAt p 16 4)
  | 0x0506 => some (if leAt p 0 1 = 0 then 96 + leAt p 68 4 else 32)
  | 0x0803 => some (8 + 16 * leAt p 3 1)
  | _ => (cmdLengths.find? (fun e => e.1 == op)).map (·.2)

/-- The commands of scope S (R356): STREAM names the stream acted on. -/
def scopeStream (op : Nat) : Bool := op == 0x0302 || op == 0x0303 || op == 0x0304

/-- STREAM is of the scope that the command takes, and within range (R338, R353). -/
def scopeOk (op : Nat) (stream : W16) : Bool := if scopeStream op then decide (stream.toNat < 0x4000) else stream == 0xFFFF

/-- The read class (R343). -/
def readClass (op : Nat) : Bool :=
  op == 0x0103 || op == 0x0201 || op == 0x0203 || op == 0x0304 || op == 0x0505 || op == 0x0608 || op == 0x0901

/-! ### Parameters -/

/-- A byte of parameters. -/
def parByte (p : List Byte) (o : Nat) : Byte := BitVec.ofNat 8 (leAt p o 1)
/-- A 16-bit parameter. -/
def par16 (p : List Byte) (o : Nat) : W16 := BitVec.ofNat 16 (leAt p o 2)
/-- A 32-bit parameter. -/
def par32 (p : List Byte) (o : Nat) : W32 := BitVec.ofNat 32 (leAt p o 4)
/-- A 64-bit parameter. -/
def par64 (p : List Byte) (o : Nat) : W64 := BitVec.ofNat 64 (leAt p o 8)
/-- An XADDR (R353). -/
def parX (p : List Byte) (o : Nat) : XAddr :=
  { addr := par64 p o, kind := parByte p (o + 8), port := parByte p (o + 9), qp := parByte p (o + 10) }

/-- The parameters of EXCHANGE_START (R357). -/
def parEx (p : List Byte) : ExParams :=
  { opId := par32 p 0, kind := parByte p 4, group := parByte p 5, mode := parByte p 6, etype := parByte p 7, k := par16 p 8,
    root := par16 p 10, layout := par32 p 12, tfirst := par32 p 16, tcount := par32 p 20, src := par64 p 24, dst := par64 p 32,
    len := par64 p 40, caddr := par64 p 48, cval := par64 p 56 }

/-- The row of a command of groups 0x01 to 0x03, with `n` units of work in its first slice; none where a field holds a reserved
value. -/
def parseLow (q : QCmd) (n : Nat) : Option Instr :=
  let p := q.params
  let h := q.hdr
  match q.opcode.toNat with
  | 0x0101 => some (.sessionOpen h q.wc q.raw q.tag (par64 p 0) (slice p 8 1568) (slice p 1576 32) (slice p 1608 4627))
  | 0x0102 => some (.sessionClose h)
  | 0x0103 => some (.attest h (slice p 0 32) (par32 p 32))
  | 0x0104 => some (.keyRotate h (slice p 0 1568))
  | 0x0201 => some (.regRead h (par64 p 0) (par32 p 8))
  | 0x0202 => some (.regWrite h (par64 p 0) (par32 p 8) ((List.range (min (leAt p 8 4) 8000)).map (fun i => par64 p (16 + 8 * i))))
  | 0x0203 => some (.memRead h (parX p 0) (par32 p 16))
  | 0x0204 => some (.memWrite h (parX p 0) (par32 p 16) (p.drop 24))
  | 0x0205 => some (.memCopy h (parX p 0) (parX p 16) (par64 p 32) (par64 p 40) (par64 p 48) n)
  | 0x0206 => some (.memFill h (parX p 0) (par64 p 16) (par64 p 24) n)
  | 0x0301 => some (.programLoad h (par64 p 0) (par32 p 8) (par32 p 12) (par16 p 16) (par16 p 18) n)
  | 0x0302 => some (.streamStart h (parByte p 0) (par16 p 4) (par16 p 8) (par16 p 10) (par32 p 12)
      ((List.range 8).map (fun i => par64 p (16 + 8 * i))))
  | 0x0303 => some (.streamStop h)
  | 0x0304 => some (.streamStatus h (par16 p 0))
  | 0x0305 => some (.seedSet h (slice p 0 32) (par16 p 32) (par16 p 34) (parByte p 36) n)
  | _ => none

/-- The row of a SYNC_OP (R321, R358). -/
def parseSync (h : CmdHdr) (p : List Byte) : Option Instr :=
  let a := par64 p 0
  let v : Addr48 := BitVec.ofNat 48 (leAt p 8 4 + 2 ^ 32 * leAt p 12 2)
  match bits (leAt p 12 4) 31 28 with
  | 0 => some (.syncOpAdd h a v)
  | 1 => some (.syncOpDec h a v)
  | 2 => some (.syncOpTake h a)
  | 3 => some (.syncOpWait h a v)
  | 4 => some (.syncOpMonitor h a v (par64 p 16))
  | _ => none

/-- The row of a command of groups 0x04 to 0x06. -/
def parseMid (q : QCmd) : Option Instr :=
  let p := q.params
  let h := q.hdr
  match q.opcode.toNat with
  | 0x0401 => some (.stepBegin h (par64 p 0))
  | 0x0402 => some (.stepCommit h (par64 p 0))
  | 0x0403 => some (.updateRun h (par32 p 0) (par32 p 4) (parByte p 8) (parByte p 9))
  | 0x0405 => some (.exchangeStart h (parEx p))
  | 0x0406 => some (.groupTableLoad h (par64 p 0) (par64 p 8) (par32 p 16))
  | 0x0407 => some (.precondRefresh h (par16 p 0) (par64 p 8))
  | 0x0501 => some (.syncInit h (par64 p 0) (par64 p 8) (par16 p 16))
  | 0x0502 => parseSync h p
  | 0x0503 =>
    (match (parByte p 2).toNat with
     | 0 => some (.barrierArm h (parByte p 0) (parByte p 1))
     | 1 => some (.barrierDisarm h (parByte p 0))
     | _ => none)
  | 0x0504 => some (.timeSet h (par64 p 0))
  | 0x0505 => some (.timeQuery h)
  | 0x0506 =>
    (match (parByte p 0).toNat with
     | 0 => some (.schedulePost h (par64 p 8) (par64 p 16) (par32 p 24) (p.drop 32))
     | 1 => some (.scheduleCancel h (par32 p 4))
     | _ => none)
  | 0x0601 => some (.ckptCapture h (par64 p 0) (parX p 8) (par64 p 24) (par32 p 32))
  | 0x0602 => some (.ckptRestore h (par64 p 0) (parX p 8) (par64 p 24) (par32 p 32))
  | 0x0603 => some (.twinJoin h (par64 p 0))
  | 0x0604 => some (.twinSole h)
  | 0x0605 => some (.replay h (par64 p 0))
  | 0x0606 => some (.remapCluster h (par16 p 0) (parByte p 2))
  | 0x0607 => some (.reshard h (par64 p 0) (par32 p 8))
  | 0x0608 => some (.digestQuery h (par64 p 0))
  | _ => none

/-- The row of a TEST_RUN (R456); none for an unlisted TEST. -/
def parseTest (h : CmdHdr) (p : List Byte) : Option Instr :=
  match (par16 p 0).toNat with
  | 1 => some (.testPortLoop h (par16 p 2))
  | 2 => some (.testEdgePrbs h (par16 p 2))
  | 3 => some (.testStackTest h (par16 p 2))
  | 4 => some (.testClusterTest h (par16 p 2))
  | 5 => some (.testDieTest h (par16 p 2))
  | _ => none

/-- The row of a POWER_STATE (R360). -/
def parsePower (h : CmdHdr) (p : List Byte) : Option Instr :=
  match (parByte p 0).toNat with
  | 0 => some (.powerStateRun h)
  | 1 => some (.powerStateHold h)
  | 2 => some (.powerStateBank h)
  | 3 => some (.powerStateDark h)
  | _ => none

/-- The row of a command of groups 0x07 to 0x0A. `flashOk` says whether the flash takes what FW_STAGE writes. -/
def parseHigh (q : QCmd) (n : Nat) (flashOk : Bool) : Option Instr :=
  let p := q.params
  let h := q.hdr
  match q.opcode.toNat with
  | 0x0701 => parsePower h p
  | 0x0702 => some (.modeSet h (parByte p 0))
  | 0x0703 => some (.envelopeSet h (par32 p 0) (par32 p 4) (par32 p 8))
  | 0x0801 => some (.fwStage h (par64 p 0) (par32 p 8) (parByte p 12) flashOk n)
  | 0x0802 =>
    (match (parByte p 1).toNat with
     | 0 => some (.fwActivateNextBoot h (parByte p 0))
     | 1 => some (.fwActivateNow h (parByte p 0))
     | _ => none)
  | 0x0803 => some (.accessTableSet h (par16 p 0) (parByte p 2) (parByte p 3)
      ((List.range (leAt p 3 1)).map (fun i => BitVec.ofNat 128 (leAt p (8 + 16 * i) 16))))
  | 0x0901 => some (.telemetryRead h (parByte p 0) (par16 p 2) (par16 p 4))
  | 0x0902 => some (.counterClear h (par16 p 0) (par16 p 2))
  | 0x0903 => some (.eventSubscribe h (par32 p 0))
  | 0x0A01 => some (.scrubRun h (par16 p 0))
  | 0x0A02 => parseTest h p
  | 0x0A03 =>
    (match (parByte p 0).toNat with
     | 0 => some (.linkRetrainEdge h (parByte p 1))
     | 1 => some (.linkRetrainPort h (parByte p 1))
     | _ => none)
  | _ => none

/-- The row that a queued command spells; none where a field holds a reserved value. -/
def parseCmd (q : QCmd) (n : Nat) (flashOk : Bool) : Option Instr :=
  let g := q.opcode.toNat / 256
  if g ≤ 3 then parseLow q n else if g ≤ 6 then parseMid q else parseHigh q n flashOk

end Sys2Proof.Machine
end

