-- ==== Sys2Proof/Machine/Access.lean ====
section
/-! DEFINITION. Who may reach what: owning dies and paths (R22, R29, R31), the stack reserve (R245) and the access
tables (R402 to R405), in the order of R30. -/

namespace Sys2Proof.Machine

/-- The permission bits of a region entry (R404). -/
inductive Perm where
  | r | w | atomic | exec | cmd
  deriving DecidableEq, Repr

/-- The bit of a permission in word 1 of a region entry (R404). -/
def Perm.bit : Perm → Nat
  | .r => 0
  | .w => 1
  | .atomic => 2
  | .exec => 3
  | .cmd => 4

/-- Code of a status (R348). -/
def statusCode : Status → Nat
  | .done => 0x00
  | .accepted => 0x01
  | .inProgress => 0x02
  | .deferred => 0x03
  | .badOpcode => 0x10
  | .badParam => 0x11
  | .denied => 0x12
  | .authFail => 0x13
  | .staleLayout => 0x14
  | .windowMissed => 0x15
  | .notYet => 0x16
  | .ownerLost => 0x20
  | .dieLost => 0x21
  | .retry => 0x22
  | .busy => 0x23
  | .underflow => 0x24
  | .digestMismatch => 0x30
  | .degraded => 0x31

/-- The status of a code (R348); a reserved code is taken as DEGRADED (log entry 5). -/
def statusOf (c : Nat) : Status :=
  match ([Status.done, .accepted, .inProgress, .deferred, .badOpcode, .badParam, .denied, .authFail, .staleLayout,
      .windowMissed, .notYet, .ownerLost, .dieLost, .retry, .busy, .underflow, .digestMismatch, .degraded].find?
      (fun x => statusCode x == c)) with
  | some x => x
  | none => .degraded

/-- The final statuses (R348). -/
def statusFinal : Status → Bool
  | .accepted => false
  | .inProgress => false
  | .deferred => false
  | _ => true

/-- The first status of a list that is not DONE. -/
def firstBad : List Status → Status
  | [] => .done
  | x :: t => if x = .done then firstBad t else x

/-! ### Dies, domains and paths -/

/-- A compute die is fenced (R31). -/
def dieFenced (s : State) (d : Nat) : Bool := (die s d).st == .fenced

/-- The IOD domain runs: bring-up has passed stage 3 and the package is in Run or Hold (R26, R430). -/
def iodOn (s : State) : Bool :=
  decide (4 ≤ s.boot.stage.toNat) && decide (s.boot.stage.toNat ≤ 9) && decide (s.power.st.toNat < 2)

/-- Commands are served: stage 3 has ended, or an exit from Dark runs it again, and the package is neither in RECOVERY nor
FAILED (R421, R432, R433). -/
def served (s : State) : Bool :=
  (decide (4 ≤ s.boot.stage.toNat) && decide (s.boot.stage.toNat ≤ 9)) || (s.boot.stage == 3 && s.power.st == 3)

/-- The array clocks run: the package is in Run and no MODE_SET has stopped them (R76, R414, R418). -/
def clocksOn (s : State) : Bool := s.power.st == 0 && !s.power.clockStopped

/-- The die that a master sits on; none is the I/O die (R402). -/
def masterDie (mid : Nat) : Option Nat :=
  if mid < 0x1000 then some (mid / 1024) else if mid ≤ 0x100F then some ((mid - 0x1000) / 4) else none

/-- Whether the path from a die to a die is lost (R22, R31). -/
def pathLost (s : State) (src dst : Option Nat) : Bool :=
  match dst with
  | none => false
  | some d => dieFenced s d ||
    (match src with
     | some k => (k != d) && (k + 2) % 4 == d && (dieFenced s ((k + 1) % 4) || dieFenced s ((k + 3) % 4))
     | none => false)

/-- An ISL block, or MEM_EPOCH (R457). -/
def islPlace : Place → Bool
  | .ctrl b o => b == 0x0000 || b == 0x0004 || b == 0x0048 || b == 0x004C || b == 0x0050 || (b == 0x0014 && o == 0)
  | _ => false

/-- Whether a place is lost: its die or the path to it fenced, or its stack fenced (R31, R254). -/
def placeLost (s : State) (src : Option Nat) (p : Place) : Bool :=
  pathLost s src p.die ||
  (match p with
   | .stack k _ => (stackUnit s k).st == .fenced
   | _ => false)

/-- Whether the unit that serves a place is up (R26, R33, R433, R461): ISL blocks while PWR_EN is asserted. -/
def placeUp (s : State) (p : Place) : Bool :=
  match p with
  | .stack k _ => (die s (k / 4)).on && (stackUnit s k).st == .up
  | .store n _ => (die s (n / 1024)).on
  | .ctrl b _ => (islPlace p && s.tap.pwrEn) || (!islPlace p && if b < 0x100 then iodOn s else (die s (b / 0x100 - 1)).on)
  | .unmapped => false

/-- Whether the unit that serves a place is stopped in Hold (R418, R461); one that is lost does not wait (R31). -/
def placeStopped (s : State) (p : Place) : Bool :=
  s.power.st == 1 && !placeLost s none p &&
  (match p with
   | .store _ _ => true
   | .ctrl b _ => decide (0x100 ≤ b)
   | _ => false)

/-! ### Access tables -/

/-- Word `i` of a region entry (R404). -/
def entryWord (e : W128) (i : Nat) : Nat := bits e.toNat (32 * i + 31) (32 * i)

/-- A VALID entry covers a master and an address value and has a bit (R405). -/
def entryAdmits (e : W128) (mid av : Nat) (need : Perm) : Bool :=
  bit (entryWord e 1) 31 && bit (entryWord e 1) need.bit &&
  decide (bits (entryWord e 0) 15 0 ≤ mid) && decide (mid ≤ bits (entryWord e 0) 31 16) &&
  decide (entryWord e 2 ≤ av) && decide (av ≤ entryWord e 3)

/-- The targets that R403 defines. -/
def validTarget (t : Nat) : Bool :=
  t ≤ 0x100F || t == 0x1100 || (decide (0x1101 ≤ t) && decide (t ≤ 0x1104)) || t == 0x1200

/-- The target of a place (R403). -/
def Place.target : Place → Nat
  | .stack k _ => 0x1000 + k
  | .store n _ => n
  | .ctrl b _ => if b < 0x100 then 0x1100 else 0x1101 + (b / 0x100 - 1)
  | .unmapped => 0xFFFF

/-- The address that a place's target compares (R403). -/
def Place.compared (p : Place) : Nat := p.key / 0x10000

/-- The permission bits that a target takes (R404). -/
def targetTakes (t : Nat) (b : Perm) : Bool :=
  match b with
  | .cmd => t == 0x1200
  | .exec => decide (t < 0x1000)
  | _ => t != 0x1200

/-- The fixed grants of R405. -/
def fixedGrant (mid t : Nat) (need : Perm) : Bool :=
  (mid == t && decide (t < 0x1000) && need != .cmd) ||
  (decide (0x1000 ≤ mid) && decide (mid ≤ 0x103F) && t != 0x1200 && (need == .r || need == .w || need == .atomic)) ||
  (decide (0x2000 ≤ mid) && decide (mid ≤ 0x2003) && targetTakes t need)

/-- Whether a target admits a master (R405). -/
def tableAdmits (s : State) (t mid av : Nat) (need : Perm) : Bool :=
  fixedGrant mid t need ||
  (List.range 64).any (fun i => entryAdmits (lookD s.cob.table (t * 64 + i) 0) mid av need)

/-- Whether a place lies in the stack reserve (R245). -/
def inReserve : Place → Bool
  | .stack _ o => decide (reserveAt ≤ o)
  | _ => false

/-- The decision on an access of a range: mapped (R30), lost (R31, R254), up (R433), reserve (R245), table (R405). -/
def accessStatus (s : State) (mid a len : Nat) (need : Perm) : Status :=
  let ps := (pages a len).map place
  if !mapped a len then .badParam
  else if ps.any (placeLost s (masterDie mid)) then .dieLost
  else if !ps.all (placeUp s) then .busy
  else if ps.any inReserve then .denied
  else if !ps.all (fun p => tableAdmits s p.target mid p.compared need) then .denied
  else .done

/-- A refused access is counted in COB_CNT_DENIED (R405, R409). -/
def countDenied (s : State) : State := { s with cob := { s.cob with cntDenied := satAdd s.cob.cntDenied 1 } }

/-- The state after a decision: DENIED is counted. -/
def noteAccess (s : State) (st : Status) : State := if st = .denied then countDenied s else s

/-- The decision on an access that a command makes; in Hold, a stopped unit gives BUSY (R421). -/
def cmdAccess (s : State) (mid a len : Nat) (need : Perm) : Status :=
  match accessStatus s mid a len need with
  | .done => if ((pages a len).map place).any (placeStopped s) then .busy else .done
  | x => x

end Sys2Proof.Machine
end

