-- ==== Sys2Proof/Machine/Path.lean ====
section
/-! DEFINITION. Die-link edges and the paths over them: which edges and dies a packet crosses (R20, R22), and what waits while an edge
trains (R276). -/

namespace Sys2Proof.Machine

/-! ### Edges (R20, R288) -/

/-- Both ends of an edge. -/
def edge (s : State) (e : Nat) : LinkEnd × LinkEnd := vgetD s.links e (LinkEnd.reset, LinkEnd.reset)

/-- One end of an edge. -/
def linkEnd (s : State) (e : EdgeEnd) : LinkEnd := if e.upper then (edge s e.edge.val).2 else (edge s e.edge.val).1

/-- Bundles of an edge per direction (R20). -/
def edgeBundles (e : Nat) : Nat := if e < 4 then 32 else 16

/-- Active bundles of an edge: those of its first end while it is UP. -/
def edgeWidth (s : State) (e : Nat) : Nat :=
  let p := edge s e
  if p.1.tstate = 5 ∧ p.2.tstate = 5 then popCount 32 p.1.mask.toNat else 0

/-- State of an edge (R288). -/
def edgeState (s : State) (e : Nat) : Nat :=
  let p := edge s e
  if p.1.tstate = 6 ∨ p.2.tstate = 6 then 3
  else if p.1.tstate = 5 ∧ p.2.tstate = 5 then (if edgeWidth s e = edgeBundles e then 1 else 2) else 0

/-- The dies that an edge joins; an IOD edge names one. -/
def edgeDies (e : Nat) : List Nat := if e < 4 then [e, (e + 1) % 4] else [e - 4]

/-- The edges of a die: two ring edges and its IOD edge. -/
def edgesOf (k : Nat) : List Nat := [k, (k + 3) % 4, 4 + k]

/-- The other end of an edge. -/
def otherEnd (e : EdgeEnd) : EdgeEnd := ⟨e.edge, !e.upper⟩

/-! ### Paths (R22, R280) -/

/-- The end by which a packet leaves a die, or the I/O die, toward another (R22); none where it is there. -/
def edgeToward (src dst : Option Nat) : Option EdgeEnd :=
  match src, dst with
  | none, none => none
  | none, some d => some ⟨Fin.ofNat 8 (4 + d), true⟩
  | some k, none => some ⟨Fin.ofNat 8 (4 + k), false⟩
  | some k, some d =>
    if d = k then none
    else if d = (k + 3) % 4 then some ⟨Fin.ofNat 8 d, true⟩
    else some ⟨Fin.ofNat 8 k, false⟩

/-- The die at which an end sits; none is the I/O die. -/
def nearDie (e : EdgeEnd) : Option Nat :=
  let k := e.edge.val
  if k < 4 then some (if e.upper then (k + 1) % 4 else k) else if e.upper then none else some (k - 4)

/-- The dies that a packet crosses from a die, or the I/O die, to another, both included (R22). -/
def pathDies (src dst : Option Nat) : List Nat :=
  match src, dst with
  | none, none => []
  | none, some d => [d]
  | some k, none => [k]
  | some k, some d => if k = d then [k] else if (k + 2) % 4 = d then [k, (k + 1) % 4, d] else [k, d]

/-- The ends at which a packet comes off an edge on its way; no path crosses more than two edges (R22). -/
def pathEnds : Nat → Option Nat → Option Nat → List EdgeEnd
  | 0, _, _ => []
  | f + 1, src, dst =>
    match edgeToward src dst with
    | none => []
    | some out => otherEnd out :: pathEnds f (nearDie (otherEnd out)) dst

/-- An access crosses a mesh: all but those of a cluster to its own store, and of the I/O die to itself. -/
def crossesMesh (mid : Nat) (p : Place) : Bool :=
  match p with
  | .store n _ => n != mid
  | p => p.die.isSome || (masterDie mid).isSome

/-! ### What waits for a training (R276) -/

/-- An edge trains (R276): it is DOWN between dies in service. -/
def edgeTrains (s : State) (e : Nat) : Bool :=
  edgeState s e == 0 && (edgeDies e).all (fun k => (die s k).on && !dieFenced s k)

/-- The path of a request, or that of its reply, crosses an edge that trains (R22, R276). -/
def pathTrains (s : State) (src dst : Option Nat) : Bool :=
  (pathEnds 2 src dst ++ pathEnds 2 dst src).any (fun e => edgeTrains s e.edge.val)

/-- An access waits for an edge that trains (R276). -/
def trainHolds (s : State) (mid a n : Nat) : Bool := ((pages a n).map place).any (fun p => pathTrains s (masterDie mid) p.die)

end Sys2Proof.Machine
end

