-- ==== Sys2Proof/Machine/Fp.lean ====
section
/-! DEFINITION. Exact values and their rounding (R97, R98, R127, R128): IEEE 754 formats with an 8-bit exponent, the
FP8 formats, and the arithmetic of the vector unit, each result rounded once from its exact value. -/

namespace Sys2Proof.Machine

/-- An exact value: NaN, an infinity, or plus or minus a fraction `n / d`. -/
inductive Fv where
  | nan
  | inf (neg : Bool)
  | fin (neg : Bool) (n d : Nat)
  deriving DecidableEq, Repr

/-- Plus zero. -/
def Fv.zero : Fv := .fin false 0 1

/-- A magnitude `m × 2^e` as a fraction. -/
def pow2Frac (m : Nat) (e : Int) : Nat × Nat := if 0 ≤ e then (m * 2 ^ e.toNat, 1) else (m, 2 ^ (-e).toNat)

/-- An integer as an exact value. -/
def Fv.ofInt (i : Int) : Fv := .fin (decide (i < 0)) i.natAbs 1

/-- A finite value of zero magnitude. -/
def Fv.isZero : Fv → Bool
  | .fin _ 0 _ => true
  | _ => false

/-- Whether a value is finite. -/
def Fv.isFin : Fv → Bool
  | .fin _ _ _ => true
  | _ => false

/-- The sign of a value. -/
def Fv.neg? : Fv → Bool
  | .nan => false
  | .inf g => g
  | .fin g _ _ => g

/-- The value with the opposite sign. -/
def Fv.negate : Fv → Fv
  | .nan => .nan
  | .inf g => .inf (!g)
  | .fin g n d => .fin (!g) n d

/-- Magnitude of a finite value; 0 otherwise. -/
def Fv.mag : Fv → Nat × Nat
  | .fin _ n d => (n, d)
  | _ => (0, 1)

/-- `a ≤ b` of fractions. -/
def fracLe (a b : Nat × Nat) : Bool := decide (a.1 * b.2 ≤ b.1 * a.2)

/-- `a < b` of fractions. -/
def fracLt (a b : Nat × Nat) : Bool := decide (a.1 * b.2 < b.1 * a.2)

/-- A fraction times a fraction. -/
def fracMul (a b : Nat × Nat) : Nat × Nat := (a.1 * b.1, a.2 * b.2)

/-! ### Formats -/

/-- A code of a binary format with `eb` exponent bits and `mb` mantissa bits, decoded (IEEE 754). -/
def decodeFp (eb mb : Nat) (c : Nat) : Fv :=
  let neg := bit c (eb + mb)
  let e := bits c (eb + mb - 1) mb
  let m := c % 2 ^ mb
  let bias : Int := 2 ^ (eb - 1) - 1
  if e = 2 ^ eb - 1 then (if m = 0 then .inf neg else .nan)
  else
    let f := if e = 0 then pow2Frac m (1 - bias - mb) else pow2Frac (m + 2 ^ mb) ((e : Int) - bias - mb)
    .fin neg f.1 f.2

/-- FP32, decoded. -/
def f32 (c : Nat) : Fv := decodeFp 8 23 (c % 2 ^ 32)

/-- BF16, decoded. -/
def bf16 (c : Nat) : Fv := decodeFp 8 7 (c % 2 ^ 16)

/-- FP8 E5M2, decoded. -/
def e5m2 (c : Nat) : Fv := decodeFp 5 2 (c % 2 ^ 8)

/-- FP8 E4M3, decoded: no infinity, NaN at mantissa 7 of the highest exponent. -/
def e4m3 (c : Nat) : Fv :=
  let e := bits c 6 3
  let m := c % 8
  if e = 15 ∧ m = 7 then .nan
  else
    let f := if e = 0 then pow2Frac m (-9) else pow2Frac (m + 8) ((e : Int) - 10)
    .fin (bit c 7) f.1 f.2

/-- The floor of log2 of a nonzero fraction. -/
def fracLog2 (n d : Nat) : Int :=
  let k : Int := (Nat.log2 n : Int) - (Nat.log2 d : Int)
  let g := pow2Frac 1 k
  if g.1 * d ≤ n * g.2 then k else k - 1

/-- A decision of R98 between two neighbours: `rem / d` is how far the value lies above the lower one, in units of
their distance; `odd`: the lower one has an odd code. RNE, or SR with the draw. -/
def roundUp? (rem d : Nat) (odd : Bool) (r : Option Nat) : Bool :=
  match r with
  | none => decide (d < 2 * rem) || (d == 2 * rem && odd)
  | some r => decide (r * d < rem * 2 ^ 32)

/-- A magnitude rounded to a format of 8 exponent bits and `mb` mantissa bits (R98): the code without its sign, the
code of infinity standing for 2^128. R98's grid has no value above 2^128; a magnitude beyond it, which has no upper neighbour there,
becomes infinity under both roundings (DESIGN CHOICE, log entry 88). -/
def roundMag (mb n d : Nat) (r : Option Nat) : Nat :=
  if n = 0 then 0 else
  let k := fracLog2 n d
  if 128 ≤ k then 255 * 2 ^ mb else
  let kk := if k < -126 then -126 else k
  let q := pow2Frac 1 (kk - mb)
  -- n/d in units of 2^(kk - mb)
  let a := n * q.2
  let b := d * q.1
  let m := a / b
  let base := (kk + 126).toNat * 2 ^ mb + m
  if roundUp? (a % b) b (base % 2 == 1) r then base + 1 else base

/-- The canonical NaN (R98, R127). -/
def canonNan (mb : Nat) : Nat := 255 * 2 ^ mb + 2 ^ (mb - 1)

/-- A value rounded to a format, the sign of a zero kept (R127). -/
def encodeFp (mb : Nat) (v : Fv) (r : Option Nat) : Nat :=
  match v with
  | .nan => canonNan mb
  | .inf g => b2n g * 2 ^ (mb + 8) + 255 * 2 ^ mb
  | .fin g n d => b2n g * 2 ^ (mb + 8) + roundMag mb n d r

/-- To FP32, nearest even. -/
def toF32 (v : Fv) : Nat := encodeFp 23 v none

/-- To BF16, nearest even. -/
def toBf16 (v : Fv) : Nat := encodeFp 7 v none

/-- A read-out result (R98): a magnitude that rounds to 0 gives +0. -/
def encodeReadout (mb : Nat) (v : Fv) (r : Option Nat) : Nat :=
  match v with
  | .fin g n d => let m := roundMag mb n d r; if m = 0 then 0 else b2n g * 2 ^ (mb + 8) + m
  | _ => encodeFp mb v r

/-! ### Arithmetic on exact values -/

/-- The product. -/
def Fv.mul : Fv → Fv → Fv
  | .nan, _ => .nan
  | _, .nan => .nan
  | .inf g, .inf h => .inf (g != h)
  | .inf g, .fin h n _ => if n = 0 then .nan else .inf (g != h)
  | .fin g n _, .inf h => if n = 0 then .nan else .inf (g != h)
  | .fin g n d, .fin h m e => .fin (g != h) (n * m) (d * e)

/-- The sum; an exact zero is +0 unless both operands are zeros of negative sign (IEEE 754, nearest even). -/
def Fv.add : Fv → Fv → Fv
  | .nan, _ => .nan
  | _, .nan => .nan
  | .inf g, .inf h => if g = h then .inf g else .nan
  | .inf g, .fin _ _ _ => .inf g
  | .fin _ _ _, .inf h => .inf h
  | .fin g n d, .fin h m e =>
    let a := n * e
    let b := m * d
    if g = h then .fin g (a + b) (d * e)
    else if b < a then .fin g (a - b) (d * e)
    else if a < b then .fin h (b - a) (d * e)
    else .fin false 0 1

/-- The quotient. -/
def Fv.div : Fv → Fv → Fv
  | .nan, _ => .nan
  | _, .nan => .nan
  | .inf _, .inf _ => .nan
  | .inf g, .fin h _ _ => .inf (g != h)
  | .fin g _ _, .inf h => .fin (g != h) 0 1
  | .fin g n d, .fin h m e =>
    if m = 0 then (if n = 0 then .nan else .inf (g != h)) else .fin (g != h) (n * e) (d * m)

/-- Newton steps of the integer square root, from above. -/
def isqrtIter (n : Nat) : Nat → Nat → Nat
  | 0, x => x
  | f + 1, x => let y := (x + n / x) / 2; if y < x then isqrtIter n f y else x

/-- The integer square root. -/
def isqrt (n : Nat) : Nat := if n = 0 then 0 else isqrtIter n (Nat.log2 n + 2) (2 ^ (Nat.log2 n / 2 + 1))

/-- 1 ÷ √v (R126): a fraction with a sticky unit below where the root is irrational. -/
def Fv.rsqrt : Fv → Fv
  | .nan => .nan
  | .inf true => .nan
  | .inf false => .fin false 0 1
  | .fin g n d =>
    if n = 0 then .inf g
    else if g then .nan
    else
      let s := 128 + Nat.log2 n
      let t := d * 2 ^ (2 * s) / n
      let y := isqrt t
      .fin false (2 * y + b2n (!(y * y * n == d * 2 ^ (2 * s)))) (2 ^ (s + 1))

/-- Fraction bits of the series below (log entry 8). -/
def seriesBits : Nat := 256

/-- The series of 2·atanh(z/one) with odd powers: `p` is z^(2k+1). -/
def atanhSeries (one z2 : Nat) : Nat → Nat → Nat → Nat → Nat
  | 0, _, _, acc => acc
  | f + 1, k, p, acc => atanhSeries one z2 f (k + 1) (p * z2 / one) (acc + 2 * p / (2 * k + 1))

/-- The natural logarithm of a fraction `n / d` in [1, 2], in units of 2^−256. -/
def lnFix (n d : Nat) : Nat :=
  let one := 2 ^ seriesBits
  let z := (n - d) * one / (n + d)
  atanhSeries one (z * z / one) 90 0 z 0

/-- ln 2 in units of 2^−256. -/
def ln2Fix : Nat := lnFix 2 1

/-- The exponential series of z/one: terms z^k / k!. -/
def expSeries (one z : Nat) : Nat → Nat → Nat → Nat → Nat
  | 0, _, _, acc => acc
  | f + 1, k, t, acc => expSeries one z f (k + 1) (t * z / one / (k + 1)) (acc + t)

/-- 2^v (R126), irrational values with a sticky unit below (log entry 8). -/
def Fv.exp2 : Fv → Fv
  | .nan => .nan
  | .inf true => .fin false 0 1
  | .inf false => .inf false
  | .fin g n d =>
    if n % d = 0 then
      let i : Int := if g then -(n / d : Nat) else (n / d : Nat)
      if 200 < i then .inf false else if i < -200 then .fin false 0 1
      else let f := pow2Frac 1 i; .fin false f.1 f.2
    else
      -- v = i + f with f in (0, 1)
      let i : Int := if g then -((n / d : Nat) : Int) - 1 else (n / d : Nat)
      let fn := if g then d - n % d else n % d
      if 200 < i then .inf false else if i < -200 then .fin false 1 (2 ^ 200)
      else
        let one := 2 ^ seriesBits
        let y := expSeries one (fn * ln2Fix / d) 80 0 one 0
        let f := pow2Frac (2 * y + 1) (i - seriesBits - 1)
        .fin false f.1 f.2

/-- log2 v (R126), irrational values with a sticky unit below (log entry 8). -/
def Fv.log2 : Fv → Fv
  | .nan => .nan
  | .inf true => .nan
  | .inf false => .inf false
  | .fin g n d =>
    if n = 0 then .inf true
    else if g then .nan
    else
      let k := fracLog2 n d
      let p := pow2Frac 1 k
      -- n/d = 2^k * (a/b), a/b in [1, 2)
      let a := n * p.2
      let b := d * p.1
      if a = b then .fin (decide (k < 0)) k.natAbs 1
      else
        let one := 2 ^ seriesBits
        let y : Int := k * one + (lnFix a b * one / ln2Fix : Nat)
        -- the exact value lies above y and below y + 1
        let z := 2 * y + 1
        .fin (decide (z < 0)) z.natAbs (2 * one)

/-- The place of an FP32 code that is no NaN in the order of R128: −0 below +0. -/
def orderKey (c : Nat) : Int :=
  if bit c 31 then -((c % 2 ^ 31 : Nat) : Int) - 1 else (c % 2 ^ 31 : Nat)

/-- `a` is above `b` for REDMAX (R128): NaN above +infinity, +0 above −0, equal patterns tie. The order of two NaNs of
distinct patterns is open (log entry 9). -/
def aboveMax (a b : Nat) : Bool :=
  if a = b then false
  else match f32 a, f32 b with
    | .nan, .nan => Config.nanAbove (BitVec.ofNat 32 a) (BitVec.ofNat 32 b)
    | .nan, _ => true
    | _, .nan => false
    | _, _ => decide (orderKey b < orderKey a)

/-- `a` is below `b` for REDMIN (R128): NaN below −infinity, −0 below +0. -/
def belowMin (a b : Nat) : Bool :=
  if a = b then false
  else match f32 a, f32 b with
    | .nan, .nan => Config.nanAbove (BitVec.ofNat 32 a) (BitVec.ofNat 32 b)
    | .nan, _ => true
    | _, .nan => false
    | _, _ => decide (orderKey a < orderKey b)

/-- The order of values with −0 below +0 (R126). -/
def Fv.lt : Fv → Fv → Bool
  | .inf true, .inf true => false
  | .inf true, _ => true
  | _, .inf true => false
  | .inf false, _ => false
  | _, .inf false => true
  | .fin g n d, .fin h m e =>
    if g && !h then true
    else if !g && h then false
    else if g then decide (m * d < n * e) else decide (n * e < m * d)
  | _, _ => false

/-- MAX and MIN of R126: NaN if either is NaN, +0 above −0. -/
def Fv.max (a b : Fv) : Fv := if a = .nan ∨ b = .nan then .nan else if Fv.lt a b then b else a

/-- MIN of R126. -/
def Fv.min (a b : Fv) : Fv := if a = .nan ∨ b = .nan then .nan else if Fv.lt b a then b else a

/-! ### FP32 operations by code -/

/-- FP32 addition, nearest even (R127). -/
def fadd (a b : Nat) : Nat := toF32 ((f32 a).add (f32 b))
/-- FP32 subtraction. -/
def fsub (a b : Nat) : Nat := toF32 ((f32 a).add (f32 b).negate)
/-- FP32 multiplication. -/
def fmul (a b : Nat) : Nat := toF32 ((f32 a).mul (f32 b))
/-- FP32 fused multiply-add. -/
def ffma (a b c : Nat) : Nat := toF32 (((f32 a).mul (f32 b)).add (f32 c))
/-- FP32 division. -/
def fdiv (a b : Nat) : Nat := toF32 ((f32 a).div (f32 b))
/-- FP32 square root, correctly rounded. -/
def fsqrt (a : Nat) : Nat :=
  match f32 a with
  | .fin false n d =>
    if n = 0 then 0 else
    let s := 128 + Nat.log2 d
    let t := n * 2 ^ (2 * s) / d
    let y := isqrt t
    toF32 (.fin false (2 * y + b2n (!(y * y * d == n * 2 ^ (2 * s)))) (2 ^ (s + 1)))
  | .fin true n _ => if n = 0 then 2 ^ 31 else canonNan 23
  | .inf false => 255 * 2 ^ 23
  | _ => canonNan 23

/-- Whether an FP32 code is finite. -/
def isFinite32 (c : Nat) : Bool := (f32 c).isFin

end Sys2Proof.Machine
end

