-- ==== Sys2Proof/Machine/Keccak.lean ====
section
/-! DEFINITION. Keccak-f[1600] and the functions of FIPS 202 and SP 800-185 that the manual names (SHA3-256, SHA3-512,
SHAKE128, KMAC256), over states of 25 lanes of 64 bits held as numbers; and the CRC of the manual's packets. -/

namespace Sys2Proof.Machine

/-- A lane of 64 bits turned left by `n`. -/
def spin64 (n v : Nat) : Nat := v <<< n % 2 ^ 64 ||| v >>> (64 - n)

/-- The lane in sheet `x` and plane `y` of a state: number x + 5y, with both taken modulo 5. -/
def laneXY (a : List Nat) (x y : Nat) : Nat := a.getD (x % 5 + 5 * (y % 5)) 0

/-- The state whose lane (x, y) is `f x y`. -/
def lanesOf (f : Nat → Nat → Nat) : List Nat := (List.range 25).map (fun i => f (i % 5) (i / 5))

/-- One step of the shift register whose low bits make the round constants: x^8 = x^6 + x^5 + x^4 + 1. -/
def rcStep (r : Nat) : Nat := if r < 128 then 2 * r else (2 * r) ^^^ 0x171

/-- The round constant that the register spells from `r` on: its low bit after `j` steps is bit 2^j - 1. -/
def rcFrom (r : Nat) : Nat :=
  (List.range 7).foldl (fun c j => c ||| (iter j rcStep r % 2) <<< (2 ^ j - 1)) 0

/-- The turns of the step rho along its walk from lane `p`: the lane met at step `t` turns by 1 + 2 + … + t. -/
def rhoWalk : Nat → Nat → Nat → Assoc Nat
  | 0, _, _ => []
  | n + 1, p, t => (p, t * (t + 1) / 2 % 64) :: rhoWalk n (p / 5 + 5 * ((2 * (p % 5) + 3 * (p / 5)) % 5)) (t + 1)

/-- The turn of lane (x, y): lane (0, 0) is not met and does not turn. -/
def rhoTurn (x y : Nat) : Nat := lookD (rhoWalk 24 1 1) (x + 5 * y) 0

/-- Theta: each lane takes in the parities of the two columns beside its own. -/
def theta (a : List Nat) : List Nat :=
  let par := (List.range 5).map (fun x => (List.range 5).foldl (fun p y => p ^^^ laneXY a x y) 0)
  lanesOf (fun x y => laneXY a x y ^^^ laneXY par (x + 4) 0 ^^^ spin64 1 (laneXY par (x + 1) 0))

/-- Rho and pi: lane (x, y) comes, turned, from sheet x + 3y of plane x. -/
def rhoPi (a : List Nat) : List Nat :=
  lanesOf (fun x y => spin64 (rhoTurn ((x + 3 * y) % 5) x) (laneXY a (x + 3 * y) x))

/-- Chi, and iota with the constant `rc`. -/
def chiIota (rc : Nat) (a : List Nat) : List Nat :=
  lanesOf (fun x y =>
    let v := laneXY a x y ^^^ (laneXY a (x + 2) y &&& (2 ^ 64 - 1 - laneXY a (x + 1) y))
    if x + y = 0 then v ^^^ rc else v)

/-- Keccak-f[1600]: 24 rounds, the register moving on 7 steps in each. -/
def keccakF (a : List Nat) : List Nat :=
  (List.range 24).foldl (fun b n => chiIota (rcFrom (iter (7 * n) rcStep 1)) (rhoPi (theta b))) a

/-- A block of bytes added into the state, and the permutation. -/
def absorbBlock (a : List Nat) (b : List Byte) : List Nat :=
  keccakF (lanesOf (fun x y => laneXY a x y ^^^ leAt b (8 * (x + 5 * y)) 8))

/-- The bytes of a state. -/
def stateBytes (a : List Nat) : List Byte := a.flatMap (leBytes 8)

/-- The message padded to a multiple of the rate: domain bits `ds`, then zeros, then the top bit. -/
def padMsg (rate : Nat) (ds : Byte) (m : List Byte) : List Byte :=
  let r := rate - m.length % rate
  if r = 1 then m ++ [ds ||| 0x80] else m ++ [ds] ++ List.replicate (r - 2) 0 ++ [0x80]

/-- Output bytes squeezed block by block. -/
def squeeze (rate : Nat) : Nat → List Nat → List Byte
  | 0, _ => []
  | n + 1, a => (stateBytes a).take rate ++ squeeze rate n (keccakF a)

/-- The sponge: rate in bytes, domain byte, message, output length in bytes. -/
def sponge (rate : Nat) (ds : Byte) (m : List Byte) (n : Nat) : List Byte :=
  let p := padMsg rate ds m
  let a := (chunks rate (p.length / rate) p).foldl absorbBlock (List.replicate 25 0)
  (squeeze rate (n / rate + 1) a).take n

/-- SHA3-256 (FIPS 202). -/
def sha3_256 (m : List Byte) : List Byte := sponge 136 0x06 m 32

/-- SHA3-512 (FIPS 202). -/
def sha3_512 (m : List Byte) : List Byte := sponge 72 0x06 m 64

/-- SHAKE128 (FIPS 202) with `n` bytes of output. -/
def shake128 (m : List Byte) (n : Nat) : List Byte := sponge 168 0x1F m n

/-- Big-endian bytes of a number without leading zeros, at least one byte. -/
def beMin (v : Nat) : List Byte :=
  let l := (leBytes 8 v).reverse.dropWhile (· == 0)
  if l.isEmpty then [0] else l

/-- left_encode of SP 800-185. -/
def leftEncode (v : Nat) : List Byte := let b := beMin v; BitVec.ofNat 8 b.length :: b

/-- right_encode of SP 800-185. -/
def rightEncode (v : Nat) : List Byte := let b := beMin v; b ++ [BitVec.ofNat 8 b.length]

/-- encode_string of SP 800-185. -/
def encodeString (l : List Byte) : List Byte := leftEncode (8 * l.length) ++ l

/-- bytepad of SP 800-185. -/
def bytepad (l : List Byte) (w : Nat) : List Byte :=
  let x := leftEncode w ++ l
  x ++ List.replicate (roundUp x.length w - x.length) 0

/-- The bytes of an ASCII text. -/
def ascii (t : String) : List Byte := t.toList.map (fun c => BitVec.ofNat 8 c.toNat)

/-- KMAC256 (SP 800-185): key, message, output bytes, customisation string. -/
def kmac256 (key m : List Byte) (n : Nat) (custom : List Byte) : List Byte :=
  sponge 136 0x04
    (bytepad (encodeString (ascii "KMAC") ++ encodeString custom) 136 ++ bytepad (encodeString key) 136
      ++ m ++ rightEncode (8 * n)) n

/-! ### CRCs -/

/-- One bit of a reflected CRC of a polynomial given reflected. -/
def crcBit (poly c : Nat) : Nat := if c % 2 = 1 then (c / 2) ^^^ poly else c / 2

/-- A reflected 32-bit CRC over bytes; the match evaluates the value after each byte before the next. -/
def crcRef (poly : Nat) : Nat → List Byte → Nat
  | init, [] => init
  | init, b :: l =>
    match iter 8 (crcBit poly) (init ^^^ b.toNat) with
    | 0 => crcRef poly 0 l
    | c + 1 => crcRef poly (c + 1) l

/-- CRC-32C: polynomial 0x1EDC6F41, reflected, initial and final value all ones. -/
def crc32c (l : List Byte) : W32 := BitVec.ofNat 32 (crcRef 0x82F63B78 0xFFFFFFFF l ^^^ 0xFFFFFFFF)

end Sys2Proof.Machine
end

