-- ==== Sys2Proof/Machine/Block.lean ====
section
/-! DEFINITION. Element codes, block scales, joints, conversions to block formats and the per-lane generators
(Block formats and exact-window accumulation, R79 to R109). -/

namespace Sys2Proof.Machine

/-! ### Element codes (R79, R80) -/

/-- Half-units of an F4 code's magnitude (R79). -/
def f4Half (c : Nat) : Nat := [0, 1, 2, 3, 4, 6, 8, 12].getD (c % 8) 0

/-- An F4 code in half-units (R79): code 0b1000 decodes as 0. -/
def f4Val (c : Nat) : Int := if bit c 3 then -(f4Half c : Int) else f4Half c

/-- An I4 code (R80). -/
def i4Val (c : Nat) : Int := sext 4 c

/-- A T2 code (R80): 0b10 decodes as 0. -/
def t2Val (c : Nat) : Int := match c % 4 with
  | 1 => 1
  | 3 => -1
  | _ => 0

/-- An I8 code (R80). -/
def i8Val (c : Nat) : Int := sext 8 c

/-! ### Tensor formats (R123) -/

/-- The formats of a tensor descriptor (R123). -/
inductive TFmt where
  | f4b | i4b | t2b | i8b | fp32 | bf16 | e4m3 | e5m2
  deriving DecidableEq, Repr

/-- The format of a code of R123; 8 to 15 are reserved. -/
def tfmtOf (c : Nat) : Option TFmt :=
  [TFmt.f4b, .i4b, .t2b, .i8b, .fp32, .bf16, .e4m3, .e5m2][c]?

/-- Whether a format is a block format (R84). -/
def TFmt.isBlock : TFmt → Bool
  | .f4b => true
  | .i4b => true
  | .t2b => true
  | .i8b => true
  | _ => false

/-- Bits of one element code. -/
def TFmt.codeBits : TFmt → Nat
  | .f4b => 4
  | .i4b => 4
  | .t2b => 2
  | .i8b => 8
  | .fp32 => 32
  | .bf16 => 16
  | .e4m3 => 8
  | .e5m2 => 8

/-! ### Scales (R82, R83) -/

/-- Whether a 9-bit scale is non-finite (R83). -/
def scaleNonfinite (s : Nat) : Bool := s % 256 == 255

/-- The value of a finite 9-bit scale (R82). -/
def scaleVal (s : Nat) : Nat × Nat :=
  pow2Frac (if bit s 8 then 3 else 1) ((s % 256 : Nat) - 127 - (if bit s 8 then 1 else 0))

/-! ### Joints (R89, R90) -/

/-- The contribution of a joint (R90): the 64-bit value, and whether a scale was non-finite. -/
def joint (p : Int) (sw sa : Nat) (u w : Int) : Nat × Bool :=
  if scaleNonfinite sw || scaleNonfinite sa then (0, true)
  else
    let hs := b2n (bit sw 8) + b2n (bit sa 8)
    let c : Int := match hs with
      | 0 => 1
      | 1 => 3
      | _ => 9
    let g : Int := (sw % 256 : Nat) - 127 + ((sa % 256 : Nat) - 127) + u
    let d := g - hs - w
    let v := p * c
    if 64 ≤ d then (0, false)
    else if 0 ≤ d then (wrap 64 (v * 2 ^ d.toNat), false)
    else if d < -64 then (wrap 64 (if v < 0 then -1 else 0), false)
    else (wrap 64 (v.fdiv (2 ^ (-d).toNat)), false)

/-- An int64 wrap add (R92). -/
def add64 (a b : Nat) : Nat := (a + b) % 2 ^ 64

/-! ### Conversions (R97 to R102) -/

/-- The exact value of a stored entry column: V × 2^W × σ (R97). -/
def readoutValue (v : Nat) (w : Int) (sigma : Nat) : Fv :=
  let vi := sext 64 v
  let f := pow2Frac vi.natAbs w
  match f32 sigma with
  | .nan => .nan
  | .inf g => if vi = 0 then .nan else .inf (g != decide (vi < 0))
  | .fin g n d => if n = 0 then .zero else .fin (g != decide (vi < 0)) (f.1 * n) (f.2 * d)

/-- Magnitudes of the F4 grid in half-units. -/
def f4Grid : List Nat := [0, 1, 2, 3, 4, 6, 8, 12]

/-- The index of the largest grid value at or below `n / d`. -/
def gridBelow (g : List Nat) (n d : Nat) : Nat :=
  (g.zipIdx.filter (fun p => decide (p.1 * d ≤ n))).length - 1

/-- A magnitude rounded to the F4 grid (R98): its code [2:0]. -/
def roundF4 (n d : Nat) (r : Option Nat) : Nat :=
  -- the value in half-units is 2n / d
  let i := gridBelow f4Grid (2 * n) d
  let lo := f4Grid.getD i 0
  let hi := f4Grid.getD (i + 1) lo
  if lo * d = 2 * n then i
  else if roundUp? (2 * n - lo * d) ((hi - lo) * d) (i % 2 == 1) r then i + 1 else i

/-- A magnitude rounded to the I8B grid of multiples of 2^−6 (R98). -/
def roundI8 (n d : Nat) (r : Option Nat) : Nat :=
  let q := 64 * n / d
  if roundUp? (64 * n % d) d (q % 2 == 1) r then q + 1 else q

/-- The largest element magnitude of a block output (R100, R101). -/
def blockTop (f : TFmt) : Nat × Nat := if f = .f4b then (6, 1) else (127, 64)

/-- JIT scale choice (R100): the smallest scale that holds `amax`. -/
def selectScale (amax : Nat × Nat) (f : TFmt) (hAllowed : Bool) : Nat :=
  if amax.1 = 0 then 0 else
  let q := blockTop f
  let n := amax.1 * q.2
  let d := amax.2 * q.1
  let k := fracLog2 n d
  let g := pow2Frac 1 k
  let x : Int := if n * g.2 = g.1 * d then k else k + 1
  if x ≤ -127 then 0
  else
    let h := pow2Frac 3 (x - 2)
    if hAllowed && fracLe (n, d) h && decide (x - 1 ≤ 127) then 256 + (x - 1 + 127).toNat
    else if x ≤ 127 then (x + 127).toNat
    else if hAllowed then 256 + 254 else 254

/-- The code of an element of a block output: sign and magnitude code (R101); zero has its sign clear. -/
def elementCode (f : TFmt) (neg : Bool) (m : Nat) : Nat :=
  if m = 0 then 0
  else if f = .f4b then m + 8 * b2n neg
  else if neg then 256 - m else m

/-- The magnitude code of ±top (R101). -/
def topCode (f : TFmt) : Nat := if f = .f4b then 7 else 127

/-- Quantisation of a finite value under a block scale (R101): code, and whether it saturated. -/
def quantise (y : Fv) (s : Nat × Nat) (f : TFmt) (r : Option Nat) : Nat × Bool :=
  let n := y.mag.1 * s.2
  let d := y.mag.2 * s.1
  if fracLt (blockTop f) (n, d) then (elementCode f y.neg? (topCode f), true)
  else (elementCode f y.neg? (if f = .f4b then roundF4 n d r else roundI8 n d r), false)

/-- The exact value of a block-format code under a scale (R84); NaN under a non-finite scale (R83). -/
def elementValue (f : TFmt) (c s : Nat) : Fv :=
  if scaleNonfinite s then .nan else
  let v : Int × Nat := match f with
    | .f4b => (f4Val c, 2)
    | .i4b => (i4Val c, 1)
    | .t2b => (t2Val c, 1)
    | _ => (i8Val c, 64)
  let k := scaleVal s
  .fin (decide (v.1 < 0)) (v.1.natAbs * k.1) (v.2 * k.2)

/-- What a conversion counts (R102, R88): elements, zero codes, saturations, non-finite, lossy. -/
structure Counts where
  elems : Nat
  zero : Nat
  sat : Nat
  nonfin : Nat
  lossy : Nat
  deriving DecidableEq, Repr

/-- Nothing counted. -/
def Counts.none : Counts := ⟨0, 0, 0, 0, 0⟩

/-- Counts added. -/
def Counts.add (a b : Counts) : Counts :=
  ⟨a.elems + b.elems, a.zero + b.zero, a.sat + b.sat, a.nonfin + b.nonfin, a.lossy + b.lossy⟩

/-- The largest finite magnitude of values (R100). -/
def amaxOf (l : List Fv) : Nat × Nat :=
  l.foldl (fun a v => if v.isFin && fracLt a v.mag then v.mag else a) (0, 1)

/-- One element converted under a scale (R101, R102): code and counts. -/
def convertElement (y : Fv) (s : Nat × Nat) (f : TFmt) (r : Option Nat) : Nat × Counts :=
  match y with
  | .nan => (0, ⟨1, 0, 0, 1, 0⟩)
  | .inf g => (elementCode f g (topCode f), ⟨1, 0, 0, 1, 0⟩)
  | .fin _ _ _ =>
    let q := quantise y s f r
    (q.1, ⟨1, b2n (q.1 == 0), b2n q.2, 0, 0⟩)

/-! ### Generators (R103 to R106) -/

/-- Left rotation of a 32-bit word. -/
def rotl32 (v n : Nat) : Nat := ((v <<< n) ||| (v >>> (32 - n))) % 2 ^ 32

/-- One draw (R103): the output and the next state. -/
def draw (st : W128) : Nat × W128 :=
  let s0 := bits st.toNat 31 0
  let s1 := bits st.toNat 63 32
  let s2 := bits st.toNat 95 64
  let s3 := bits st.toNat 127 96
  let out := (rotl32 ((s0 + s3) % 2 ^ 32) 9 + s0) % 2 ^ 32
  let t := (s1 <<< 9) % 2 ^ 32
  let s2 := s2 ^^^ s0
  let s3 := s3 ^^^ s1
  let s1 := s1 ^^^ s2
  let s0 := s0 ^^^ s3
  let s2 := s2 ^^^ t
  let s3 := rotl32 s3 11
  (out, BitVec.ofNat 128 (s0 + s1 * 2 ^ 32 + s2 * 2 ^ 64 + s3 * 2 ^ 96))

/-- The lane identifier (R105). -/
def laneId (cl lane : Nat) : Nat := cl % 4096 * 128 + lane % 128

/-- The state that a job seed gives a generator (R104). -/
def seedState (seed : List Byte) (cl lane : Nat) : W128 :=
  let d := (sha3_512 (slice seed 0 32 ++ leBytes 3 (laneId cl lane))).take 16
  let v := leNat d
  BitVec.ofNat 128 (if v = 0 then 1 else v)

/-- A generator of a cluster; one that nothing has set holds the state of the all-zero seed (R106). -/
def genState (gens : Assoc W128) (cl lane : Nat) : W128 :=
  match look gens lane with
  | some g => g
  | none => seedState [] cl lane

/-- A draw of a cluster's generator under SR; none under RNE (R106). -/
def drawIf (sr : Bool) (gens : Assoc W128) (cl lane : Nat) : Option Nat × Assoc W128 :=
  if sr then
    let p := draw (genState gens cl lane)
    (some p.1, put gens lane p.2)
  else (none, gens)

end Sys2Proof.Machine
end

