-- ==== Sys2Proof/Machine/FabSend.lean ====
section
/-! DEFINITION. What the package sends over the fabric: flits (R292, R294), packets (R297), the route choice (R301,
R367) and the start of a transaction on a flow (R303, R304, R307). -/

namespace Sys2Proof.Machine

/-- Words of 32 bits as bytes. -/
def wordsBytes (ws : List Nat) : List Byte := ws.flatMap (leBytes 4)

/-- The header of a packet (R297). -/
def pktHeader (p : Pkt) : List Byte :=
  wordsBytes
    [fieldAt p.cls.toNat 4 28 + fieldAt (b2n p.vn) 1 27 + fieldAt (b2n p.lane) 1 26 + fieldAt (b2n p.e2e) 1 25 +
       fieldAt (b2n p.mc) 1 24 + fieldAt (b2n p.syn) 1 23 + fieldAt p.op.toNat 4 16 + fieldAt p.plen.toNat 13 0,
     fieldAt p.dst.toNat 16 16 + p.src.toNat,
     p.seq.toNat,
     fieldAt p.tag.toNat 16 16 + fieldAt p.status.toNat 8 8 + p.incarn.toNat,
     p.addr.toNat % 2 ^ 32,
     fieldAt (p.addr.toNat / 2 ^ 32) 16 16 + fieldAt p.ttl.toNat 8 8 + p.mcHops.toNat,
     p.cum.toNat,
     p.ecrc.toNat]

/-- The ECRC of a packet: LANE, TTL, MC_HOPS and ECRC count as 0 (R297). -/
def pktEcrc (p : Pkt) : W32 :=
  crc32c (pktHeader { p with lane := false, ttl := 0, mcHops := 0, ecrc := 0 } ++ p.payload)

/-- The packet with its ECRC. -/
def sealPkt (p : Pkt) : Pkt := { p with ecrc := pktEcrc p }

/-- A packet as it stands in a byte stream: payload padded to a multiple of 16 B (R292). -/
def pktBytes (p : Pkt) : List Byte :=
  pktHeader p ++ p.payload ++ List.replicate (roundUp p.payload.length 16 - p.payload.length) 0

/-- Bytes of payload that follow a header: none for a READ request (R297). -/
def payloadLen (cls op plen : Nat) : Nat := if cls = 0 ∧ op = 0 then 0 else plen

/-- A packet read from its bytes (R297). -/
def parsePkt (l : List Byte) : Pkt :=
  let w := fun i => leAt l (4 * i) 4
  let plen := bits (w 0) 12 0
  { cls := BitVec.ofNat 4 (bits (w 0) 31 28), vn := bit (w 0) 27, lane := bit (w 0) 26, e2e := bit (w 0) 25,
    mc := bit (w 0) 24, syn := bit (w 0) 23, op := BitVec.ofNat 4 (bits (w 0) 19 16), plen := BitVec.ofNat 13 plen,
    dst := BitVec.ofNat 16 (w 1 / 65536), src := BitVec.ofNat 16 (w 1), seq := BitVec.ofNat 32 (w 2),
    tag := BitVec.ofNat 16 (w 3 / 65536), status := BitVec.ofNat 8 (w 3 / 256), incarn := BitVec.ofNat 8 (w 3),
    addr := BitVec.ofNat 48 (w 4 + 2 ^ 32 * (w 5 / 65536)), ttl := BitVec.ofNat 8 (w 5 / 256),
    mcHops := BitVec.ofNat 8 (w 5), cum := BitVec.ofNat 32 (w 6), ecrc := BitVec.ofNat 32 (w 7),
    payload := (l.drop 32).take (payloadLen (bits (w 0) 31 28) (bits (w 0) 19 16) plen) }

/-! ### Flits -/

/-- The pair of VN and lane of a flit or packet: REQ0, REQ1, RSP0, RSP1 (R294). -/
def pairIdx (vn lane : Bool) : Nat := 2 * b2n vn + b2n lane

/-- Seal 276 bytes of a flit with its CRC (R292). -/
def sealFlit (l : List Byte) : List Byte := l ++ leBytes 4 (crc32c l).toNat

/-- A flit as its 280 bytes (R292): type, FSEQ, VN, LANE, HDR_OFF and body, with the port's acknowledgement, a NAK that is owed
(R294) and the credits it owes. -/
def flitBytes (p : Port) (ftype fseq : Nat) (vn lane : Bool) (hdrOff : Nat) (body : List Byte) : List Byte :=
  let ack := if p.nakOwed then p.rxExpect.toNat else (p.rxExpect - 1).toNat
  let owed := fun i => min (vgetD p.owed i 0) 255
  sealFlit (wordsBytes
    [fieldAt ftype 4 28 + fieldAt fseq 12 16 + fieldAt ack 12 4 + fieldAt (b2n p.nakOwed) 1 3 + fieldAt (b2n vn) 1 2 +
       fieldAt (b2n lane) 1 1,
     fieldAt (owed 0) 8 24 + fieldAt (owed 1) 8 16 + fieldAt (owed 2) 8 8 + fieldAt (owed 3) 8 0,
     fieldAt hdrOff 8 24] ++ slice body 0 256 ++ List.replicate 8 0)

/-- A flit leaves the port: it carries the acknowledgement and the credits owed. -/
def putFlit (p : Port) (ftype fseq : Nat) (vn lane : Bool) (hdrOff : Nat) (body : List Byte) : Port :=
  { p with wire := flitBytes p ftype fseq vn lane hdrOff body :: p.wire
           owed := p.owed.map (fun n => n - min n 255)
           nakOwed := false
           ackOwed := false }

/-- A port in UP or RAW (R295). -/
def Port.isUp (p : Port) : Bool := p.pstate == 5 || p.pstate == 6

/-- A port that carries packets: UP or RAW, in FABRIC mode (R301). -/
def Port.carries (p : Port) : Bool := p.isUp && p.mode == 1

/-- The pair of a packet that leaves. -/
def OutPkt.pair (o : OutPkt) : Nat := pairIdx o.pkt.vn o.pkt.lane

/-- The next body of a pair's byte stream (R292). -/
structure FlitBody where
  bytes : List Byte
  /-- offset in 16 B units of the first header that begins in it; 0xFF none -/
  hdrOff : Nat
  pkts : List OutPkt
  /-- the queue that is left, and the packets whose last byte went -/
  rest : List OutPkt
  gone : List OutPkt
  deriving DecidableEq, Repr

/-- Up to `room` bytes more of the stream of a pair, from the front of the queue. -/
def fillBody (i : Nat) : List OutPkt → Nat → FlitBody → FlitBody
  | [], _, f => f
  | o :: r, room, f =>
    if o.pair ≠ i ∨ room = 0 then fillBody i r room { f with rest := f.rest ++ [o] }
    else
      let b := ((pktBytes o.pkt).drop o.sent).take room
      let n := o.sent + b.length
      let g := { f with
        bytes := f.bytes ++ b
        hdrOff := if o.sent = 0 ∧ f.hdrOff = 0xFF then f.bytes.length / 16 else f.hdrOff
        pkts := f.pkts ++ [{ o with sent := 0 }] }
      if n = (pktBytes o.pkt).length then fillBody i r (room - b.length) { g with gone := g.gone ++ [o] }
      else fillBody i r 0 { g with rest := g.rest ++ [{ o with sent := n }] }

/-- One DATA flit of a pair: one credit spent, kept in the replay buffer of the last 512 unless the port is RAW (R294). What is
left of its body when the queue runs out is zeros (log entry 6). -/
def sendData (p : Port) (i : Nat) : Port :=
  let f := fillBody i p.outq 256 ⟨[], 0xFF, [], [], []⟩
  let q := putFlit p 1 p.txNext.toNat (i / 2 == 1) (i % 2 == 1) f.hdrOff f.bytes
  let d : Flit := { fseq := p.txNext, vn := i / 2 == 1, lane := i % 2 == 1, hdrOff := BitVec.ofNat 8 f.hdrOff, body := f.bytes,
                    sends := 1, pkts := f.pkts }
  { q with txNext := p.txNext + 1
           turn := BitVec.ofNat 2 i
           outq := f.rest
           credits := vmod q.credits i (· - 1)
           replay := if p.pstate == 6 then [] else (p.replay ++ [d]).drop (p.replay.length + 1 - 512)
           txPkts := satAdd q.txPkts f.gone.length
           txBytes := satAdd q.txBytes ((f.gone.map (fun o => o.pkt.payload.length)).sum) }

/-- The pair that takes the next flit slot (R294): of those with both credit and data, in rotation. -/
def nextPair (p : Port) : Option Nat :=
  ([1, 2, 3, 4].map (fun d => (p.turn.toNat + d) % 4)).find? (fun i =>
    decide (0 < vgetD p.credits i 0) && p.outq.any (fun o => o.pair == i))

/-- Flit slots filled while a pair has credit and data. -/
def pumpAux : Nat → Port → Port
  | 0, p => p
  | f + 1, p =>
    match nextPair p with
    | some i => pumpAux f (sendData p i)
    | none => p

/-- The queue of a port is served; a resend that the partner's NAK asks for goes ahead of new flits (R294). -/
def pump (p : Port) : Port :=
  if p.carries && (p.nakFrom.isNone || p.pstate == 6) then
    pumpAux ((p.outq.map (fun o => (pktBytes o.pkt).length / 256 + 1)).sum) p
  else p

/-- An IDLE flit leaves when no other flit has taken what is owed to the partner: an acknowledgement, a NAK or credits (R292, R294).
Of the flits of the continuous stream that say nothing new none is kept (log entry 44). -/
def flushOwed (p : Port) : Port :=
  if p.isUp && p.mode == 1 && (p.nakOwed || p.ackOwed || p.owed.toList.any (fun n => decide (0 < n))) then
    putFlit p 0 0 false false 0xFF []
  else p

/-! ### Routes -/

/-- The route table entry of a destination (R301). -/
def routeEntry (s : State) (dst : Nat) : Nat := rdNat s (s.fab.routeBase.toNat + 4 * dst) 4

/-- The port that R301 gives for a destination. -/
def routePort (s : State) (dst : Nat) : Option Nat :=
  let e := routeEntry s dst
  if bit e 31 then
    [bits e 23 16, bits e 15 8, bits e 7 0].find? (fun p => decide (p < 22) && (port s p).carries)
  else none

/-- Twin ports that are UP and face the destination (R367, R295). -/
def twinPorts (s : State) (dst : Nat) : List Nat :=
  [22, 23].filter (fun p => (port s p).carries && (port s p).peerId.toNat == dst && dst != 0xFFFF)

/-- The port by which a packet of this package leaves: R367 first, then R301; class TWIN on P22 and P23 only (R298). -/
def egress (s : State) (k : Pkt) : Option Nat :=
  match twinPorts s k.dst.toNat with
  | [p] => some p
  | p :: q :: _ => some (if s.fab.twinAlt then q else p)
  | [] => if k.cls = 3 then none else routePort s k.dst.toNat

/-- A drop counted in FAB_CNT_NOROUTE. -/
def dropNoRoute (s : State) : State := { s with fab := { s.fab with cntNoroute := satAdd s.fab.cntNoroute 1 } }

/-- The lane in which a packet leaves by a port (R300): lane 0 from its source, or where the line changes; else the lane of its
arrival; lane 1 where the port has FAB_DATELINE. -/
def laneOut (s : State) (p : Nat) (came : Option (Nat × Bool)) : Bool :=
  (match came with
   | some (q, lane) => lane && (port s q).line == (port s p).line
   | none => false) || (port s p).dateline

/-- A packet is queued for a port and the port is served. -/
def queueAt (s : State) (p : Nat) (o : OutPkt) : State :=
  modPort s p (fun q => pump { q with outq := q.outq ++ [{ o with pkt := { o.pkt with lane := laneOut s p o.came }, sent := 0 }] })

/-- A packet of this package, made now. -/
def ownPkt (s : State) (k : Pkt) : OutPkt := { pkt := k, since := s.inv.clk, came := none, sent := 0 }

/-- A packet of this package is sent, or dropped when nothing carries it (R300 to R302). With FAB_EN 0 no routed packet is sent, and
FAB_CNT_NOROUTE does not name that cause (R315); class TWIN is not routed (R298). -/
def sendPkt (s : State) (k : Pkt) : State :=
  if k.cls ≠ 3 ∧ s.pkgId = 0xFFFF then dropNoRoute s
  else if k.cls ≠ 3 ∧ s.fab.en = false then s
  else
  match egress s k with
  | some p =>
    let s1 := if (twinPorts s k.dst.toNat).length = 2 then { s with fab := { s.fab with twinAlt := !s.fab.twinAlt } } else s
    queueAt s1 p (ownPkt s k)
  | none => dropNoRoute s

/-! ### Transactions and flows -/

/-- The send flow to a destination. -/
def sendFlow (s : State) (dst : W16) : SendFlow :=
  match s.fab.sends.find? (fun f => f.dst = dst) with
  | some f => f
  | none => { dst := dst, next := 0, started := false,
              e2e := s.fab.e2eAll || bit (routeEntry s dst.toNat) 30, lastActive := s.inv.clk }

/-- A flow runs in E2E (R308): it has entered it, or FAB_E2E_ALL or its route entry's E2E is set. -/
def flowE2e (s : State) (f : SendFlow) : Bool := f.e2e || s.fab.e2eAll || bit (routeEntry s f.dst.toNat) 30

/-- The send flow to a destination can be used: it is there, or the flow area has room for one more of 16,384 (R304). -/
def flowRoom (s : State) (dst : W16) : Bool := s.fab.sends.any (fun f => f.dst == dst) || decide (s.fab.sends.length < 16384)

/-- The send flows with one changed. -/
def putFlow (l : List SendFlow) (f : SendFlow) : List SendFlow := l.filter (fun g => g.dst ≠ f.dst) ++ [f]

/-- The first free transaction slot from `nextTag` on (R303). -/
def freeTag (s : State) : Option W16 :=
  if s.fab.txns.length < 65536 then
    ((List.range (s.fab.txns.length + 1)).map (fun i => s.fab.nextTag + BitVec.ofNat 16 i)).find?
      (fun t => !s.fab.txns.any (fun x => x.tag == t))
  else none

/-- Nothing of a transaction awaits an answer: every answer so far was BUSY (R305, R310). -/
def answered (t : Txn) : Bool := t.busyAt.isSome || (t.pkt.mc && t.mcWait.isEmpty)

/-- Unanswered requests of a flow (R304), in the order of their SEQ. One answered BUSY is answered: it is to go again under a new
SEQ (R305); so is a multicast that every member has answered. -/
def flowOut (s : State) (dst : W16) : List Txn := s.fab.txns.filter (fun x => x.pkt.dst == dst && !answered x)

/-- CUM of a packet of a flow (R297): the lowest SEQ still awaited, the next one when there is none. -/
def flowCum (s : State) (f : SendFlow) : W32 :=
  match (flowOut s f.dst).head? with
  | some x => x.pkt.seq
  | none => f.next

/-- A request of this package: destination, class, operation, address, PLEN and payload. -/
def mkReq (dst : W16) (cls op : Nat) (addr : Nat) (plen : Nat) (payload : List Byte) : Pkt :=
  { cls := BitVec.ofNat 4 cls, vn := false, lane := false, e2e := false, mc := false, syn := false,
    op := BitVec.ofNat 4 op, plen := BitVec.ofNat 13 plen, dst := dst, src := 0, seq := 0, tag := 0, status := 0,
    incarn := 0, addr := BitVec.ofNat 48 addr, ttl := 64, mcHops := 0, cum := 0, ecrc := 0, payload := payload }

/-- A transaction made for a request with a slot and the next SEQ of its flow (R303, R304, R307); none when it must wait for a
slot, for the window of 1,024 or for room in the flow area. -/
def openTxn (s : State) (k : Pkt) (what : TxnFor) (members : List W16) : Option (State × Pkt) :=
  let f := sendFlow s k.dst
  match freeTag s with
  | none => none
  | some tag =>
    if 1024 ≤ (flowOut s k.dst).length ∨ flowRoom s k.dst = false then none else
    let k1 := sealPkt { k with src := s.pkgId, seq := f.next, tag := tag, incarn := s.fab.incarn, e2e := flowE2e s f,
                               syn := !f.started, cum := flowCum s f }
    let t : Txn := { tag := tag, pkt := k1, what := what, sent := s.inv.clk, resends := 0, busyAt := none, mcWait := members
                     mcBusy := [] }
    some ({ s with fab := { s.fab with
      txns := s.fab.txns ++ [t], nextTag := tag + 1,
      sends := putFlow s.fab.sends { f with next := f.next + 1, started := true, e2e := flowE2e s f,
                                            lastActive := s.inv.clk } } }, k1)

/-- A request of this package leaves: a Solder message on every twin port that faces its destination (R368), any other by the port
that R301 and R367 give. -/
def sendOwn (s : State) (k : Pkt) : State :=
  if k.cls = 3 then
    match twinPorts s k.dst.toNat with
    | [] => dropNoRoute s
    | ps => ps.foldl (fun t p => queueAt t p (ownPkt s k)) s
  else sendPkt s k

/-- A line multicast of this package leaves through one port (R310); no line runs over a twin port (R211). -/
def sendAlong (s : State) (p : Nat) (k : Pkt) : State :=
  if s.pkgId = 0xFFFF then dropNoRoute s
  else if s.fab.en = false then s
  else if (port s p).carries && decide (p < 22) then queueAt s p (ownPkt s k)
  else dropNoRoute s

/-- A request starts its transaction and is sent; none when it must wait. -/
def startTxn (s : State) (w : WaitReq) : Option State :=
  match w.line with
  | none => (openTxn s w.pkt w.what []).map (fun r => sendOwn r.1 r.2)
  | some (p, members) => (openTxn s w.pkt w.what members).map (fun r => sendAlong r.1 p r.2)

/-- A request is sent, or waits its turn (R303: none is refused for lack of a slot). -/
def launch (s : State) (w : WaitReq) : State :=
  match startTxn s w with
  | some s1 => s1
  | none => { s with fab := { s.fab with waitq := s.fab.waitq ++ [w] } }

/-- A request to one package is sent, or waits its turn. -/
def sendReq (s : State) (k : Pkt) (what : TxnFor) : State := launch s { pkt := k, what := what, line := none }

/-- Waiting requests are started while slots and windows allow. -/
def launchWaiting (s : State) : State := s.fab.waitq.foldl launch { s with fab := { s.fab with waitq := [] } }

/-- The slots in use end for one tag. -/
def endTxn (s : State) (tag : W16) : State :=
  { s with fab := { s.fab with txns := s.fab.txns.filter (fun x => x.tag ≠ tag) } }

end Sys2Proof.Machine
end

