-- ==== Sys2Proof/Machine/Ops.lean ====
section
/-! DEFINITION. The named operations that every chapter shares: replies (R346), events (R351), the package condition
(R347), and the atomic operations of sync words at their homes (R318 to R324). -/

namespace Sys2Proof.Machine

/-! ### Condition, replies and events -/

/-- A die or a stack is fenced (R347). -/
def anyFenced (s : State) : Bool :=
  s.dies.toList.any (fun d => d.st == .fenced) || s.stk.toList.any (fun k => k.st == .fenced)

/-- COND of R347. -/
def cond (s : State) : Nat :=
  b2n (anyFenced s) + 2 * b2n (s.twin.st == 4) + 4 * b2n s.memblk.failed + 8 * b2n s.memblk.stepOn

/-- The session that a handle names, if it is open (R341). -/
def sessionOf (s : State) (handle : W16) : Option (Nat × Session) :=
  let slot := handle.toNat % 64
  match look s.cmd.sessions slot with
  | some x => if x.gen.toNat = handle.toNat / 64 then some (slot, x) else none
  | none => none

/-- The handle of a session slot (R341). -/
def handleOf (slot : Nat) (x : Session) : W16 := BitVec.ofNat 16 (x.gen.toNat * 64 + slot)

/-- The key set that authenticated a SEQUENCE (R400). -/
def keysFor (x : Session) (seq : W32) : Keys :=
  match (x.old.filter (fun k => decide (seq.toNat ≤ k.2.toNat))).getLast? with
  | some k => k.1
  | none => x.keys

/-- The header of part `i` of `n + 1` of a reply or event (R338, R346). -/
def replyHeader (r : Reply) (i n len : Nat) : List Byte :=
  wordsBytes
    [0x4150554E,
     fieldAt r.opcode.toNat 16 16 + (if r.event then 2 else 1) * 256 + 1,
     fieldAt r.master.toNat 16 16 + r.session.toNat,
     fieldAt i 4 28 + fieldAt n 4 24 + r.stream.toNat,
     r.seq.toNat,
     r.ftDone.toNat % 2 ^ 32, r.ftDone.toNat / 2 ^ 32,
     r.stamp.toNat % 2 ^ 32, r.stamp.toNat / 2 ^ 32,
     len,
     fieldAt r.ftState.toNat 3 24 + fieldAt r.cond.toNat 8 16 + statusCode r.status,
     r.epoch.toNat % 2 ^ 32, r.epoch.toNat / 2 ^ 32,
     r.cursor.toNat % 2 ^ 32, r.cursor.toNat / 2 ^ 32, 0]

/-- The tag of a reply (R340): zeros for AUTH_FAIL, for SESSION_OPEN, and for a session that is not open. -/
def replyTag (s : State) (r : Reply) (n : Nat) : List Byte :=
  if r.status = .authFail ∨ r.opcode = 0x0101 then List.replicate 32 0 else
  match sessionOf s r.session with
  | some (_, x) =>
    let k := if r.event then x.keys else keysFor x r.seq
    kmac256 k.kr (replyHeader r 0 n r.results.length ++ r.results) 32 (ascii "APUNE RSP")
  | none => List.replicate 32 0

/-- The parts of a reply as they are sent (R339, R346). -/
def replyParts (s : State) (r : Reply) : List (List Byte) :=
  let cs := if r.results.isEmpty then [[]] else chunks 4000 17 r.results
  let n := cs.length - 1
  cs.zipIdx.map (fun (c, i) => replyHeader r i n r.results.length ++ c ++ (if i = n then replyTag s r n else []))

/-- The response to a fabric request (R303): it echoes SEQ, TAG and INCARN. -/
def mkRsp (s : State) (k : Pkt) (op : Nat) (st : Status) (payload : List Byte) : Pkt :=
  sealPkt { cls := k.cls, vn := true, lane := false, e2e := k.e2e, mc := false, syn := false, op := BitVec.ofNat 4 op,
            plen := BitVec.ofNat 13 payload.length, dst := k.src, src := s.pkgId, seq := k.seq, tag := k.tag,
            status := BitVec.ofNat 8 (statusCode st), incarn := k.incarn, addr := 0, ttl := 64, mcHops := 0, cum := 0,
            ecrc := 0, payload := payload }

/-- Whether an acknowledgement waits for a reply (R336); an event is none. -/
def ackOf (s : State) (r : Reply) : Option Pkt :=
  if r.event then none else
  match r.port with
  | .fabric src _ => (s.fab.acks.find? (fun a => a.1.src == src && a.2.1 == r.session && a.2.2 == r.seq)).map (·.1)
  | .mgt _ _ _ => none

/-- A reply or event goes out (R336, R346): its parts, the last with the tag, as datagrams, or over the fabric, the first reply in
the ACK of its command. -/
def emit (s : State) (r : Reply) : State :=
  let s1 := { s with cmd := { s.cmd with sent := r :: s.cmd.sent } }
  match r.port with
  | .mgt m ip udp => { s1 with cmd := { s1.cmd with
      mgtOut := (replyParts s r).reverse.map (fun b => ⟨m, none, ip, udp, b⟩) ++ s1.cmd.mgtOut } }
  | .fabric src _ =>
    match ackOf s r, replyParts s r with
    | some k, p :: rest =>
      let s2 := sendPkt { s1 with fab := { s1.fab with acks := s1.fab.acks.filter (fun a => a.1 ≠ k) } }
        (mkRsp s1 k 9 .done p)
      rest.foldl (fun t q => sendReq t (mkReq src 1 0 0 q.length q) .reply) s2
    | _, ps => ps.foldl (fun t q => sendReq t (mkReq src 1 0 0 q.length q) .reply) s1

/-- The kept outcome of a command: the latest reply of its SEQUENCE (R343); a final one ends a KEY_ROTATE (R400). -/
def keepReply (s : State) (r : Reply) : State :=
  match sessionOf s r.session with
  | some (slot, x) =>
    let y := { x with seen := x.seen.map (fun e => if e.1 = r.seq then (e.1, some r) else e)
                      rotating := if statusFinal r.status then x.rotating.filter (· != r.seq) else x.rotating }
    { s with cmd := { s.cmd with sessions := put s.cmd.sessions slot y } }
  | none => s

/-- The parameters of an event, 64 bytes (R351). -/
def eventParams (e : Event) (numbered : Bool) : List Byte :=
  [e.cls, e.code, 0, 0] ++ (if numbered then leBytes 4 e.number.toNat else [0, 0, 0, 0]) ++
    leBytes 8 e.ft.toNat ++ leBytes 8 e.epoch.toNat ++ slice e.detail 0 40

/-- An event is raised: numbered, logged among the last 1,024 and sent to its subscribers (R351, R352). -/
def raise (s : State) (cls : Nat) (code : Byte) (detail : List Byte) : State :=
  let e : Event := { number := s.cmd.eventNo, cls := BitVec.ofNat 8 cls, code := code, ft := s.inv.ft,
                     epoch := s.memblk.epoch, detail := slice detail 0 40 }
  let s1 := { s with cmd := { s.cmd with eventNo := s.cmd.eventNo + 1, events := (e :: s.cmd.events).take 1024 } }
  (s1.cmd.sessions.filter (fun p => p.2.classes.getLsbD cls)).foldl (fun t p =>
    emit t { event := true, opcode := 0x0903, session := handleOf p.1 p.2, master := BitVec.ofNat 16 (0x2000 + p.1),
             stream := 0xFFFF, seq := e.number, status := .done, ftDone := s.inv.ft, stamp := 0,
             ftState := s.inv.state, cond := BitVec.ofNat 8 (cond s), epoch := s.memblk.epoch, cursor := 0,
             results := eventParams e false, port := p.2.port, resent := false }) s1

/-- Event classes of R351. -/
def evTime : Nat := 0
def evMemory : Nat := 1
def evDie : Nat := 2
def evNumeric : Nat := 3
def evLink : Nat := 4
def evPower : Nat := 5
def evTwin : Nat := 6
def evSchedule : Nat := 7
def evFirmware : Nat := 8

/-- An event whose chapter gives no CODE (log entry 7). -/
def raiseOpen (s : State) (cls cause : Nat) (detail : List Byte) : State :=
  raise s cls (Config.eventCode cls cause) detail

/-- The reply of a command as R346 lays it out. -/
def mkReply (s : State) (h : CmdHdr) (op : Nat) (st : Status) (results : List Byte) (cursor : Nat) (epoch : W64) :
    Reply :=
  { event := false, opcode := BitVec.ofNat 16 op, session := h.session, master := h.master, stream := h.stream,
    seq := h.seq, status := st, ftDone := s.inv.ft, stamp := h.stamp, ftState := s.inv.state,
    cond := BitVec.ofNat 8 (cond s), epoch := epoch,
    cursor := match h.occurrence with
      | some k => BitVec.ofNat 64 k
      | none => BitVec.ofNat 64 cursor
    results := results, port := h.port, resent := false }

/-- The counters that follow a final status (R42, R364). -/
def countStatus (s : State) (st : Status) : State :=
  match st with
  | .busy => { s with cmd := { s.cmd with cntBusy := satAdd s.cmd.cntBusy 1 } }
  | .windowMissed => { s with inv := { s.inv with cntWindowMissed := satAdd s.inv.cntWindowMissed 1 } }
  | .notYet => { s with inv := { s.inv with cntNotYet := satAdd s.inv.cntNotYet 1 } }
  | _ => s

/-- The status of a reply enters the record that the replay log keeps of its command (R371), which its ingress stamp tells from an
earlier command of the same number. -/
def logStatus (s : State) (r : Reply) : State :=
  { s with twin := { s.twin with log := s.twin.log.map (fun x => { x with records := x.records.map (fun y =>
      if y.kind = 0 ∧ y.opcode = r.opcode ∧ y.seq = r.seq ∧ y.master = r.master ∧ y.ft = r.stamp then
        { y with status := BitVec.ofNat 8 (statusCode r.status) }
      else y) }) } }

/-- A reply of a command with its cursor and epoch (R346), kept for duplicates (R343); the replies of an occurrence are its own
(log entry 19). An occurrence of the schedule
that ends other than DONE raises a SCHEDULE event (R351). -/
def replyFull (s : State) (h : CmdHdr) (op : Nat) (st : Status) (results : List Byte) (cursor : Nat) (epoch : W64) :
    State :=
  let r := mkReply s h op st results cursor epoch
  let s0 := emit s r
  let s1 := logStatus (countStatus (if h.occurrence.isSome then s0 else keepReply s0 r) st) r
  if h.occurrence.isSome && statusFinal st && st != .done then
    raiseOpen s1 evSchedule 1 (leBytes 4 h.seq.toNat) else s1

/-- A reply of a command (R346). -/
def reply (s : State) (h : CmdHdr) (op : Nat) (st : Status) (results : List Byte) : State :=
  replyFull s h op st results 0 s.memblk.epoch

/-- The state of FT_STATE changed: a change raises a time event (R41). -/
def setFtState (s : State) (st : Nat) : State :=
  let v : BitVec 3 := BitVec.ofNat 3 st
  if s.inv.state = v then s else
    raiseOpen { s with inv := { s.inv with state := v } } evTime 1 [BitVec.ofNat 8 st]

/-! ### Long operations (R349) -/

/-- A long operation starts. -/
def startLong (s : State) (h : CmdHdr) (op : Nat) (k : LongKind) : State :=
  let o : LongOp := { id := s.cmd.nextLong, hdr := h, opcode := BitVec.ofNat 16 op, kind := k, cursor := 0,
                      lastReply := s.inv.clk }
  { s with cmd := { s.cmd with longs := s.cmd.longs ++ [o], nextLong := s.cmd.nextLong + 1 } }

/-- A long operation starts and ends its first slice: IN_PROGRESS (R349). -/
def startLongReply (s : State) (h : CmdHdr) (op : Nat) (k : LongKind) : State :=
  reply (startLong s h op k) h op .inProgress []

/-- The long operation of an id. -/
def longOp (s : State) (id : Nat) : Option LongOp := s.cmd.longs.find? (fun o => o.id == id)

/-- The first long operation whose kind passes a test. -/
def findLong (s : State) (p : LongKind → Bool) : Option LongOp := s.cmd.longs.find? (fun o => p o.kind)

/-- A long operation changed. -/
def modLong (s : State) (id : Nat) (f : LongOp → LongOp) : State :=
  { s with cmd := { s.cmd with longs := s.cmd.longs.map (fun o => if o.id = id then f o else o) } }

/-- A long operation ends with its final reply (R349). -/
def endLong (s : State) (o : LongOp) (st : Status) (results : List Byte) : State :=
  replyFull { s with cmd := { s.cmd with longs := s.cmd.longs.filter (fun x => x.id ≠ o.id) } }
    o.hdr o.opcode.toNat st results o.cursor.toNat s.memblk.epoch

/-- Every long operation whose kind passes a test ends with a status. -/
def endLongs (s : State) (p : LongKind → Bool) (st : Status) (results : List Byte) : State :=
  (s.cmd.longs.filter (fun o => p o.kind)).foldl (fun t o => endLong t o st results) s

/-! ### Sync words (R318 to R324) -/

/-- VALUE of a sync word (R318). -/
def wordValue (w : Nat) : Nat := w % 2 ^ 48

/-- ORPHAN of a sync word (R318). -/
def wordOrphan? (w : Nat) : Bool := bit w 63

/-- A sync word with another VALUE (R318). -/
def wordWith (w v : Nat) : Nat := w / 2 ^ 48 * 2 ^ 48 + v % 2 ^ 48

/-- Whether a sync word may lie at an address (R319). -/
def wordPlace (a : Nat) : Bool :=
  aligned a 8 &&
  (match place a with
   | .stack _ _ => true
   | .store _ o => decide (o < accOffset)
   | _ => false)

/-- The home of a sync word (R319): a store or a stack controller, as its access-table target. -/
def homeOf (a : Nat) : Nat := (place a).target

/-- Entries of a home's watch table in use (R322, R324). -/
def watchUsed (s : State) (a : Nat) : Nat :=
  (s.sync.waiters.filter (fun w => homeOf w.addr.toNat == homeOf a)).length +
  (s.sync.monitors.filter (fun m => homeOf m.addr.toNat == homeOf a)).length

/-- Entries of a home's watch table (R322). -/
def watchSize (a : Nat) : Nat := if homeOf a < 0x1000 then 64 else 4096

/-- Two addresses of one sync word: an interleaved view and the linear view alias (R28). -/
def sameWord (a b : Nat) : Bool := keyOf a == keyOf b

/-- The monitors of a word whose threshold its VALUE now meets are to fire (R324). -/
def markMonitors (s : State) (a : Nat) : State :=
  let v := wordValue (rdNat s a 8)
  { s with sync := { s.sync with monitors := s.sync.monitors.map (fun m =>
      if sameWord m.addr.toNat a && decide (m.n.toNat ≤ v) then { m with due := true } else m) } }

/-- Every monitor of a word is to fire: its word was orphaned or its line poisoned (R320, R324). -/
def markAllMonitors (s : State) (a : Nat) : State :=
  { s with sync := { s.sync with monitors := s.sync.monitors.map (fun m =>
      if sameWord m.addr.toNat a then { m with due := true } else m) } }

/-- A sync word takes a new VALUE; its monitors are looked at. -/
def setWord (s : State) (a v : Nat) : State := markMonitors (wrNat s a 8 (wordWith (rdNat s a 8) v)) a

/-- An operation performed at a home (R334). -/
def countOp (s : State) : State := { s with sync := { s.sync with cntOps := satAdd s.sync.cntOps 1 } }

/-- A sync operation at the word's home (R320): SOP, operand, and for MONITOR the notification word and its master.
It answers the status and the observed value. -/
def syncOp (s : State) (mid a sop n : Nat) (notify : Bool × W64) : State × Status × Nat :=
  if !wordPlace a || decide (2 ^ 48 ≤ n) || decide (4 < sop) then (s, .badParam, 0)
  else if poisoned s a 8 then (s, .degraded, 0)
  else
    let w := rdNat s a 8
    let v := wordValue w
    if wordOrphan? w then (s, .ownerLost, 0)
    else match sop with
      | 0 => (setWord (countOp s) a (v + n), .done, v)
      | 1 => if n ≤ v then (setWord (countOp s) a (v - n), .done, v)
             else (let t := countOp s
                   { t with sync := { t.sync with cntUnderflow := satAdd t.sync.cntUnderflow 1 } }, .underflow, v)
      | 2 => if 1 ≤ v then (setWord (countOp s) a (v - 1), .done, v)
             else (let t := countOp s
                   { t with sync := { t.sync with cntRetry := satAdd t.sync.cntRetry 1 } }, .retry, 0)
      | 3 => (countOp s, if n ≤ v then .done else .retry, v)
      | _ => if watchSize a ≤ watchUsed s a then (s, .busy, v)
             else (let t := countOp s
                   { t with sync := { t.sync with monitors := t.sync.monitors ++
                     [{ addr := BitVec.ofNat 48 a, n := BitVec.ofNat 48 n, notify := notify.2,
                        notifyLocal := notify.1, master := BitVec.ofNat 16 mid, due := decide (n ≤ v) }] } }, .done, v)

/-- A sync operation of a master, checked at its target first (R30, R319, R405). -/
def syncAccess (s : State) (mid a sop n : Nat) (notify : Bool × W64) : State × Status × Nat :=
  match accessStatus s mid a 8 .atomic with
  | .badParam => (s, .badParam, 0)
  | st =>
    if !wordPlace a then (s, .badParam, 0)
    else if st ≠ .done then (noteAccess s st, st, 0)
    else syncOp s mid a sop n notify

/-- An ADD made by the package itself on a local word: an ADD that meets an orphaned word is discarded and counted in
SYNC_CNT_ORPHAN, and its maker treats it as made (R320). -/
def localAdd (s : State) (mid a n : Nat) : State × Status :=
  let r := syncAccess s mid a 0 n (false, 0)
  if r.2.1 = .ownerLost then
    ({ r.1 with sync := { r.1.sync with cntOrphan := satAdd r.1.sync.cntOrphan 1 } }, .done)
  else (r.1, r.2.1)

/-- A completion ADD to a global address: at once on a local word, else a fabric COUNT (R306), whose answer is still
to come. -/
def globalAdd (s : State) (mid : Nat) (g : W64) (n : Nat) (what : TxnFor) : State × Option Status :=
  match localOf s g with
  | some a => let r := localAdd s mid a n; (r.1, some r.2)
  | none => (sendReq s (mkReq (BitVec.ofNat 16 (g.toNat / 2 ^ 48)) 0 3 (g.toNat % 2 ^ 48) 8 (leBytes 8 n)) what, none)

/-- The indexed words of the owners of some codes are to be orphaned (R328). -/
def orphanOwners (s : State) (lost : Nat → Bool) : State :=
  { s with sync := { s.sync with orphans := s.sync.orphans ++
      (s.sync.index.filter (fun e => lost e.2.toNat && !s.sync.orphans.contains e.1)).map (·.1) } }

/-- The indexed words of an owner are to be orphaned (R328). -/
def orphanOwner (s : State) (code : Nat) : State := orphanOwners s (fun c => c == code)

/-- The owner code of a stream (R326). -/
def streamCode (c : Nat) : Bool := decide (c < 0x4000)

/-- The owner code of an engine, and the master ID that it stands for (R326). -/
def engineCode (c : Nat) : Bool := decide (0x4000 ≤ c) && decide (c ≤ 0x403F)
def engineMaster (c : Nat) : Nat := 0x1000 + (c - 0x4000)

end Sys2Proof.Machine
end

