-- ==== Sys2Proof/Machine/Guard.lean ====
section
/-! DEFINITION. The numeric guard (R144 to R162): latching its configuration, what conversions record, the scale tracker
and the override sweep of a commit, and the undoing of commits. -/

namespace Sys2Proof.Machine

/-- Linear address of guard entry `t` (R145). -/
def guardEntry (s : State) (t : Nat) : Nat := s.guard.tableBase.toNat + 128 * t

/-- Word `i` of guard entry `t` in memory. -/
def guardWord (s : State) (t i : Nat) : Nat := rdNat s (guardEntry s t + 4 * i) 4

/-- Words written in a guard entry from word `i`. -/
def setGuardWords (s : State) (t i : Nat) (ws : List Nat) : State := wrBytes s (guardEntry s t + 4 * i) (wordsBytes ws)

/-- A latched configuration word of an entry (R146). -/
def cfgWord (c : List W32) (i : Nat) : Nat := (c.getD i 0).toNat

/-- Formats of a guard entry (R145). -/
inductive GFmt where
  | f4b | i8b | count
  deriving DecidableEq, Repr

/-- FMT of an entry; 3 is reserved. -/
def cfgFmt (c : List W32) : Option GFmt := [GFmt.f4b, .i8b, .count][bits (cfgWord c 0) 29 28]?

/-- PACK of an entry is S8. -/
def cfgS8 (c : List W32) : Bool := bit (cfgWord c 0) 30

/-- OV_MODE of an entry is PER_ROW. -/
def cfgPerRow (c : List W32) : Bool := bit (cfgWord c 0) 27

/-- XCAP of an entry. -/
def cfgXcap (c : List W32) : Int := sext 8 (bits (cfgWord c 0) 15 8)

/-- OV_BLOCKS of an entry. -/
def cfgBlocks (c : List W32) : Nat := bits (cfgWord c 3) 23 0

/-- OV_ROWS of an entry. -/
def cfgRows (c : List W32) : Nat := bits (cfgWord c 4) 23 0

/-- OV_BASE of an entry. -/
def cfgBase (c : List W32) : Nat := cfgWord c 5 + 2 ^ 32 * cfgWord c 6

/-- Override records of an entry. -/
def cfgRecords (c : List W32) : Nat := cfgBlocks c * (if cfgPerRow c then cfgRows c else 1)

/-- The scale of the cap of R151: H 1 under S9, exponent XCAP − 1. -/
def capScale (c : List W32) : Nat := (if cfgS8 c then 0 else 256) + (cfgXcap c - 1 + 127).toNat

/-- A VALID entry that R146 accepts. -/
def cfgAccepted (c : List W32) : Bool :=
  let w0 := cfgWord c 0
  let decay := f32 (cfgWord c 1)
  (cfgFmt c).isSome && bits w0 26 22 != 0 && decide (bits w0 19 16 ≤ 8) &&
  (cfgPerRow c || cfgRows c == 1) &&
  decide (cfgBase c + cfgRecords c ≤ linearEnd) &&
  (match decay with
   | .fin g n d => (n == 0 || !g) && decide (n < d)
   | _ => false) &&
  decide (-126 ≤ cfgXcap c) &&
  bits (cfgWord c 2) 7 0 != 255 &&
  !(bit (cfgWord c 2) 8 && cfgS8 c)

/-- The bytes of a range of linear stack addresses that may differ from 0, with their addresses. -/
def nonzeroBytes (s : State) (a n : Nat) : List (Nat × Byte) :=
  if s.mem.vague.any (fun v => decide (v.lo < a + n) && decide (a < v.stop)) then
    (List.range n).map (fun i => (a + i, s.mem.read (a + i)))
  else s.mem.cells.filter (fun c => decide (a ≤ c.1) && decide (c.1 < a + n))

/-- The TIDs whose entry in memory may hold a nonzero byte. -/
def tableTids (s : State) : List Nat :=
  let b := s.guard.tableBase.toNat
  ((nonzeroBytes s b 0x80000).map (fun c => (c.1 - b) / 128)).dedup

/-- Words 0 to 7 of an entry in memory. -/
def readCfg (s : State) (t : Nat) : List W32 := (List.range 8).map (fun i => BitVec.ofNat 32 (guardWord s t i))

/-- Word 9 of an entry: SCALE, CEIL, CAPPED (R145). -/
def word9 (scale : Nat) (ceil : Int) (capped : Bool) : Nat :=
  fieldAt scale 9 16 + fieldAt (wrap 8 ceil) 8 8 + b2n capped

/-- The start of a newly VALID entry (R146). R146 gives no CEIL and no EPOCH for it: the model takes CEIL from the starting SCALE,
the exponent that a TRACKED block without an override carries, and leaves words 12 and 13 as memory holds them (DESIGN CHOICE,
log entry 82). -/
def startEntry (s : State) (t : Nat) (c : List W32) : State :=
  let init := bits (cfgWord c 2) 8 0
  let sc := if cfgXcap c - 1 < ((init % 256 : Nat) : Int) - 127 then capScale c else init
  let s1 := setGuardWords s t 8 [0, word9 sc (((sc % 256 : Nat) : Int) - 127) false, 0]
  setGuardWords s1 t 16 (List.replicate 16 0)

/-- GUARD_LATCH (R146): every VALID entry that R146 accepts is latched, and newly VALID ones start. What conversions have
accumulated since the last commit belongs to the step that starts (R148) and stays for the entries latched again. While GUARD_EN
is 0 nothing is latched. -/
def guardLatch (s : State) : State :=
  if !s.guard.en then s else
  let valid := (tableTids s).filter (fun t => bit (guardWord s t 0) 31)
  let acc := valid.filter (fun t => cfgAccepted (readCfg s t))
  let cfg := acc.foldl (fun a t => put a t (readCfg s t)) ([] : Assoc (List W32))
  let fresh := acc.filter (fun t => (look s.guard.cfg t).isNone)
  let s1 := fresh.foldl (fun u t => startEntry u t (lookD cfg t [])) s
  { s1 with guard := { s1.guard with
      cfg := cfg
      acc := s.guard.acc.filter (fun e => (look s.guard.cfg e.1).isSome && (look cfg e.1).isSome)
      rejected := valid.length - acc.length } }

/-! ### What a conversion meets and records -/

/-- What a TID names (R144): a reserved one, an untracked tensor, or the entry of a tracked one. -/
inductive Tracking where
  | reserved
  | untracked
  | tracked (t : Nat) (c : List W32)
  deriving DecidableEq, Repr

/-- What a TID names; while GUARD_EN is 0 every TID is untracked (R144, R166). -/
def trackingOf (s : State) (tid : Nat) : Tracking :=
  if !s.guard.en then .untracked
  else if 0x1000 ≤ tid ∧ tid ≤ 0xFFFE then .reserved
  else match look s.guard.cfg tid with
    | some c => .tracked tid c
    | none => .untracked

/-- A descriptor's TID is a reserved one (R144). -/
def tidReserved (s : State) (tid : Nat) : Bool := trackingOf s tid == .reserved

/-- The pairing check of R147 between a destination and its entry. -/
def pairingOk (c : List W32) (f : TFmt) (s8 : Bool) : Bool :=
  match cfgFmt c, f with
  | some .f4b, .f4b => cfgS8 c == s8
  | some .i8b, .i8b => cfgS8 c == s8
  | some .count, .fp32 => true
  | some .count, .bf16 => true
  | _, _ => false

/-- The bounds check of R147 on an override record: block and, in PER_ROW mode, row. -/
def recordOk (c : List W32) (m k : Nat) : Bool :=
  decide (k / 32 < cfgBlocks c) && (!cfgPerRow c || decide (m < cfgRows c))

/-- The address of the override record of element `k` in row `m` (R155). -/
def recordAddr (c : List W32) (m k : Nat) : Nat :=
  cfgBase c + (if cfgPerRow c then m * cfgBlocks c else 0) + k / 32

/-- The scale of a TRACKED conversion of a block (R100): SCALE with E raised by 1, up to 254, under an override; and
whether the override is in force. DESIGN CHOICE (log entry 91): where PACK became S8 while SCALE has H = 1, the block is quantised with
that H, and its store keeps E alone. -/
def trackedScale (s : State) (t : Nat) (c : List W32) (m k : Nat) : Nat × Bool :=
  let sc := bits (guardWord s t 9) 24 16
  let ov := bit (rdByte s (recordAddr c m k)).toNat 7
  (if ov && decide (sc % 256 < 254) then sc + 1 else sc, ov)

/-- A magnitude rounded toward +infinity to FP32, saturating at the largest finite value (R150). -/
def ceilF32 (a : Nat × Nat) : Nat :=
  if a.1 = 0 then 0 else
  let k := fracLog2 a.1 a.2
  if 128 ≤ k then 0x7F7FFFFF else
  let kk := if k < -126 then -126 else k
  let q := pow2Frac 1 (kk - 23)
  let n := a.1 * q.2
  let d := a.2 * q.1
  min ((kk + 126).toNat * 2 ^ 23 + ceilDiv n d) 0x7F7FFFFF

/-- Nothing accumulated. -/
def GAcc.none : GAcc := ⟨0, 0, 0, 0, 0, 0, 0⟩

/-- Counts of a conversion added to an entry's accumulators, or to the untracked counters (R144, R157). -/
def addCounts (s : State) (tr : Tracking) (n : Counts) (amax : Nat × Nat) (flagged : Nat) : State :=
  match tr with
  | .tracked t _ =>
    let a := lookD s.guard.acc t GAcc.none
    let m := ceilF32 amax
    let b : GAcc := { amax := if a.amax.toNat < m then BitVec.ofNat 32 m else a.amax, elems := a.elems + n.elems,
                      zero := a.zero + n.zero, sat := a.sat + n.sat, nonfin := a.nonfin + n.nonfin,
                      lossy := a.lossy + n.lossy, flagged := a.flagged + flagged }
    { s with guard := { s.guard with acc := put s.guard.acc t b } }
  | _ =>
    { s with guard := { s.guard with untrkElems := satAdd s.guard.untrkElems n.elems,
                                     untrkSat := satAdd s.guard.untrkSat n.sat,
                                     untrkNonfin := satAdd s.guard.untrkNonfin n.nonfin } }

/-- FLAG and HIGH of a block's record (R154): an OR into the record; answers whether FLAG rose. -/
def setFlags (s : State) (c : List W32) (m k : Nat) (flag high : Bool) : State × Bool :=
  let a := recordAddr c m k
  let r := (rdByte s a).toNat
  let v := r ||| (64 * b2n flag) ||| (32 * b2n high)
  (if v = r then s else wrBytes s a [BitVec.ofNat 8 v], flag && !bit r 6)

/-- A finite element that needed the override under the raised scale (R154). -/
def needsHigh (f : TFmt) (s : Nat × Nat) (y : Fv) : Bool :=
  y.isFin && fracLt (fracMul (blockTop f) (1, 2)) (y.mag.1 * s.2, y.mag.2 * s.1)

/-- One block converted (R100 to R102): its elements with the draws of each, JIT or TRACKED. -/
structure BlockOut where
  codes : List Nat
  scale : Nat
  counts : Counts
  flag : Bool
  high : Bool
  deriving DecidableEq, Repr

/-- The conversion of one block of elements under a scale. -/
def convertBlock (ys : List (Fv × Option Nat)) (f : TFmt) (scale : Nat) (ov : Bool) : BlockOut :=
  let sv := scaleVal scale
  let es := ys.map (fun p => convertElement p.1 sv f p.2)
  { codes := es.map (·.1), scale := scale, counts := es.foldl (fun a e => a.add e.2) Counts.none,
    flag := es.any (fun e => e.2.sat != 0),
    high := ov && ys.any (fun p => needsHigh f sv p.1) }

/-- The scale of a block: JIT from its own values, TRACKED from the guard (R100); and whether a TRACKED override is in
force. -/
def blockScale (s : State) (tr : Tracking) (f : TFmt) (s8 trackedSrc : Bool) (ys : List Fv) (m k : Nat) : Nat × Bool :=
  match trackedSrc, tr with
  | true, .tracked t c => trackedScale s t c m k
  | _, _ => (selectScale (amaxOf ys) f (!s8), false)

/-- What the guard records of one converted block (R150, R154, R157). -/
def recordBlock (s : State) (tr : Tracking) (m k : Nat) (ys : List Fv) (o : BlockOut) : State :=
  match tr with
  | .tracked _ c =>
    let p := if o.flag || o.high then setFlags s c m k o.flag o.high else (s, false)
    addCounts p.1 tr o.counts (amaxOf ys) (b2n p.2)
  | _ => addCounts s tr o.counts (amaxOf ys) 0

/-! ### Commit -/

/-- One step of the sweep on a record (R156). -/
def sweepRecord (hold r : Nat) : Nat :=
  let ov := bit r 7
  let clean := r % 32
  if bit r 6 then 128
  else if ov && bit r 5 then 128
  else if ov then (if hold ≤ clean + 1 then 0 else 128 + (clean + 1))
  else clean

/-- The override sweep of an entry (R156): the state, the records changed as index and old value, and the overrides in
force. A record that is 0 stays 0. -/
def overrideSweep (s : State) (c : List W32) : State × List (Nat × Nat) × Nat :=
  let b := cfgBase c
  let hold := bits (cfgWord c 0) 26 22
  let recs := nonzeroBytes s b (cfgRecords c)
  let ch := recs.filter (fun x => sweepRecord hold x.2.toNat != x.2.toNat)
  let s1 := ch.foldl (fun u x => wrBytes u x.1 [BitVec.ofNat 8 (sweepRecord hold x.2.toNat)]) s
  (s1, ch.map (fun x => (x.1 - b, x.2.toNat)), (recs.filter (fun x => bit (sweepRecord hold x.2.toNat) 7)).length)

/-- A count saturating at 32 bits. -/
def sat32 (n : Nat) : Nat := min n 0xFFFFFFFF

/-- A count saturating at 64 bits. -/
def sat64 (n : Nat) : Nat := min n (2 ^ 64 - 1)

/-- The new H of an entry (R151). -/
def trackH (h amax : Nat) (decay : Nat) : Nat :=
  if amax = 0 then h
  else if fracLe (f32 h).mag (f32 amax).mag then amax
  else ffma decay (fsub h amax) amax

/-- TRACKER_COMMIT of one entry (R151, R156, R158, R159) for a committed epoch: the state, what an undo needs, and whether an
event is due for T_NONFIN or for CAPPED. OV_IN_FORCE saturates (DESIGN CHOICE, log entry 92). -/
def trackerCommit (s : State) (epoch t : Nat) (c : List W32) : State × List W32 × List (Nat × Nat) × Bool × Bool :=
  let a := lookD s.guard.acc t GAcc.none
  let old := (List.range 24).map (fun i => BitVec.ofNat 32 (guardWord s t (i + 8)))
  let w9 := guardWord s t 9
  let h := trackH (guardWord s t 8) a.amax.toNat (cfgWord c 1)
  let fmt := cfgFmt c
  let scCap : Nat × Bool :=
    if (f32 h).mag.1 = 0 ∨ fmt = some .count then (bits w9 24 16, bit w9 0)
    else
      let m := (f32 h).mag
      let sel := selectScale (m.1 * 2 ^ bits (cfgWord c 0) 19 16, m.2) (if fmt = some .f4b then .f4b else .i8b) (!cfgS8 c)
      if cfgXcap c - 1 < ((sel % 256 : Nat) : Int) - 127 then (capScale c, true) else (sel, false)
  let sw := overrideSweep s c
  let ceil : Int := ((scCap.1 % 256 : Nat) : Int) - 127 + (if sw.2.2 = 0 then 0 else 1)
  let s1 := setGuardWords sw.1 t 8 [h, word9 scCap.1 ceil scCap.2, sat32 sw.2.2]
  let s2 := setGuardWords s1 t 12 [epoch % 2 ^ 32, epoch / 2 ^ 32]
  let two : Nat → List Nat := fun v => [v % 2 ^ 32, v / 2 ^ 32]
  let cum := fun (i : Nat) => guardWord s t i + 2 ^ 32 * guardWord s t (i + 1)
  let s3 := setGuardWords s2 t 16 (two epoch ++ two (sat64 a.elems) ++
    [sat32 a.zero, sat32 a.sat, sat32 a.nonfin, sat32 a.lossy, a.amax.toNat, sat32 a.flagged] ++
    two (sat64 (cum 26 + sat64 a.elems)) ++ two (sat64 (cum 28 + sat32 a.sat)) ++ two (sat64 (cum 30 + sat32 a.nonfin)))
  (s3, old, sw.2.1, a.nonfin != 0, scCap.2 && !bit w9 0)

/-- An entry of the guard log (R161): TID, record index, old value. -/
def guardLogEntry (r : Nat × Nat × Byte) : List Byte := leBytes 8 (r.1 * 2 ^ 52 + r.2.1 * 256 + r.2.2.toNat)

/-- The entries of a commit written at GUARD_LOG_BASE, those of epoch e in quarter e mod 4 (R161; log entry 38). -/
def guardLogWrite (s : State) (u : GUndo) : State :=
  wrBytes s (s.guard.logBase.toNat + u.epoch.toNat % 4 * (8 * s.guard.logRecs.toNat)) (u.recs.flatMap guardLogEntry)

/-- The last four commits that the guard keeps, with one more (R160). -/
def guardKeep (g : Guard) (u : GUndo) : Guard :=
  { g with log := (u :: g.log).take 4, bare := g.bare.filter (· != u.epoch) }

/-- DETAIL of a numeric event: the TID, then the epoch, as two uint64. R159 gives no layout, and no TID for an overflow of the log,
which takes 0xFFFF; the event's own EPOCH is the committed epoch, one below, as the commit instant is still to come (DESIGN
CHOICE, log entry 26). -/
def numericDetail (t epoch : Nat) : List Byte := leBytes 8 t ++ leBytes 8 epoch

/-- Guard work of a STEP_COMMIT (R151, R156, R158, R159, R161): every latched VALID entry, then the log of the commit.
While GUARD_EN is 0 there is none, and the commit leaves nothing to undo (R146). A GUARD_LOG_RECS of 0 makes every commit
unreplayable (R166). Its events come by rising TID, T_NONFIN before CAPPED, the overflow of the log last (DESIGN CHOICE, log entry 93). -/
def guardCommit (s : State) (epoch : Nat) : State :=
  let e64 := BitVec.ofNat 64 epoch
  if !s.guard.en then
    { s with guard := { s.guard with
        acc := []
        bare := if s.guard.logRecs = 0 then s.guard.bare else (e64 :: s.guard.bare).take 4 } }
  else
  let r := s.guard.cfg.foldl (fun (p : State × List (Nat × List W32) × List (Nat × Nat × Byte) × List (Nat × Bool × Bool))
      (e : Nat × List W32) =>
    let q := trackerCommit p.1 epoch e.1 e.2
    (q.1, p.2.1 ++ [(e.1, q.2.1)], p.2.2.1 ++ q.2.2.1.map (fun x => (e.1, x.1, BitVec.ofNat 8 x.2)),
     p.2.2.2 ++ [(e.1, q.2.2.2.1, q.2.2.2.2)])) (s, [], [], [])
  let spilled := decide (s.guard.logRecs.toNat < r.2.2.1.length)
  let u : GUndo := { epoch := e64, words := r.2.1, recs := if spilled then [] else r.2.2.1,
                     overflow := spilled || s.guard.logRecs == 0, table := s.guard.tableBase.toNat,
                     bases := s.guard.cfg.map (fun c => (c.1, cfgBase c.2)) }
  let s0 := guardLogWrite r.1 u
  let s1 := { s0 with guard := guardKeep { s0.guard with acc := [] } u }
  let s2 := r.2.2.2.foldl (fun w e =>
    let w1 := if e.2.1 then raiseOpen w evNumeric 1 (numericDetail e.1 epoch) else w
    if e.2.2 then raiseOpen w1 evNumeric 2 (numericDetail e.1 epoch) else w1) s1
  if spilled then raiseOpen s2 evNumeric 3 (numericDetail 0xFFFF epoch) else s2

/-! ### Replay (R160) -/

/-- REPLAY of the step in progress: accumulators discarded, FLAG and HIGH cleared in every record (R160). -/
def guardDiscard (s : State) : State :=
  let s1 := s.guard.cfg.foldl (fun u e =>
    let b := cfgBase e.2
    (nonzeroBytes u b (cfgRecords e.2)).foldl
      (fun w x => wrBytes w x.1 [x.2 &&& 0x9F]) u) s
  { s1 with guard := { s1.guard with acc := [] } }

/-- The words and records that one commit changed put back (R160), at the addresses that they had at that commit. -/
def guardRestore (s : State) (u : GUndo) : State :=
  let s1 := u.words.foldl (fun w e =>
    let v := e.2.map BitVec.toNat
    wrBytes (wrBytes w (u.table + 128 * e.1 + 32) (wordsBytes (v.take 6))) (u.table + 128 * e.1 + 64) (wordsBytes (v.drop 8))) s
  u.recs.foldl (fun w r => wrBytes w (lookD u.bases r.1 0 + r.2.1) [r.2.2]) s1

/-- The commit of an epoch undone, if it is the newest that the guard keeps (R160); nothing of it is left to undo after that. -/
def guardUndo (s : State) (e : W64) : State :=
  match s.guard.log with
  | [] => s
  | u :: rest =>
    if u.epoch ≠ e then s else
    let s1 := guardRestore s u
    { s1 with guard := { s1.guard with log := rest, bare := (e :: s1.guard.bare).take 4 } }

/-- Whether the guard can undo the commit of an epoch (R161): it is the newest in the log and has not overflowed it, or it left
nothing to undo. -/
def guardCanUndo (s : State) (e : W64) : Bool :=
  s.guard.bare.contains e ||
  (match s.guard.log with
   | [] => false
   | u :: _ => u.epoch == e && !u.overflow)

/-- The log starts empty: a changed log area (R167), or a restore (R162). -/
def Guard.emptied (g : Guard) : Guard := { g with log := [], bare := [] }

end Sys2Proof.Machine
end

