-- ==== Sys2Proof/Machine/Operands.lean ====
section
/-! DEFINITION. Operand forms of a cluster program: instruction fields (R116), scalar registers (R111), tensor
descriptors and their elements (R123, R124, R84, R85) and DMA descriptors (R130). -/

namespace Sys2Proof.Machine

/-! ### Instruction words -/

/-- Bits of a word of an instruction (R116). -/
def Issued.f (i : Issued) (word hi lo : Nat) : Nat := bits i.w.toNat (32 * word + hi) (32 * word + lo)

/-- CLS of an instruction word. -/
def insCls (w : W128) : Nat := bits w.toNat 31 29

/-- OP of an instruction word. -/
def insOp (w : W128) : Nat := bits w.toNat 28 24

/-- WT of an instruction word. -/
def insWt (w : W128) : Bool := bit w.toNat 23

/-- The operations that a class defines (R118, R126, R130, R132, R133). -/
def opDefined (cls op : Nat) : Bool :=
  match cls with
  | 0 => decide (op ≤ 6)
  | 1 => decide (op ≤ 0x16)
  | 2 => decide (op = 0)
  | 3 => decide (op ≤ 5)
  | 4 => decide (op ≤ 0xB)
  | _ => false

/-- A scalar register as an instruction took it at issue: X0 reads as 0 (R111, R113). -/
def Issued.xr (i : Issued) (r : Nat) : Nat := if r = 0 then 0 else (vgetD i.x r 0).toNat

/-- A scalar register written: X0 ignores writes (R111). -/
def Stream.setX (t : Stream) (r v : Nat) : Stream :=
  if r = 0 then t else { t with x := vmod t.x r (fun _ => BitVec.ofNat 64 v) }

/-- A vector register (R111). -/
def Stream.vr (t : Stream) (r : Nat) : Vector W32 64 := vgetD t.v r (Vector.replicate 64 0)

/-- A vector register written. -/
def Stream.setV (t : Stream) (r : Nat) (v : Vector W32 64) : Stream := { t with v := vmod t.v r (fun _ => v) }

/-- WIN of an instruction, signed (R111). -/
def Issued.w10 (i : Issued) : Int := sext 10 i.win.toNat

/-- W lies in [−320, 255] (R91). -/
def winOk (w : Int) : Bool := decide (-320 ≤ w) && decide (w ≤ 255)

/-! ### The registers of an instruction (R113) -/

/-- The operands in vector registers that a VEC operation uses (R126). -/
inductive VUse where
  | d | a | b | c
  deriving DecidableEq, Repr

/-- The vector operands of a VEC operation (R126). -/
def vecUses (op : Nat) : List VUse :=
  match op with
  | 0x03 | 0x0B => [.d, .a, .b, .c]
  | 0x07 | 0x08 | 0x09 | 0x0A | 0x0E => [.d, .a]
  | 0x0C | 0x15 => [.d]
  | 0x0D | 0x0F | 0x11 | 0x12 | 0x13 | 0x14 | 0x16 => [.a]
  | 0x10 => []
  | _ => [.d, .a, .b]

/-- The first register of a vector operand (R125). -/
def Issued.vfirst (i : Issued) : VUse → Nat
  | .d => i.f 0 19 16
  | .a => i.f 0 15 12
  | .b => i.f 0 11 8
  | .c => i.f 0 7 4

/-- Registers that each vector operand covers (R125, R126). -/
def Issued.regs (i : Issued) : Nat := i.f 0 3 0 + 1

/-- IMM takes the place of VB (R126). -/
def Issued.immb (i : Issued) : Bool := i.f 2 31 31 == 1

/-- The vector registers of the operands of a list. -/
def Issued.vregs (i : Issued) (us : List VUse) : List Nat :=
  us.flatMap (fun u => if u = .b ∧ i.immb then [] else (List.range i.regs).map (i.vfirst u + ·))

/-- The vector registers that an instruction reads or writes. -/
def Issued.vUses (i : Issued) : List Nat := if insCls i.w = 1 then i.vregs (vecUses (insOp i.w)) else []

/-- The vector registers that an instruction writes. -/
def Issued.vOut (i : Issued) : List Nat :=
  if insCls i.w = 1 then i.vregs ((vecUses (insOp i.w)).filter (· == .d)) else []

/-- The scalar registers that an instruction reads or writes; X0 is none (R111). -/
def Issued.xUses (i : Issued) : List Nat :=
  (match insCls i.w, insOp i.w with
   | 0, 0 => [i.f 0 19 16, i.f 0 3 0]
   | 0, 1 => [i.f 0 19 16, i.f 0 7 4, i.f 0 3 0, i.f 1 3 0, i.f 3 7 4, i.f 3 3 0]
   | 0, 2 => [i.f 0 11 8, i.f 0 7 4, i.f 0 3 0]
   | 1, 0x0C | 1, 0x0D => [i.f 2 3 0]
   | 1, 0x0F => [i.f 2 11 8, i.f 2 3 0]
   | 1, 0x10 => [i.f 2 11 8, i.f 2 7 4, i.f 2 3 0]
   | 1, 0x11 | 1, 0x12 | 1, 0x15 | 1, 0x16 => [i.f 2 7 4]
   | 1, 0x13 | 1, 0x14 => [i.f 2 11 8, i.f 2 7 4]
   | 2, _ => [i.f 0 3 0]
   | 3, 5 => [i.f 0 11 8]
   | 3, 2 => [i.f 0 11 8, i.f 0 3 0]
   | 3, 4 => [i.f 0 11 8, i.f 0 7 4, i.f 0 3 0, i.f 2 3 0]
   | 3, _ => [i.f 0 11 8, i.f 0 7 4, i.f 0 3 0]
   | 4, 1 | 4, 0xA => [i.f 0 15 12]
   | 4, 2 => [i.f 0 15 12, i.f 0 11 8, i.f 0 7 4]
   | 4, 3 | 4, 6 => [i.f 0 11 8, i.f 0 7 4]
   | 4, 4 | 4, 5 => [i.f 0 15 12, i.f 0 11 8]
   | 4, 8 => [i.f 0 11 8]
   | _, _ => []).filter (· != 0)

/-- The scalar registers that a VEC or SYN instruction writes when it completes; X0 is none. -/
def Issued.xOut (i : Issued) : List Nat :=
  (match insCls i.w, insOp i.w with
   | 1, 0x11 | 1, 0x12 | 1, 0x13 | 1, 0x14 | 1, 0x16 => [i.f 2 7 4]
   | 3, _ => [i.f 0 11 8]
   | _, _ => []).filter (· != 0)

/-- An instruction whose effect depends on C: BR on C set or clear (R133). -/
def Issued.usesC (i : Issued) : Bool := insCls i.w == 4 && insOp i.w == 3 && decide (7 ≤ i.f 0 21 18)

/-! ### The own store -/

/-- End of the cluster store: 3 MiB (R54). -/
def storeSize : Nat := 0x300000

/-- Whether `n` bytes at an offset lie in the cluster store. -/
def inStore (off n : Nat) : Bool := decide (off + n ≤ storeSize)

/-- Bytes of a cluster's store. -/
def stBytes (s : State) (cl off n : Nat) : List Byte := rdBytes s (storeAddr cl off) n

/-- A number in a cluster's store. -/
def stNat (s : State) (cl off n : Nat) : Nat := rdNat s (storeAddr cl off) n

/-- Bytes written in a cluster's store. -/
def stPut (s : State) (cl off : Nat) (bs : List Byte) : State := wrBytes s (storeAddr cl off) bs

/-- Offset of column `j` of accumulation entry `e` (R139). -/
def accOff (e j : Nat) : Nat := accOffset + (64 * e + j) * 8

/-- Column `j` of entry `e` of a cluster's accumulation store. -/
def accGet (s : State) (cl e j : Nat) : Nat := stNat s cl (accOff e j) 8

/-- A column of an entry written. -/
def accPut (s : State) (cl e j v : Nat) : State := stPut s cl (accOff e j) (leBytes 8 v)

/-! ### Tensor descriptors -/

/-- A tensor descriptor (R123). -/
structure TD where
  s8 : Bool
  fmt : TFmt
  code : Nat
  scale : Nat
  stride : Nat
  sstride : Nat
  k : Nat
  rows : Nat
  tid : Nat
  deriving DecidableEq, Repr

/-- A descriptor read from its 32 bytes (R123); none for a reserved FMT or a base or stride that is not a multiple
of 8. -/
def parseTD (b : List Byte) : Option TD :=
  let w := fun i => leAt b (4 * i) 4
  match tfmtOf (bits (w 0) 25 22) with
  | none => none
  | some f =>
    let t : TD := { s8 := bit (w 0) 26, fmt := f, code := bits (w 0) 21 0, scale := bits (w 1) 21 0,
                    stride := bits (w 2) 21 0, sstride := bits (w 3) 21 0, k := bits (w 4) 23 0,
                    rows := bits (w 5) 23 0, tid := bits (w 6) 15 0 }
    if aligned t.code 8 && aligned t.stride 8 then some t else none

/-- Whether a descriptor may lie at an offset: 32-byte aligned, in the own store (R123). -/
def tdPlace (off : Nat) : Bool := aligned off 32 && inStore off 32

/-- The descriptor at an offset of a cluster's store. -/
def readTD (s : State) (cl off : Nat) : Option TD := if tdPlace off then parseTD (stBytes s cl off 32) else none

/-- Code bytes of a block (R84). -/
def TFmt.blockBytes (f : TFmt) : Nat := 32 * f.codeBits / 8

/-- Byte and bit of element `k` of row `m` (R124, R84). -/
def TD.codeAt (t : TD) (m k : Nat) : Nat × Nat :=
  let r := t.code + m * t.stride
  if t.fmt.isBlock then
    let n := k % 32 * t.fmt.codeBits
    (r + k / 32 * t.fmt.blockBytes + n / 8, n % 8)
  else (r + k * (t.fmt.codeBits / 8), 0)

/-- Bytes that an element code spans. -/
def TD.codeLen (t : TD) : Nat := (t.fmt.codeBits + 7) / 8

/-- The code of element `k` of row `m` (R124). -/
def TD.getCode (t : TD) (s : State) (cl m k : Nat) : Nat :=
  let p := t.codeAt m k
  stNat s cl p.1 t.codeLen >>> p.2 % 2 ^ t.fmt.codeBits

/-- The index of the scale of block `b` of row `m` (R124). -/
def TD.scaleIdx (t : TD) (m b : Nat) : Nat := m * t.sstride + b

/-- First byte and bit of a scale in the store (R85). -/
def TD.scaleAt (t : TD) (m b : Nat) : Nat × Nat :=
  let n := t.scaleIdx m b
  if t.s8 then (t.scale + n, 0) else (t.scale + 9 * n / 8, 9 * n % 8)

/-- Bytes that a scale spans. -/
def TD.scaleLen (t : TD) : Nat := if t.s8 then 1 else 2

/-- The scale of block `b` of row `m`, as H and E (R82, R85). -/
def TD.getScale (t : TD) (s : State) (cl m b : Nat) : Nat :=
  let p := t.scaleAt m b
  if t.s8 then stNat s cl p.1 1 else stNat s cl p.1 2 >>> p.2 % 512

/-- Whether every byte of the elements `k0` to `k1 − 1` of a row and of their scales lies in the store (R124). -/
def TD.rowOk (t : TD) (m k0 k1 : Nat) : Bool :=
  if k1 ≤ k0 then true else
  let p := t.codeAt m (k1 - 1)
  inStore p.1 t.codeLen &&
  (!t.fmt.isBlock || (let q := t.scaleAt m ((k1 - 1) / 32); inStore q.1 t.scaleLen))

/-- A whole block of a row written: its codes packed as R84 gives. -/
def packCodes (f : TFmt) (codes : List Nat) : List Byte :=
  leBytes f.blockBytes (codes.zipIdx.foldl (fun a p => a + p.1 <<< (p.2 * f.codeBits)) 0)

/-- A block of a row written with its scale (R84, R85). -/
def TD.putBlock (t : TD) (s : State) (cl m b : Nat) (codes : List Nat) (scale : Nat) : State :=
  let s1 := stPut s cl (t.code + m * t.stride + b * t.fmt.blockBytes) (packCodes t.fmt codes)
  let p := t.scaleAt m b
  if t.s8 then stPut s1 cl p.1 [BitVec.ofNat 8 scale] else
  let old := stNat s1 cl p.1 2
  let low := old % 2 ^ p.2
  let high := old >>> (p.2 + 9)
  stPut s1 cl p.1 (leBytes 2 (low + (scale % 512) <<< p.2 + high <<< (p.2 + 9)))

/-- An FP32 or BF16 element written. -/
def TD.putElem (t : TD) (s : State) (cl m k v : Nat) : State :=
  stPut s cl (t.codeAt m k).1 (leBytes t.codeLen v)

/-! ### DMA descriptors -/

/-- A DMA descriptor read from its 64 bytes (R130). -/
def parseDD (b : List Byte) : DmaDesc :=
  let w := fun i => leAt b (4 * i) 4
  { src := BitVec.ofNat 64 (leAt b 0 8), dst := BitVec.ofNat 64 (leAt b 8 8), len0 := BitVec.ofNat 24 (w 4),
    cnt2 := BitVec.ofNat 16 (w 5 / 65536), cnt1 := BitVec.ofNat 16 (w 5),
    sstr1 := BitVec.ofNat 32 (w 6), dstr1 := BitVec.ofNat 32 (w 7),
    sstr2 := BitVec.ofNat 32 (w 8), dstr2 := BitVec.ofNat 32 (w 9), caddr := BitVec.ofNat 64 (leAt b 40 8),
    cval := BitVec.ofNat 32 (w 12), cgran := BitVec.ofNat 2 (bits (w 13) 4 3), cloc := bit (w 13) 2,
    dloc := bit (w 13) 1, sloc := bit (w 13) 0 }

/-- The checks on the fields of a descriptor (R117). -/
def ddFieldsOk (d : DmaDesc) : Bool := d.len0 != 0 && d.cnt1 != 0 && d.cnt2 != 0 && d.cgran != 3

/-! ### Vector operands -/

/-- TYP of a VEC instruction (R125): 3 is reserved. -/
inductive VTyp where
  | fp32 | bf16 | int32
  deriving DecidableEq, Repr

/-- The type of a code of TYP. -/
def vtypOf (c : Nat) : Option VTyp := [VTyp.fp32, .bf16, .int32][c]?

end Sys2Proof.Machine
end

