-- ==== Sys2Proof/Machine/Flags.lean ====
section
/-! DEFINITION. The condition flag, the sticky flags (R111, R129, R132), the scalar functions and the branch conditions
of CTL (R133). -/

namespace Sys2Proof.Machine

/-- The sticky flags as R133 and R141 lay them out: NFS in bit 0, SAT in bit 1, NFE in bit 2. -/
def Stream.sticky (t : Stream) : Nat := b2n t.nfs + 2 * b2n t.sat + 4 * b2n t.nfe

/-- CLRF (R133): each flag whose bit is set is cleared. -/
def Stream.clearSticky (t : Stream) (m : Nat) : Stream :=
  { t with nfs := t.nfs && !bit m 0, sat := t.sat && !bit m 1, nfe := t.nfe && !bit m 2 }

/-- A conversion that counted saturations or non-finite elements sets the context's flags (R129). -/
def Stream.noteCounts (t : Stream) (k : Counts) : Stream :=
  { t with sat := t.sat || k.sat != 0, nfe := t.nfe || k.nonfin != 0 }

/-- The ALU functions (R133), uint64 wrap; none for a reserved FN. -/
def aluOp (fn a b : Nat) : Option Nat :=
  let m := 2 ^ 64
  match fn with
  | 0 => some ((a + b) % m)
  | 1 => some ((a + m - b % m) % m)
  | 2 => some (a * b % m)
  | 3 => some (a &&& b)
  | 4 => some (a ||| b)
  | 5 => some (a ^^^ b)
  | 6 => some (a <<< (b % 64) % m)
  | 7 => some (a >>> (b % 64))
  | 8 => some (wrap 64 (sext 64 a >>> (b % 64)))
  | 9 => some (if sext 64 a ≤ sext 64 b then a else b)
  | 10 => some (if sext 64 a ≤ sext 64 b then b else a)
  | _ => none

/-- The branch conditions (R133); none for a reserved FN. -/
def brCond (fn a b : Nat) (c : Bool) : Option Bool :=
  match fn with
  | 0 => some true
  | 1 => some (a == b)
  | 2 => some (a != b)
  | 3 => some (decide (sext 64 a < sext 64 b))
  | 4 => some (decide (sext 64 b ≤ sext 64 a))
  | 5 => some (decide (a < b))
  | 6 => some (decide (b ≤ a))
  | 7 => some c
  | 8 => some (!c)
  | _ => none

end Sys2Proof.Machine
end

