-- ==== Sys2Proof/Machine/Partition.lean ====
section
/-! DEFINITION. The arrays of a cluster: their shapes under partition and fusion (R65 to R67), and the clusters that a change of
them concerns (R68, R74, R137). -/

namespace Sys2Proof.Machine

/-! ### Shapes (R65 to R67) -/

/-- A quadrant of an array: its cluster and number, and its place in the array's grid of quadrants. -/
structure Quad where
  cl : Nat
  q : Nat
  row : Nat
  col : Nat
  deriving DecidableEq, Repr

/-- An array: rows, columns and quadrants in row-major order. -/
structure Shape where
  nr : Nat
  nc : Nat
  quads : List Quad
  deriving DecidableEq, Repr

/-- The members of a fused shape as distances in row and column from the leader (R66). -/
def fuseSteps : FuseShape → List (Nat × Nat)
  | .s128x64 => [(0, 0), (1, 0)]
  | .s64x128 => [(0, 0), (0, 1)]
  | .s128x128 => [(0, 0), (0, 1), (1, 0), (1, 1)]

/-- The members of a fusion group by its leader: clusters number by rows of 32 (R54). -/
def fuseMembers (n : Nat) (f : FuseShape) : List Nat := (fuseSteps f).map (fun p => n + 32 * p.1 + p.2)

/-- Whether a cluster stands where a shape has its leader (R66). -/
def leaderPlace (n : Nat) (f : FuseShape) : Bool :=
  let row := n % 1024 / 32
  let col := n % 32
  match f with
  | .s128x64 => row % 2 == 0
  | .s64x128 => col % 2 == 0
  | .s128x128 => row % 2 == 0 && col % 2 == 0

/-- The four quadrants of a cluster in P1 with its first quadrant at a place of the grid. -/
def p1Quads (cl row col : Nat) : List Quad :=
  [⟨cl, 0, row, col⟩, ⟨cl, 1, row, col + 1⟩, ⟨cl, 2, row + 1, col⟩, ⟨cl, 3, row + 1, col + 1⟩]

/-- Array `a` of cluster `n`; none when its partition has no such array, or when another cluster leads its group. -/
def arrayShape (k : Cluster) (n a : Nat) : Option Shape :=
  if k.leader.isSome then none else
  match k.fused with
  | some f =>
    if a ≠ 0 then none else
    let qs := (fuseSteps f).flatMap (fun p => p1Quads (n + 32 * p.1 + p.2) (2 * p.1) (2 * p.2))
    some { nr := if f = .s64x128 then 64 else 128, nc := if f = .s128x64 then 64 else 128, quads := qs }
  | none =>
    match k.part, a with
    | .p1, 0 => some ⟨64, 64, p1Quads n 0 0⟩
    | .p2h, 0 => some ⟨32, 64, [⟨n, 0, 0, 0⟩, ⟨n, 1, 0, 1⟩]⟩
    | .p2h, 1 => some ⟨32, 64, [⟨n, 2, 0, 0⟩, ⟨n, 3, 0, 1⟩]⟩
    | .p2v, 0 => some ⟨64, 32, [⟨n, 0, 0, 0⟩, ⟨n, 2, 1, 0⟩]⟩
    | .p2v, 1 => some ⟨64, 32, [⟨n, 1, 0, 0⟩, ⟨n, 3, 1, 0⟩]⟩
    | .p4, 0 => some ⟨32, 32, [⟨n, 0, 0, 0⟩]⟩
    | .p4, 1 => some ⟨32, 32, [⟨n, 1, 0, 0⟩]⟩
    | .p4, 2 => some ⟨32, 32, [⟨n, 2, 0, 0⟩]⟩
    | .p4, 3 => some ⟨32, 32, [⟨n, 3, 0, 0⟩]⟩
    | _, _ => none

/-- The quadrant of an array that holds the cells of a row segment and a column segment. -/
def Shape.quadAt (h : Shape) (row col : Nat) : Option Quad := h.quads.find? (fun q => q.row == row && q.col == col)

/-- Where column `j` of an array commits: cluster and column of its accumulation store (R65, R67). -/
def Shape.drainAt (h : Shape) (j : Nat) : Nat × Nat :=
  match h.quadAt (h.nr / 32 - 1) (j / 32) with
  | some q => (q.cl, q.q % 2 * 32 + j % 32)
  | none => (0, 0)

/-- The ck from a slot's issue to its commit (R59). -/
def Shape.latency (h : Shape) : Nat := h.nr + h.nc + 2

/-! ### Changes of partition and fusion (R68, R74, R137) -/

/-- The shape that a FUSE names; none unfuses (R118). -/
def fuseShapeOf (i : Issued) : Option FuseShape :=
  match i.f 0 1 0 with
  | 0 => none
  | 1 => some .s128x64
  | 2 => some .s64x128
  | _ => some .s128x128

/-- The clusters that a pending PART or FUSE of cluster `n` concerns. -/
def changeMembers (k : Cluster) (n : Nat) (i : Issued) : List Nat :=
  if insOp i.w = 5 then [n] else
  match (fuseShapeOf i).orElse (fun _ => k.fused) with
  | some f => fuseMembers n f
  | none => [n]

/-- A change is pending that concerns cluster `n`: no array of it grants a pass (R137). -/
def changePending (s : State) (n : Nat) : Bool :=
  s.clusters.any (fun e => match e.2.change with
    | some (_, i) => (changeMembers e.2 e.1 i).contains n
    | none => false)

/-- No array of a cluster has a pass in its feeder or a slot of a pass (R68, R74). -/
def arraysEmpty (k : Cluster) : Bool := k.arrays.toList.all (fun a => a.feeder.isNone && a.flight.isEmpty)

/-- The checks of R66 and R137 on a FUSE with a shape: a leader position, every member in P1 and in no other group. -/
def fuseOk (s : State) (n : Nat) (f : FuseShape) : Bool :=
  leaderPlace n f && (fuseMembers n f).all (fun m =>
    (cluster s m).part == .p1 && (cluster s m).fused.isNone && (cluster s m).leader.isNone)

/-- The change is made at every member. -/
def makeChange (s : State) (n : Nat) (i : Issued) : State :=
  if insOp i.w = 5 then
    modCluster s n (fun k => { k with part := [Partition.p1, .p2h, .p2v, .p4].getD (i.f 0 1 0) .p1 })
  else
    let f := fuseShapeOf i
    (changeMembers (cluster s n) n i).foldl (fun t m => modCluster t m (fun k =>
      if m = n then { k with fused := f, leader := none }
      else { k with fused := none, leader := if f.isSome then some n else none })) s

end Sys2Proof.Machine
end

