-- ==== Sys2Proof/Machine/Stream.lean ====
section
/-! DEFINITION. Streams: fetch and issue in program order (R113, R116), faults (R117), stopping (R140, R73), the stop
record (R141) and the parts of a start that every start shares (R112, R115, R142). -/

namespace Sys2Proof.Machine

/-! ### Where a cluster stands -/

/-- The die of a cluster runs its arrays and sequencers: powered, not fenced, clocks on (R31, R76). -/
def clusterLive (s : State) (n : Nat) : Bool :=
  decide (n < 4096) && (die s (n / 1024)).on && !dieFenced s (n / 1024) && clocksOn s

/-- A stream counts as running (R114). -/
def streamRuns (t : Stream) : Bool := t.st == .running || t.st == .stopping

/-- Every cluster whose state is held. -/
def anyStream (s : State) (p : Nat → Stream → Bool) : Bool :=
  s.clusters.any (fun e => e.2.streams.toList.any (fun t => p e.1 t))

/-- A pass is in progress (R196): UPD_PHASE 1 to 3. -/
def passRuns (s : State) : Bool := decide (1 ≤ s.upd.phase.toNat) && decide (s.upd.phase.toNat ≤ 3)

/-- The latched list has rule O or K work (R190). -/
def hasService (s : State) : Bool :=
  s.upd.tensors.any (fun t => match look s.upd.groups t.group with
    | some g => g.rule == .o || g.rule == .k
    | none => false)

/-- A serving cluster of rule O or K work (R190): every cluster of a die but those reserved for refresh. -/
def isServing (s : State) (n : Nat) : Bool :=
  decide (n % 1024 < 1024 - s.upd.refreshClusters.toNat) && hasService s

/-- The service program of a pass runs in the SVC context of a cluster (R190). -/
def serviceRuns (s : State) (n : Nat) (c : Ctx) : Bool := c == .svc && passRuns s && isServing s n

/-- Any stream of the package runs, the service programs of a pass among them. -/
def anyRuns (s : State) : Bool := anyStream s (fun _ t => streamRuns t) || (passRuns s && hasService s)

/-- The array clock in tenths of a GHz (R59): Steel, Brass, Pewter. -/
def clockTenths (s : State) : Nat :=
  match s.power.mode.toNat with
  | 0 => 18
  | 1 => 15
  | _ => 11

/-- The clk at which `k` ck from now have passed, rounded up. -/
def ftAfterCk (s : State) (k : Nat) : W64 := BitVec.ofNat 64 (min (clk s + ceilDiv (10 * k) (clockTenths s)) (2 ^ 64 - 1))

/-! ### Work in flight -/

/-- Instructions of a context that its units still hold, as issue number, WT and class. -/
def outstanding (s : State) (n : Nat) (c : Ctx) : List (Nat × Bool × Nat) :=
  let k := cluster s n
  let key := fun (i : Issued) => (i.n, insWt i.w, insCls i.w)
  (k.arrays.toList.flatMap (fun a =>
    (a.queue.filter (fun q => q.c == c)).map (fun q => key q.ins) ++
    (match a.feeder with
     | some f => if f.c == c then [key f.ins] else []
     | none => []) ++
    (match a.loading with
     | some l => if l.c == c then [key l.ins] else []
     | none => []) ++
    (a.flight.filter (fun q => q.c == c)).map (fun q => (q.passId, q.wt, 0)))) ++
  (k.readq.filter (fun p => p.1 == c)).map (fun p => key p.2) ++
  (k.vecq.filter (fun p => p.1 == c)).map (fun p => key p.2) ++
  k.streams[ctxIdx c].synq.map key ++
  (k.mover.filter (fun j => j.c == c)).map (fun j => key j.ins) ++
  (match k.change with
   | some p => if p.1 == c then [key p.2] else []
   | none => []) ++
  (match k.streams[ctxIdx c].blocked with
   | some i => [key i]
   | none => [])

/-- Nothing of a stream remains in flight (R140). -/
def streamQuiet (s : State) (n : Nat) (c : Ctx) : Bool := (outstanding s n c).isEmpty

/-- SYN instructions of a context that have issued and not completed. -/
def Stream.synOut (t : Stream) : List Issued := t.blocked.toList ++ t.synq

/-- A WAIT or a BAR (R132): the SYN instructions on which their context blocks. -/
def synBlocks (i : Issued) : Bool := insOp i.w == 3 || insOp i.w == 5

/-- The context may issue (R113, R133): RUNNING, on no WAIT or BAR, no fault found, no turn given up, no WT instruction
outstanding, its die and clock up. -/
def mayIssue (s : State) (n : Nat) (c : Ctx) : Bool :=
  let t := stream s n c
  clusterLive s n && t.st == .running && !t.synOut.any synBlocks && t.fault.isNone &&
  decide (t.yieldUntil.toNat ≤ clk s) && !(outstanding s n c).any (fun o => o.2.1)

/-- Instructions of a context that have issued and whose scalar or vector result is still awaited (R113). -/
def awaited (s : State) (n : Nat) (c : Ctx) : List Issued :=
  ((cluster s n).vecq.filter (fun p => p.1 == c)).map (fun p => p.2) ++ (stream s n c).synOut

/-- No register that an instruction reads or writes awaits the result of an earlier one (R113); a branch on C waits for the SYN
operations that set it (log entry 43). -/
def regsReady (s : State) (n : Nat) (c : Ctx) (i : Issued) : Bool :=
  (awaited s n c).all (fun j =>
    (j.xOut.all (fun r => !i.xUses.contains r)) && (j.vOut.all (fun r => !i.vUses.contains r)) &&
    !(i.usesC && insCls j.w == 3))

/-! ### Faults -/

/-- A kept instruction takes its place in issue order (R140). -/
def insertKept (l : List Kept) (k : Kept) : List Kept :=
  match l with
  | [] => [k]
  | h :: t => if k.ins.n < h.ins.n then k :: h :: t else h :: insertKept t k

/-- An instruction kept whole (R142). -/
def keptWhole (i : Issued) : Kept := { ins := i, slots := 0, desc := none, units := 0 }

/-- A fault is counted and recorded in the sequencer status block of its die (R143). -/
def countFault (s : State) (n : Nat) (c : Ctx) (f : FaultInfo) : State :=
  modDie s (n / 1024) (fun d => { d with
    seqFault := satAdd d.seqFault 1
    seqLastFault := BitVec.ofNat 64 (fieldAt f.pc 22 32 + fieldAt (streamNo n c) 14 18 + fieldAt f.cls.toNat 3 8 +
      statusCode f.cause) })

/-- A fault found after issue (R117): the instruction is kept in its place; the first fault of a stop is its cause. -/
def noteFault (s : State) (n : Nat) (c : Ctx) (k : Kept) (cause : Status) (fresh : Bool) : State :=
  let f : FaultInfo := { cause := cause, cls := BitVec.ofNat 3 (insCls k.ins.w), pc := k.ins.pc,
                         isMov := insCls k.ins.w == 2, movFresh := fresh, units := k.units }
  countFault (modStream s n c (fun t => { t with kept := insertKept t.kept k, fault := t.fault.orElse (fun _ => some f) }))
    n c f

/-! ### Changes of partition and fusion (R68, R74, R137) -/

/-- A pending PART of a cluster that belongs to no group completes once its arrays are empty (R68, R74). -/
def tryPart (s : State) (n : Nat) : State :=
  match (cluster s n).change with
  | some (_, i) =>
    if insOp i.w = 5 ∧ arraysEmpty (cluster s n) ∧ (cluster s n).leader.isNone ∧ (cluster s n).fused.isNone then
      makeChange (modCluster s n (fun k => { k with change := none })) n i
    else s
  | none => s

/-- A pending change of a cluster completes once every array it concerns is empty (R68, R74). A FUSE whose members no longer
satisfy R66 stops its stream instead; a PART of a member of a group waits until the group is unfused, which tries it again (R68). -/
def tryChange (s : State) (n : Nat) : State :=
  match (cluster s n).change with
  | none => s
  | some (c, i) =>
    if !(changeMembers (cluster s n) n i).all (fun m => arraysEmpty (cluster s m)) then s
    else
      let ended := modCluster s n (fun k => { k with change := none })
      if insOp i.w = 5 then tryPart s n
      else match fuseShapeOf i with
        | some f => if fuseOk s n f then makeChange ended n i else noteFault ended n c (keptWhole i) .badParam false
        | none =>
          if (cluster s n).leader.isSome then s
          else ((changeMembers (cluster s n) n i).filter (· != n)).foldl tryPart (makeChange ended n i)

/-- Every pending change that concerns a cluster is tried. -/
def tryChanges (s : State) (n : Nat) : State :=
  s.clusters.foldl (fun t e => match e.2.change with
    | some (_, i) => if (changeMembers e.2 e.1 i).contains n then tryChange t e.1 else t
    | none => t) s

/-! ### Stopping (R140, R73) -/

/-- What one array gives back of a stopped context: its entries, its cut pass, and a load that waits for a pass that
will not end (R71, R73). `kept` is what the context keeps already: a pass that a fault has cut is there. -/
def stopArray (c : Ctx) (kept : List Kept) (a : ArrayUnit) : ArrayUnit × List Kept :=
  let back := a.queue.filter (fun q => q.c == c)
  let ks := back.map (fun q => { ins := q.ins, slots := q.slots, desc := none, units := 0 : Kept })
  let fed : List Kept := match a.feeder with
    | some f => if f.c == c then [{ ins := f.ins, slots := f.slots, desc := none, units := 0 }] else []
    | none => []
  let ended := (kept ++ ks ++ fed).map (fun k => k.ins.n)
  let ld : List Kept := match a.loading with
    | some l => if l.c == c && l.before.any (fun n => ended.contains n) then [keptWhole l.ins] else []
    | none => []
  ({ a with queue := a.queue.filter (fun q => q.c != c)
            feeder := if fed.isEmpty then a.feeder else none
            loading := if ld.isEmpty then a.loading else none
            flight := a.flight.map (fun q => if q.c == c && fed.any (fun k => k.ins.n == q.passId) then
              { q with cut := true } else q) },
   ks ++ fed ++ ld)

/-- The SYN instruction in progress that a stop abandons and keeps: a WAIT or a BAR (R140). Another one completes. -/
def abandoned (t : Stream) : Option Issued := t.blocked.filter synBlocks

/-- A context no longer waits in any watch table or on any channel. -/
def dropWaits (s : State) (n : Nat) (c : Ctx) : State :=
  { s with sync := { s.sync with
      waiters := s.sync.waiters.filter (fun w => !(w.cl == n && w.c == c))
      barriers := s.sync.barriers.map (fun b => { b with waiting := b.waiting.filter (fun p => p != (n, c)) }) } }

/-- A stream stops at its next instruction boundary (R140): it enters STOPPING, its pass is cut, and its unstarted work
is kept; a change that waited for its arrays to empty may complete. -/
def stopStream (s : State) (n : Nat) (c : Ctx) : State :=
  let k := cluster s n
  let old := k.streams[ctxIdx c].kept
  let rs := k.arrays.toList.map (stopArray c old)
  let gone := k.readq.filter (fun p => p.1 == c)
  let ab := abandoned k.streams[ctxIdx c]
  let vec := k.vecq.filter (fun p => p.1 == c)
  let ks := rs.flatMap (·.2) ++ (gone ++ vec).map (fun p => keptWhole p.2) ++
    (ab.toList ++ k.streams[ctxIdx c].synq).map keptWhole
  let s1 := modCluster s n (fun k => { k with arrays := k.arrays.map (fun a => (stopArray c old a).1)
                                              readq := k.readq.filter (fun p => p.1 != c)
                                              vecq := k.vecq.filter (fun p => p.1 != c) })
  let s2 := modStream s1 n c (fun t => { t with
    st := .stopping
    kept := ks.foldl insertKept t.kept
    block := if ab.isSome then .none else t.block
    blocked := if ab.isSome then none else t.blocked
    synq := []
    roPasses := none })
  tryChanges (if ab.isSome then dropWaits s2 n c else s2) n

/-- A fault found at issue stops the stream at once, with the faulting instruction at PC (R117). -/
def faultAtIssue (s : State) (n : Nat) (c : Ctx) (cause : Status) (cls : BitVec 3) : State :=
  let f : FaultInfo := { cause := cause, cls := cls, pc := (stream s n c).pc, isMov := false, movFresh := false, units := 0 }
  countFault (stopStream (modStream s n c (fun t => { t with fault := t.fault.orElse (fun _ => some f) })) n c) n c f

/-! ### Issue -/

/-- What issue finds for a context. -/
inductive Fetch where
  | none
  | fault (cause : Status) (cls : BitVec 3)
  | ins (i : Issued) (k : Option Kept)
  deriving DecidableEq, Repr

/-- The next instruction of a context: its first kept one (R142), or the one at PC (R116), with the operands it takes
at issue, when no register of it is awaited (R113). With no instruction to read, the class is open (log entry 3). -/
def fetch (s : State) (n : Nat) (c : Ctx) : Fetch :=
  let t := stream s n c
  if !mayIssue s n c then .none else
  match t.kept with
  | k :: _ => if regsReady s n c k.ins then .ins k.ins (some k) else .none
  | [] =>
    if !(aligned t.pc 16 && inStore t.pc 16) then .fault .badParam (BitVec.ofNat 3 (Config.freeNat s.fresh)) else
    let w : W128 := BitVec.ofNat 128 (stNat s n t.pc 16)
    if !opDefined (insCls w) (insOp w) then .fault .badOpcode (BitVec.ofNat 3 (insCls w))
    else
      let i : Issued := { n := t.issued, pc := t.pc, w := w, x := t.x, win := t.win }
      if regsReady s n c i then .ins i none else .none

/-- What an instruction answers at issue: not issued yet, a fault found at issue, the state after it with the sequencer
to move on, or the state after it with PC and loops as it set them. -/
inductive Issue where
  | hold
  | fault (cause : Status)
  | done (s : State)
  | jump (s : State)

/-- The next PC after the instruction at `last` in program order, with the loops it ends (R134). -/
def seqNext (t : Stream) (last : Nat) : List Loop → Stream
  | [] => { t with pc := (last + 16) % 2 ^ 64, loops := [] }
  | l :: r =>
    if l.stop ≠ last then { t with pc := (last + 16) % 2 ^ 64, loops := l :: r }
    else if l.index.toNat + 1 < l.count.toNat then
      { t with pc := l.start, loops := { l with index := l.index + 1 } :: r }.setX l.xd.toNat (l.index.toNat + 1)
    else seqNext t last r

/-- An instruction is issued and the issue turn passes (R113): a kept one leaves its list; any other is counted in SEQ_CNT_INSTR, which
a kept one was at its first issue (R142, R143). -/
def takeIssue (s : State) (n : Nat) (c : Ctx) (k : Option Kept) : State :=
  let s1 := modStream s n c (fun t => match k with
    | some _ => { t with kept := t.kept.tail }
    | none => { t with issued := t.issued + 1 })
  let s2 := modCluster s1 n (fun k => { k with lastIssue := c })
  if k.isSome then s2 else modDie s2 (n / 1024) (fun d => { d with seqInstr := satAdd d.seqInstr 1 })

/-- The sequencer moves on in program order after an instruction that was not a kept one. -/
def moveOn (s : State) (n : Nat) (c : Ctx) (i : Issued) (k : Option Kept) : State :=
  match k with
  | some _ => s
  | none => modStream s n c (fun t => seqNext t i.pc t.loops)

/-- One issue of a context (R113): the row's instruction, if it is the next; a fault found at issue stops the stream.
`act` is its effect, from the state in which it is issued and PC still names it. -/
def issue (s : State) (n : Nat) (c : Ctx) (cls op : Nat) (act : State → Issued → Option Kept → Issue) : State :=
  match fetch s n c with
  | .none => s
  | .fault cause k => useFresh (faultAtIssue s n c cause k) 1
  | .ins i k =>
    if insCls i.w ≠ cls ∨ insOp i.w ≠ op then s else
    match act (takeIssue s n c k) i k with
    | .hold => s
    | .fault cause => faultAtIssue s n c cause (BitVec.ofNat 3 cls)
    | .done t => moveOn t n c i k
    | .jump t => t

/-! ### The stop record (R141) -/

/-- The class of the instruction at PC; open when PC names none (log entry 3). -/
def classAtPc (s : State) (n : Nat) (t : Stream) : BitVec 3 :=
  if aligned t.pc 16 && inStore t.pc 16 then BitVec.ofNat 3 (insCls (BitVec.ofNat 128 (stNat s n t.pc 16)))
  else BitVec.ofNat 3 (Config.freeNat s.fresh)

/-- The record of a stop: command stop or fault (R141). -/
def stopRecord (s : State) (n : Nat) (t : Stream) : StopRec :=
  let first := t.kept.head?
  { kept := BitVec.ofNat 6 t.kept.length
    cls := match t.fault with
      | some f => f.cls
      | none => classAtPc s n t
    cause := match t.fault with
      | some f => BitVec.ofNat 8 (statusCode f.cause)
      | none => 0
    pc := BitVec.ofNat 22 t.pc
    keptPc := match first with
      | some k => BitVec.ofNat 22 k.ins.pc
      | none => 0
    slots := match first with
      | some k => BitVec.ofNat 10 k.slots
      | none => 0
    movPc := match t.fault with
      | some f => if f.isMov then BitVec.ofNat 22 f.pc else 0
      | none => 0
    movFresh := match t.fault with
      | some f => f.movFresh
      | none => false
    haltCode := 0
    ftStop := s.inv.ft
    movUnits := match t.fault with
      | some f => if f.isMov && !f.movFresh then BitVec.ofNat 32 f.units else 0
      | none => 0 }

/-- The code of a stream state (R114). -/
def stateCode : StreamState → Nat
  | .idle => 0
  | .running => 1
  | .stopping => 2
  | .stopped => 3
  | .halted => 4
  | .faulted => 5

/-- The 32 bytes of a stop record (R141): in full for a stream that has stopped, the frontier and STATE alone while it
runs or stops, zeros while IDLE. -/
def recordBytes (t : Stream) : List Byte :=
  let r := t.record
  match t.st with
  | .idle => List.replicate 32 0
  | .running => wordsBytes [1, t.pc % 2 ^ 22, 0, 0, 0, 0, 0, 0]
  | .stopping => wordsBytes [2, t.pc % 2 ^ 22, 0, 0, 0, 0, 0, 0]
  | st => wordsBytes
      [fieldAt r.kept.toNat 6 24 + fieldAt r.cls.toNat 3 16 + fieldAt r.cause.toNat 8 8 + stateCode st,
       r.pc.toNat,
       fieldAt r.keptPc.toNat 22 10 + r.slots.toNat,
       fieldAt r.movPc.toNat 22 10 + fieldAt (b2n r.movFresh) 1 3 + t.sticky,
       r.haltCode.toNat, r.ftStop.toNat % 2 ^ 32, r.ftStop.toNat / 2 ^ 32, r.movUnits.toNat]

/-! ### Starting (R112, R115, R142) -/

/-- Two entry ranges share an entry; a range with LO above HI is empty (R111). -/
def rangesMeet (lo hi lo' hi' : Nat) : Bool :=
  decide (lo ≤ hi) && decide (lo' ≤ hi') && decide (lo ≤ hi') && decide (lo' ≤ hi)

/-- The checks of R112 on the banks and entries of a FRESH start. -/
def freshOk (s : State) (n : Nat) (c : Ctx) (p : StartParams) : Bool :=
  (decide (p.entHi.toNat < p.entLo.toNat) || decide (p.entHi.toNat ≤ 511)) &&
  [Ctx.fwd, .bin, .bwt, .svc].all (fun d =>
    let t := stream s n d
    d == c || t.st == .idle || t.st == .halted ||
    ((t.banks &&& p.banks) == 0 && !rangesMeet p.entLo.toNat p.entHi.toNat t.entLo.toNat t.entHi.toNat))

/-- A FRESH start applied (R112): the words of the stream are orphaned when it was STOPPED or FAULTED (R328). -/
def startFresh (s : State) (n : Nat) (c : Ctx) (p : StartParams) : State :=
  let old := stream s n c
  let s1 := modStream s n c (fun _ => { Stream.reset with
    st := .running
    pc := p.pc.toNat
    x := (p.xs.take 8).zipIdx.foldl (fun v e => vmod v (e.2 + 1) (fun _ => e.1)) (Vector.replicate 16 0)
    banks := p.banks
    entLo := p.entLo
    entHi := p.entHi
    yieldUntil := 0 })
  if old.st = .stopped ∨ old.st = .faulted then orphanOwner s1 (streamNo n c) else s1

/-- A RESUME applied (R142): every register stays; the kept instructions run first. -/
def startResume (s : State) (n : Nat) (c : Ctx) : State :=
  modStream s n c (fun t => { t with st := .running, fault := none, record := StopRec.reset })

/-- A start decided against the stream as it stands (R112, R115): the state and the status. FORM 0 is FRESH, 1 RESUME. -/
def applyStart (s : State) (n : Nat) (c : Ctx) (p : StartParams) : State × Status :=
  let t := stream s n c
  if p.form = 0 then
    if t.st = .running then (s, .busy)
    else if freshOk s n c p then (startFresh s n c p, .done) else (s, .badParam)
  else if t.st = .stopped ∨ t.st = .faulted then (startResume s n c, .done)
  else (s, .badParam)

/-- A STOPPING stream with nothing in flight reaches STOPPED or FAULTED with its record (R140, R141); its STREAM_STOP
ends DONE, and a deferred start is applied (R115). -/
def streamReached (s : State) (n : Nat) (c : Ctx) : State :=
  let t := stream s n c
  if t.st ≠ .stopping ∨ !streamQuiet s n c then s else
  let s1 := useFresh (modStream s n c (fun t => { t with
    st := if t.fault.isSome then .faulted else .stopped
    record := stopRecord s n t
    deferred := none })) 1
  let s2 := endLongs s1 (fun k => k == .streamStop (streamNo n c)) .done []
  match t.deferred with
  | none => s2
  | some p =>
    let r := applyStart s2 n c p
    reply r.1 p.hdr 0x0302 r.2 []

end Sys2Proof.Machine
end

