-- ==== Sys2Proof/Machine/ArrayUnit.lean ====
section
/-! DEFINITION. The arrays of a cluster (Clusters, cores and the array): their shapes, loads, passes, slots, commits,
partitions and fusion, and the ARR instructions but READ and FLUSH. -/

namespace Sys2Proof.Machine

/-! ### Banks (R70, R465) -/

/-- A bank as R465 leaves it. -/
def emptyBank : BankPart := { fmt := .f4, codes := [], scales := [] }

/-- A bank that holds no defined values: free values of a counter (log entry 3). -/
def freeBank (f : Nat) : BankPart := {
  fmt := [WFmt.f4, .i4, .t2, .i8].getD (Config.freeNat f % 4) .f4
  codes := (List.range 1024).map (fun i => Config.freeByte f i)
  scales := (List.range 72).map (fun i => Config.freeByte f (1024 + i)) }

/-- Bank `b` of quadrant `q` of a cluster. -/
def bankPart (k : Cluster) (q b : Nat) : BankPart :=
  lookD k.banks (q * 16 + b) (match k.banksFree with
    | some f => freeBank (f + (q * 16 + b))
    | none => emptyBank)

/-- The 4-bit field of a cell (R121). -/
def BankPart.cell (p : BankPart) (i j : Nat) : Nat := (p.codes.getD (16 * i + j / 2) 0).toNat >>> (4 * (j % 2)) % 16

/-- Scale `t` of a column (R121). -/
def BankPart.scale (p : BankPart) (j t : Nat) : Nat :=
  leNat p.scales >>> (9 * (if p.fmt = .t2 then 2 * j + t else j)) % 512

/-- The weight format of a code of WFMT (R118). -/
def wfmtOf (c : Nat) : WFmt := [WFmt.f4, .i4, .t2, .i8].getD c .f4

/-- The tensor format of a code of AFMT (R118); 3 is reserved. -/
def afmtOf (c : Nat) : Option TFmt := [TFmt.f4b, .i4b, .i8b][c]?

/-- Bytes of an image part (R121). -/
def partLen (f : WFmt) : Nat := if f = .t2 then 584 else 548

/-- The operand modes of R56, by pair; none for a pair that is not legal. The number is u of R89. -/
def modeU (w : WFmt) (a : TFmt) : Option Int :=
  match w, a with
  | .f4, .f4b => some (-2)
  | .f4, .i4b => some (-1)
  | .i4, .f4b => some (-1)
  | .i4, .i4b => some 0
  | .t2, .f4b => some (-1)
  | .t2, .i4b => some 0
  | .i8, .i8b => some (-12)
  | _, _ => none

/-! ### Fields of LOAD and PASS (R118) -/

/-- The bank that a LOAD or PASS names (R118). -/
def Issued.bank (i : Issued) : Nat := if i.f 0 19 16 = 0 then i.f 0 15 12 else i.xr (i.f 0 19 16) % 16

/-- M of a PASS: a field of 10 bits, 1 to 512. -/
def Issued.passM (i : Issued) : Nat := i.f 3 17 8

/-- ENT of a PASS. -/
def Issued.passEnt (i : Issued) : Nat := i.f 2 16 8

/-- K0 of a PASS (R119). -/
def Issued.passK0 (i : Issued) : Nat := (i.xr (i.f 1 3 0) + i.f 1 31 8) % 2 ^ 64

/-- Address of the image that a LOAD names (R121). -/
def Issued.loadImg (i : Issued) : Nat := (i.xr (i.f 0 3 0) + i.f 1 21 0) % 2 ^ 64

/-- Whether the entry ranges of two passes, or of a pass and a read-out, share an entry. -/
def entsMeet (e m e' m' : Nat) : Bool := decide (e < e' + m') && decide (e' < e + m)

/-! ### Issue of ARR instructions -/

/-- An ARR instruction of a member other than the leader waits until the group is unfused (R68). -/
def memberHeld (s : State) (n : Nat) : Bool := (cluster s n).leader.isSome

/-- Entries of a context that hold places in an array's queue: a pass keeps its place until its last slot is issued
(R113). -/
def queuedOf (a : ArrayUnit) (c : Ctx) : Nat :=
  (a.queue.filter (fun q => q.c == c)).length + (match a.feeder with
    | some f => b2n (f.c == c)
    | none => 0)

/-- A LOAD or PASS enters its queue of 4 (R113). -/
def enqueueArr (n : Nat) (c : Ctx) (isLoad : Bool) (s : State) (i : Issued) (k : Option Kept) : Issue :=
  let a : Fin 4 := Fin.ofNat 4 (i.f 0 21 20)
  if memberHeld s n || decide (4 ≤ queuedOf (cluster s n).arrays[a] c) then .hold else
  .done (modArray s n a (fun u => { u with queue := u.queue ++
    [{ c := c, ins := i, isLoad := isLoad, slots := (k.map (·.slots)).getD 0 }] }))

/-- ARR_LOAD (R118, R121): LOAD enters the queue of its array; ARRAY_GRANT checks it and starts its pushes. -/
def execArrLoad (n : Nat) (c : Ctx) (s : State) : Host.Outcome State Fault Refusal :=
  .next (issue s n c 0 0 (enqueueArr n c true))

/-- ARR_PASS (R118, R119): PASS enters the queue of its array; ARRAY_GRANT checks it, FEEDER_SLOT_ISSUE streams it. -/
def execArrPass (n : Nat) (c : Ctx) (s : State) : Host.Outcome State Fault Refusal :=
  .next (issue s n c 0 1 (enqueueArr n c false))

/-- ARR_WIN (R118): WIN takes W without check. -/
def execArrWin (n : Nat) (c : Ctx) (s : State) : Host.Outcome State Fault Refusal :=
  .next (issue s n c 0 4 (fun t i _ =>
    if memberHeld t n then .hold else
    .done (modStream t n c (fun u => { u with win := BitVec.ofNat 10 (i.f 1 9 0) }))))

/-- Every array queue and the read-out queue of a context are empty (R113). -/
def arrQueuesEmpty (s : State) (n : Nat) (c : Ctx) : Bool :=
  (cluster s n).arrays.toList.all (fun a => queuedOf a c == 0) && (cluster s n).readq.all (fun p => p.1 != c)

/-- ARR_PART (R137, R74): held until the context's queues are empty and no change is pending; it completes once every
array is empty. A member of a fused group runs P1, so PART of a fused leader waits until the group is unfused (R66). -/
def execArrPart (n : Nat) (c : Ctx) (s : State) : Host.Outcome State Fault Refusal :=
  .next (issue s n c 0 5 (fun t i _ =>
    if memberHeld t n || (cluster t n).fused.isSome || !arrQueuesEmpty t n c || changePending t n then .hold
    else .done (tryChange (modCluster t n (fun k => { k with change := some (c, i) })) n)))

/-- ARR_FUSE (R68, R137): held as PART is; shape 0 unfuses the leader's group, and completes with no change at a cluster
that belongs to none. The checks of R66 are made here and again when the change completes. -/
def execArrFuse (n : Nat) (c : Ctx) (s : State) : Host.Outcome State Fault Refusal :=
  .next (issue s n c 0 6 (fun t i k =>
    if memberHeld t n || !arrQueuesEmpty t n c || changePending t n then .hold
    else
      let go := tryChange (modCluster t n (fun k => { k with change := some (c, i) })) n
      match fuseShapeOf i with
      | none => .done (if (cluster t n).fused.isSome then go else t)
      | some f => .done (if fuseOk t n f then go else noteFault t n c (k.getD (keptWhole i)) .badParam false)))

/-! ### Grants (R72) -/

/-- The contexts in rotation, beginning after one. -/
def rotation (c : Ctx) : List Ctx := (List.range 4).map (fun i => ctxOf ((ctxIdx c).val + 1 + i))

/-- A context takes grants: it gives up none by YIELD and no fault of it waits (R133, R73). -/
def takesGrants (s : State) (n : Nat) (c : Ctx) : Bool :=
  let t := stream s n c
  t.fault.isNone && decide (t.yieldUntil.toNat ≤ clk s)

/-- No earlier pass of the context that commits into an entry of a SET pass has a slot in flight, on any array (R135). -/
def setClear (s : State) (n : Nat) (c : Ctx) (i : Issued) : Bool :=
  i.f 0 9 9 == 0 ||
  (cluster s n).arrays.toList.all (fun a => !a.flight.any (fun q =>
    q.c == c && decide (q.passId < i.n) && entsMeet q.passEnt q.passM i.passEnt i.passM))

/-- An earlier load of a context into the bank of a pass has not committed (R71), on whichever array of the cluster it pushes: a PART
may have come between. -/
def loadAhead (s : State) (n : Nat) (c : Ctx) (i : Issued) : Bool :=
  (cluster s n).arrays.toList.any (fun a => match a.loading with
    | some l => l.c == c && l.bank.toNat == i.bank && decide (l.ins.n < i.n)
    | none => false)

/-- The next pass of a context for an array: the head of its queue, unless its bank awaits the commit of an earlier
load of the context (R71, R72). -/
def readyPass (s : State) (n : Nat) (a : ArrayUnit) (c : Ctx) : Option QEntry :=
  match a.queue.find? (fun q => q.c == c) with
  | some q => if q.isLoad || !takesGrants s n c || loadAhead s n c q.ins then none else some q
  | none => none

/-- The checks of a PASS at grant (R119, R56, R91, R123, R124, R144). -/
def passOk (s : State) (n a : Nat) (c : Ctx) (i : Issued) : Bool :=
  match arrayShape (cluster s n) n a, afmtOf (i.f 0 11 10), readTD s n (i.xr (i.f 0 3 0)) with
  | some h, some af, some t =>
    let u := stream s n c
    let b := i.bank
    let fs := h.quads.map (fun q => (bankPart (cluster s q.cl) q.q b).fmt)
    let row := i.xr (i.f 0 7 4)
    let m := i.passM
    let k0 := i.passK0
    let span := if fs.head? = some .t2 then 2 * h.nr else if fs.head? = some .i8 then h.nr / 2 else h.nr
    u.banks.getLsbD b && t.fmt == af && !tidReserved s t.tid &&
    (match fs with
     | f :: r => r.all (· == f) && (modeU f af).isSome
     | [] => false) &&
    aligned k0 32 && decide (k0 < t.k) &&
    decide (1 ≤ m) && decide (m ≤ 512) && decide (row + m ≤ t.rows) &&
    decide (i.passEnt + m ≤ 512) && decide (u.entLo.toNat ≤ i.passEnt) && decide (i.passEnt + m ≤ u.entHi.toNat + 1) &&
    decide (1 ≤ i.f 2 31 24) && decide (i.f 2 31 24 ≤ 128) && decide (i.f 2 23 17 + i.f 2 31 24 ≤ h.nc) &&
    winOk i.w10 && t.rowOk (row + m - 1) 0 (min t.k (k0 + span)) &&
    (i.f 3 3 0 == 0 || (let g := i.xr (i.f 3 3 0); aligned g 8 && inStore g 8))
  | _, _, _ => false

/-- The feeder of an array grants the next ready pass (R72). -/
def grantFeeder (s : State) (n : Nat) (a : Fin 4) : State :=
  let u := (cluster s n).arrays[a]
  if u.feeder.isSome || !clusterLive s n || memberHeld s n || changePending s n then s else
  match (rotation u.lastGrant).findSome? (fun c => readyPass s n u c) with
  | none => s
  | some q =>
    let s1 := modArray s n a (fun u => { u with queue := u.queue.filter (fun p => p ≠ q), lastGrant := q.c })
    if passOk s n a.val q.c q.ins then
      modArray s1 n a (fun u => { u with
        feeder := some { c := q.c, ins := q.ins, slots := q.slots, td := stBytes s n (q.ins.xr (q.ins.f 0 3 0)) 32 } })
    else noteFault s1 n q.c { keptWhole q.ins with slots := q.slots } .badParam false

/-- The checks of a LOAD at grant (R121). -/
def loadOk (s : State) (n a : Nat) (c : Ctx) (i : Issued) : Bool :=
  match arrayShape (cluster s n) n a with
  | some h =>
    (stream s n c).banks.getLsbD i.bank && aligned i.loadImg 64 &&
    inStore i.loadImg (h.quads.length * partLen (wfmtOf (i.f 0 11 10)))
  | none => false

/-- The parts of an image, each for its quadrant, in row-major order of the array's grid of quadrants: every member reads its own
quadrants from its own store (R121). -/
def loadParts (s : State) (h : Shape) (i : Issued) : List (Nat × Nat × BankPart) :=
  let f := wfmtOf (i.f 0 11 10)
  h.quads.map (fun q =>
    let p := q.row * (h.nc / 32) + q.col
    let b := stBytes s q.cl (i.loadImg + p * partLen f) (partLen f)
    (q.cl, q.q, { fmt := f, codes := b.take 512, scales := b.drop 512 }))

/-- The passes of a context through a bank of an array that precede a load and have not ended (R71). -/
def passesBefore (a : ArrayUnit) (c : Ctx) (b : Nat) (n : Nat) : List Nat :=
  ((a.queue.filter (fun q => q.c == c && !q.isLoad && q.ins.bank == b && decide (q.ins.n < n))).map (fun q => q.ins.n) ++
   (match a.feeder with
    | some f => if f.c == c && f.ins.bank == b && decide (f.ins.n < n) then [f.ins.n] else []
    | none => []) ++
   (a.flight.filter (fun q => q.c == c && q.bank.toNat == b && decide (q.passId < n))).map (fun q => q.passId)).dedup

/-- A PART or FUSE of a context is in progress at its own cluster: the loads that the context issued after it are for the
arrays that it makes, and wait for them (DEDUCED from program order, R113; log entry 39). -/
def changeOf (s : State) (n : Nat) (c : Ctx) : Bool :=
  match (cluster s n).change with
  | some (d, _) => d == c
  | none => false

/-- The load path of an array grants the next load (R72): loads go past passes that wait for the feeder, and each
commits before the next begins (R71). Its pushes are taken here. -/
def grantLoad (s : State) (n : Nat) (a : Fin 4) : State :=
  let u := (cluster s n).arrays[a]
  if u.loading.isSome || !clusterLive s n || memberHeld s n then s else
  match (rotation u.lastLoad).findSome? (fun c =>
      if takesGrants s n c && !changeOf s n c then u.queue.find? (fun q => q.c == c && q.isLoad) else none) with
  | none => s
  | some q =>
    let s1 := modArray s n a (fun u => { u with queue := u.queue.filter (fun p => p ≠ q), lastLoad := q.c })
    match arrayShape (cluster s n) n a.val, loadOk s n a.val q.c q.ins with
    | some h, true =>
      modArray s1 n a (fun u => { u with
        loading := some { c := q.c, ins := q.ins, bank := BitVec.ofNat 4 q.ins.bank, parts := loadParts s h q.ins,
                          before := passesBefore u q.c q.ins.bank q.ins.n } })
    | _, _ => noteFault s1 n q.c (keptWhole q.ins) .badParam false

/-- LOAD_COMMIT (R70, R71): the shift stages are written into the bank, once no slot of a preceding pass through it
remains to be issued and none is in the array. A pass that a fault has cut keeps slots to issue: the load does not commit. -/
def execLoadCommit (n : Nat) (a : Fin 4) (s : State) : Host.Outcome State Fault Refusal :=
  .next (
    let u := (cluster s n).arrays[a]
    let lat := (arrayShape (cluster s n) n a.val).elim 0 Shape.latency
    match u.loading with
    | some l =>
      let waits := l.before.any (fun p =>
        u.queue.any (fun q => q.c == l.c && q.ins.n == p) ||
        (stream s n l.c).kept.any (fun k => k.ins.n == p) ||
        (match u.feeder with
         | some f => f.c == l.c && f.ins.n == p
         | none => false) ||
        u.flight.any (fun q => q.c == l.c && q.passId == p && decide (u.ck < q.issued + lat)))
      if !clusterLive s n || waits then s else
      let s1 := l.parts.foldl (fun t p => modCluster t p.1 (fun k =>
        { k with banks := put k.banks (p.2.1 * 16 + l.bank.toNat) p.2.2 })) s
      modArray s1 n a (fun u => { u with loading := none })
    | none => s)

/-! ### Slots (R52 to R63, R89 to R92) -/

/-- What a slot's columns read of a pass: shape, descriptor, formats and row. -/
structure SlotIn where
  h : Shape
  t : TD
  w : WFmt
  i : Issued
  row : Nat
  deriving DecidableEq, Repr

/-- Rows of a tensor that a segment of the west edge reads: the member of that edge that feeds them (R67). -/
def SlotIn.feeds (x : SlotIn) (seg : Nat) : Nat :=
  match x.h.quadAt seg 0 with
  | some q => q.cl
  | none => 0

/-- The code of a reduction index in a row of the west edge; none at or beyond K: EV is 0 (R119). -/
def SlotIn.act (x : SlotIn) (s : State) (seg k : Nat) : Option Nat :=
  if k < x.t.k then some (x.t.getCode s (x.feeds seg) x.row k) else none

/-- The activation of cell row `r`, sub-lane `sub`, as the integer that enters the cells (R56 to R58). -/
def SlotIn.actVal (x : SlotIn) (s : State) (r sub : Nat) : Int :=
  let k0 := x.i.passK0
  match x.w with
  | .i8 => match x.act s (r / 32) (k0 + r / 2) with
    | some c => if r % 2 = 0 then sext 4 (c / 16) * 16 else (c % 16 : Nat)
    | none => 0
  | _ => match x.act s (r / 32) (k0 + r + sub * x.h.nr) with
    | some c => if x.t.fmt = .f4b then f4Val c else i4Val c
    | none => 0

/-- The weight of cell `(r, j)`, sub-lane `sub` (R56 to R58, R80). -/
def SlotIn.weight (x : SlotIn) (s : State) (r j sub : Nat) : Int :=
  match x.h.quadAt (r / 32) (j / 32) with
  | none => 0
  | some q =>
    let c := (bankPart (cluster s q.cl) q.q x.i.bank).cell (r % 32) (j % 32)
    match x.w with
    | .f4 => f4Val c
    | .i4 => i4Val c
    | .t2 => t2Val (c >>> (2 * sub))
    | .i8 => if j % 2 = 0 then sext 4 c else (c : Nat)

/-- Whether a column is enabled for the pass (R119). -/
def SlotIn.enabled (x : SlotIn) (j : Nat) : Bool :=
  decide (x.i.f 2 23 17 ≤ j) && decide (j < x.i.f 2 23 17 + x.i.f 2 31 24)

/-- The 16-bit lane, or sub-lane, of a column over a segment (R52): a cell of a column that is not enabled adds
nothing. -/
def SlotIn.lane (x : SlotIn) (s : State) (seg j sub : Nat) : Int :=
  if !x.enabled j then 0 else
  (List.range 32).foldl (fun a i => a + x.actVal s (32 * seg + i) sub * x.weight s (32 * seg + i) j sub) 0

/-- The scale of a column's segment and sub-lane (R61). -/
def SlotIn.wscale (x : SlotIn) (s : State) (seg j sub : Nat) : Nat :=
  match x.h.quadAt seg (j / 32) with
  | some q => (bankPart (cluster s q.cl) q.q x.i.bank).scale (j % 32) sub
  | none => 0

/-- The first reduction index of a segment and sub-lane (R89). -/
def SlotIn.segK (x : SlotIn) (seg sub : Nat) : Nat :=
  x.i.passK0 + (if x.w = .i8 then 16 * seg else 32 * seg) + sub * x.h.nr

/-- What the joint of a segment, column and sub-lane contributes (R89, R90): nothing when its rows all lie at or beyond
K; in I8 the pair of columns is joined in the even one. -/
def SlotIn.jointAt (x : SlotIn) (s : State) (seg j sub : Nat) : Nat × Bool :=
  let k := x.segK seg sub
  if x.t.k ≤ k ∨ (x.w = .i8 ∧ j % 2 = 1) then (0, false) else
  let p := if x.w = .i8 then 16 * x.lane s seg j 0 + x.lane s seg (j + 1) 0 else x.lane s seg j sub
  joint p (x.wscale s seg j sub) (x.t.getScale s (x.feeds seg) x.row (k / 32)) ((modeU x.w x.t.fmt).getD 0) x.i.w10

/-- The long lane of a column (R92), and whether a joint of it met a non-finite scale. -/
def SlotIn.column (x : SlotIn) (s : State) (j : Nat) : Nat × Bool :=
  let subs := if x.w = .t2 then [0, 1] else [0]
  (List.range (x.h.nr / 32)).foldl (fun a seg =>
    subs.foldl (fun b sub => let r := x.jointAt s seg j sub; (add64 b.1 r.1, b.2 || r.2)) a) (0, false)

/-! ### The feeder (R63, R64, R120) -/

/-- One entry of a projection: ck until it reaches the drain, and its accumulation bank. -/
abbrev DrainItem := Int × Nat

/-- The projection of R64: the arrays of the partition in order, at every ck until the last one's queue is empty; it
answers whether the queue of the last array ever exceeds 31 slots. -/
def projectDrain : Nat → Int → List (List DrainItem) → Bool
  | 0, _, _ => true
  | f + 1, t, qs =>
    let step := qs.foldl (fun (a : List Nat × List (List DrainItem)) q =>
      match q with
      | (r, b) :: rest => if decide (r ≤ t) && !a.1.contains b then (b :: a.1, a.2 ++ [rest]) else (a.1, a.2 ++ [q])
      | [] => (a.1, a.2 ++ [[]])) ([], [])
    match step.2.getLast? with
    | none => true
    | some [] => true
    | some q => decide ((q.filter (fun e => decide (e.1 ≤ t))).length ≤ 31) && projectDrain f (t + 1) step.2

/-- The drain items of an array. -/
def drainItems (a : ArrayUnit) (lat : Nat) : List DrainItem :=
  a.flight.map (fun q => (((q.issued + lat : Nat) : Int) - (a.ck : Int), q.entry % 4))

/-- Whether the drain rule admits a new slot of array `a` for an entry (R64): an array alone in its cluster never
fails it. -/
def drainAdmits (s : State) (n a entry : Nat) : Bool :=
  let k := cluster s n
  if k.part = .p1 then true else
  match arrayShape k n a with
  | none => true
  | some h =>
    let lat := h.latency
    let qs := (List.range (a + 1)).map (fun j =>
      let u := vgetD k.arrays j ArrayUnit.reset
      drainItems u lat ++ (if j = a then [(((lat : Nat) : Int), entry % 4)] else []))
    projectDrain (lat + 64 + (qs.map List.length).foldl (· + ·) 0) 0 qs

/-- The token gate of a slot (R120): open, shut, or a fault. -/
inductive Gate where
  | open | shut | fault (cause : Status)
  deriving DecidableEq, Repr

/-- The gate of slot `m` of a pass. -/
def tokenGate (s : State) (n m : Nat) (i : Issued) : Gate :=
  if i.f 3 3 0 = 0 then .open else
  let a := storeAddr n (i.xr (i.f 3 3 0))
  if poisoned s a 8 then .fault .degraded else
  let w := rdNat s a 8
  if wordOrphan? w then .fault .ownerLost
  else if i.xr (i.f 3 7 4) + m + 1 ≤ wordValue w then .open else .shut

/-- A member of a fused group that runs relayed through long-lane crossings, which issues a valid slot at most every
8 ck (R69). -/
def relayedSlow (s : State) (n : Nat) : Bool :=
  match (cluster s n).fused with
  | some f => f != .s64x128 && (fuseMembers n f).any (fun m =>
      (die s (m / 1024)).spares.any (fun e => e.2.1 && e.2.2.2.2 == m % 1024))
  | none => false

/-- A counter of the array status block (R78). -/
inductive ArrCount where
  | valid | feed | drain | throttle | filler
  deriving DecidableEq, Repr

/-- One more slot counted (R78). -/
def countSlot (s : State) (n : Nat) (k : ArrCount) : State :=
  modDie s (n / 1024) (fun d => match k with
    | .valid => { d with arrValid := satAdd d.arrValid 1 }
    | .feed => { d with arrFeed := satAdd d.arrFeed 1 }
    | .drain => { d with arrDrain := satAdd d.arrDrain 1 }
    | .throttle => { d with arrThrottle := satAdd d.arrThrottle 1 }
    | .filler => { d with arrFiller := satAdd d.arrFiller 1 })

/-- The array's clock advances by one ck. -/
def tickArray (s : State) (n : Nat) (a : Fin 4) : State := modArray s n a (fun u => { u with ck := u.ck + 1 })

/-- One ck in which the feeder issues a slot of a kind, which is counted (R78). -/
def slotTick (s : State) (n : Nat) (a : Fin 4) (k : ArrCount) : State :=
  modArray (countSlot s n k) n a (fun u => { u with ck := u.ck + 1, slotCk := some (u.ck + 1) })

/-- A column that a slot commits to (R63, R75). -/
def Slot.takes (q : Slot) (j : Nat) : Bool :=
  decide (q.colLo ≤ j) && decide (j < q.colLo + q.colN) && !(q.evenOnly && j % 2 == 1)

/-- A valid slot enters the array (R52 to R63): its sums are exact, so they are taken here and committed later (R77). A
joint that meets a non-finite scale sets NFS, whether or not its column is enabled for the pass (R60, R83, R90). After its last
slot the pass leaves the feeder (R72). -/
def issueSlot (s : State) (n : Nat) (a : Fin 4) (f : Feeding) (h : Shape) (t : TD) : State :=
  let w := match h.quads.head? with
    | some q => (bankPart (cluster s q.cl) q.q f.ins.bank).fmt
    | none => .f4
  let x : SlotIn := { h := h, t := t, w := w, i := f.ins, row := f.ins.xr (f.ins.f 0 7 4) + f.slots }
  let cols := (List.range h.nc).map (x.column s)
  let q : Slot := { c := f.c, passId := f.ins.n, wt := insWt f.ins.w, cut := false, passEnt := f.ins.passEnt,
                    passM := f.ins.passM, bank := BitVec.ofNat 4 f.ins.bank,
                    issued := (cluster s n).arrays[a].ck, set := f.ins.f 0 9 9 == 1, entry := f.ins.passEnt + f.slots,
                    colLo := f.ins.f 2 23 17, colN := f.ins.f 2 31 24, evenOnly := w == .i8,
                    lanes := cols.map (fun p => BitVec.ofNat 64 p.1), queued := false }
  let s1 := modArray s n a (fun u => { u with
    flight := u.flight ++ [q]
    feeder := if f.slots + 1 < f.ins.passM then some { f with slots := f.slots + 1 } else none })
  slotTick (modStream s1 n f.c (fun t => { t with nfs := t.nfs || cols.any (fun p => p.2) })) n a .valid

/-- Throttling is in force (R50, R415, R417). -/
def throttled (s : State) : Bool := s.power.envThr || s.power.thermThr

/-- FEEDER_SLOT_ISSUE (R63, R64, R120): one ck of an array. With a pass in the feeder it issues a valid slot or a bubble,
whose cause is counted in the order drain, throttle, feeder (R78); without one, a filler slot if there is filler work.
A gate word found orphaned or poisoned cuts the pass. While throttling is in force `throttle` says whether it takes this slot,
and while there is filler work `filler` says whether it takes this one: R50 gives no share (log entry 44). The bubbles of a
relayed group's 8 ck (R69) and of a first slot that the SET rule of R135 holds have no counter of their own: they count as
bubbles of a dry feeder (DESIGN CHOICE, log entry 44). -/
def execFeederSlotIssue (n : Nat) (a : Fin 4) (throttle filler : Bool) (s : State) : Host.Outcome State Fault Refusal :=
  .next (
    if !clusterLive s n then s else
    let u := (cluster s n).arrays[a]
    match u.feeder, arrayShape (cluster s n) n a.val with
    | some f, some h =>
      match parseTD f.td with
      | none => s
      | some t =>
        if !drainAdmits s n a.val (f.ins.passEnt + f.slots) then slotTick s n a .drain
        else if throttle && throttled s then slotTick s n a .throttle
        else match tokenGate s n f.slots f.ins with
          | .fault cause =>
            let k : Kept := { ins := f.ins, slots := f.slots, desc := none, units := 0 }
            tryChanges (noteFault (modArray s n a (fun u => { u with
              feeder := none
              ck := u.ck + 1
              flight := u.flight.map (fun q => if q.c == f.c && q.passId == f.ins.n then { q with cut := true } else q) }))
              n f.c k cause false) n
          | .shut => slotTick s n a .feed
          | .open =>
            if (f.slots == 0 && !setClear s n f.c f.ins) ||
               (relayedSlow s n && u.flight.any (fun q => decide (u.ck < q.issued + 8))) then
              slotTick s n a .feed
            else issueSlot s n a f h t
    | none, some _ => if filler && s.power.filler then slotTick s n a .filler else tickArray s n a
    | _, none => s)

/-! ### Commits (R64, R75) -/

/-- The slot that reaches the drain first, if it has reached it (R59, R64). -/
def dueSlot (k : Cluster) (n a : Nat) : Option Slot :=
  let u := vgetD k.arrays a ArrayUnit.reset
  match u.flight, arrayShape k n a with
  | q :: _, some h => if u.ck < q.issued + h.latency then none else some q
  | _, _ => none

/-- A lower-numbered array of the cluster has a slot due for the same accumulation bank (R64). -/
def losesBank (k : Cluster) (n a : Nat) (q : Slot) : Bool :=
  (List.range a).any (fun b => match dueSlot k n b with
    | some r => r.entry % 4 == q.entry % 4
    | none => false)

/-- The commit of a slot (R75): ADD or SET of the long lane of each enabled column. -/
def commitSlot (s : State) (h : Shape) (q : Slot) : State :=
  (List.range q.colN).foldl (fun t i =>
    let j := q.colLo + i
    if q.evenOnly && j % 2 == 1 then t else
    let d := h.drainAt j
    let v := (q.lanes.getD j 0).toNat
    accPut t d.1 q.entry d.2 (if q.set then v else add64 (accGet t d.1 q.entry d.2) v)) s

/-- Slots that have reached the drain and have not committed wait in the drain queue, in arrival order (R64). -/
def enterQueue (u : ArrayUnit) (lat : Nat) : ArrayUnit :=
  { u with flight := u.flight.map (fun q => if u.ck < q.issued + lat then q else { q with queued := true }) }

/-- DRAIN_COMMIT (R59, R64, R75): the oldest slot that has reached the drain commits, unless a lower-numbered array takes
its bank; what reached the drain behind it, or with it, waits in the drain queue. -/
def execDrainCommit (n : Nat) (a : Fin 4) (s : State) : Host.Outcome State Fault Refusal :=
  .next (
    if !clusterLive s n then s else
    match dueSlot (cluster s n) n a.val, arrayShape (cluster s n) n a.val with
    | some q, some h =>
      if losesBank (cluster s n) n a.val q then
        modArray s n a (fun u => enterQueue u h.latency)
      else tryChanges (modArray (commitSlot s h q) n a (fun u => enterQueue { u with flight := u.flight.tail } h.latency)) n
    | _, _ => s)

/-- The queued slots of an array commit, in arrival order. -/
def commitQueued (s : State) (n : Nat) (a : Fin 4) : State :=
  match arrayShape (cluster s n) n a.val with
  | none => s
  | some h =>
    let qs := (cluster s n).arrays[a].flight.filter (fun q => q.queued)
    if qs.isEmpty then s else
    modArray (qs.foldl (fun t q => commitSlot t h q) s) n a (fun u => { u with flight := u.flight.filter (fun q => !q.queued) })

/-- The drain queues of a cluster go ahead of an access to its accumulation store through the address map (R64). -/
def drainFirst (s : State) (n : Nat) : State :=
  if !clusterLive s n || (cluster s n).arrays.all (fun u => u.flight.all (fun q => !q.queued)) then s
  else tryChanges ([0, 1, 2, 3].foldl (fun t a => commitQueued t n a) s) n

end Sys2Proof.Machine
end

