-- ==== Sys2Proof/Machine/UpdMap.lean ====
section
/-! DEFINITION. Where training state lies (R170 to R175, R189): tiles, panels, shares and arrays of a tensor, and the
state ranges that the hold of R256 covers. -/

namespace Sys2Proof.Machine

/-- The arrays of a share (R172). -/
inductive UArr where
  | g | mast | mom1 | mom2 | dir | cc0 | cc1 | last
  deriving DecidableEq, Repr

/-- Tile size of an array (R172). -/
def UArr.size : UArr → Nat
  | .g => 4096
  | .mast => 6144
  | .mom1 => 4096
  | .mom2 => 4096
  | .dir => 4096
  | .cc0 => 548
  | .cc1 => 548
  | .last => 4

/-- The arrays that a rule has, in order (R172). -/
def arraysOf : URule → List UArr
  | .m => [.g, .mast, .mom1, .cc0, .cc1, .last]
  | .a => [.g, .mast, .mom1, .mom2, .cc0, .cc1, .last]
  | .o => [.g, .mast, .mom1, .dir, .cc0, .cc1, .last]
  | .k => [.g, .mast, .mom1, .dir, .cc0, .cc1, .last]

/-- T0: tiles of a slot (R172). -/
def Tensor.t0 (t : Tensor) : Nat := ceilDiv (t.kb * t.nb) 4

/-- Offset of an array in a share (R172). -/
def arrOff (r : URule) (t0 : Nat) (x : UArr) : Nat :=
  ((arraysOf r).takeWhile (· ≠ x)).foldl (fun a y => a + y.size * t0) 0

/-- Length of a share (R172). -/
def shareLen (r : URule) (t0 : Nat) : Nat := roundUp ((arraysOf r).foldl (fun a y => a + y.size * t0) 0) 4096

/-- The compute-copy array of a slot. -/
def ccArr (active : Bool) : UArr := if active then .cc1 else .cc0

/-- The address of share offset `o` of slot `j` of a region (R172, R246). -/
def shareAddr (region j o : Nat) : Nat := region + 16384 * (o / 4096) + 4096 * j + o % 4096

/-- The pieces of a range of share offsets that lie together: address and length. -/
def shareRuns (region j o n : Nat) : List (Nat × Nat) :=
  (pages o n).map (fun p => (shareAddr region j p, min (o + n) ((p / 4096 + 1) * 4096) - p))

/-- Share offset of a tile's array (R172). -/
def tileOff (r : URule) (t : Tensor) (x : UArr) (tile : Nat) : Nat := arrOff r t.t0 x + x.size * (tile / 4)

/-- Bytes of a tile's array, from `off`. -/
def rdTile (s : State) (r : URule) (t : Tensor) (x : UArr) (tile off n : Nat) : List Byte :=
  (shareRuns t.region (tile % 4) (tileOff r t x tile + off) n).flatMap (fun p => rdBytes s p.1 p.2)

/-- Bytes of a tile's array written. -/
def wrTile (s : State) (r : URule) (t : Tensor) (x : UArr) (tile off : Nat) (bs : List Byte) : State :=
  ((shareRuns t.region (tile % 4) (tileOff r t x tile + off) bs.length).foldl
    (fun (p : State × List Byte) q => (wrBytes p.1 q.1 (p.2.take q.2), p.2.drop q.2)) (s, bs)).1

/-- A tile's array touches a poisoned line. -/
def tileBad (s : State) (r : URule) (t : Tensor) (x : UArr) (tile off n : Nat) : Bool :=
  (shareRuns t.region (tile % 4) (tileOff r t x tile + off) n).any (fun p => poisoned s p.1 p.2)

/-! ### Panels and tiles (R170, R171) -/

/-- Panels along N. -/
def Tensor.panelCols (t : Tensor) : Nat := ceilDiv t.nb t.pnt
/-- Panels of a tensor. -/
def Tensor.panels (t : Tensor) : Nat := ceilDiv t.kb t.pkt * t.panelCols

/-- First K-tile, first N-tile, height and width in tiles of a panel. -/
def Tensor.panelBox (t : Tensor) (p : Nat) : Nat × Nat × Nat × Nat :=
  let a := p / t.panelCols * t.pkt
  let b := p % t.panelCols * t.pnt
  (a, b, min t.pkt (t.kb - a), min t.pnt (t.nb - b))

/-- The number of the tile at K-tile `a`, N-tile `b` (R171): panels row by row along K, tiles row by row in a panel. -/
def Tensor.tileNo (t : Tensor) (a b : Nat) : Nat :=
  let h := min t.pkt (t.kb - a / t.pkt * t.pkt)
  let w := min t.pnt (t.nb - b / t.pnt * t.pnt)
  a / t.pkt * t.pkt * t.nb + b / t.pnt * t.pnt * h + a % t.pkt * w + b % t.pnt

/-- The coordinates of a tile. -/
def Tensor.tileAt (t : Tensor) (n : Nat) : Nat × Nat :=
  let pa := n / (t.pkt * t.nb)
  let r := n % (t.pkt * t.nb)
  let h := min t.pkt (t.kb - pa * t.pkt)
  let pb := r / (t.pnt * h)
  let q := r % (t.pnt * h)
  let w := min t.pnt (t.nb - pb * t.pnt)
  (pa * t.pkt + q / w, pb * t.pnt + q % w)

/-- Tiles of a tensor. -/
def Tensor.tiles (t : Tensor) : Nat := t.kb * t.nb

/-- The freeze bits of a tile (R175). -/
def freezeBits (s : State) (t : Tensor) (tile : Nat) : Nat :=
  if t.freeze = 0 then 0 else rdNat s (t.freeze + 4 * tile) 4

/-! ### K state (R189) -/

/-- Elements of the matrices of a panel: pk and pn. -/
def Tensor.panelDim (t : Tensor) (p : Nat) : Nat × Nat :=
  let b := t.panelBox p
  (32 * b.2.2.1, 32 * b.2.2.2)

/-- Bytes of a panel's record. -/
def Tensor.recLen (t : Tensor) (p : Nat) : Nat :=
  let d := t.panelDim p
  roundUp (12 * (d.1 * d.1 + d.2 * d.2)) 4096

/-- Address of a panel's record. -/
def Tensor.recAt (t : Tensor) (p : Nat) : Nat := (List.range p).foldl (fun a q => a + t.recLen q) t.kstate

/-- The matrices of a record: statistics, and root slots 0 and 1. -/
inductive KMat where
  | lst | rst | lr (slot : Bool) | rr (slot : Bool)
  deriving DecidableEq, Repr

/-- Offset and dimension of a matrix of a record (R189). -/
def KMat.place (x : KMat) (pk pn : Nat) : Nat × Nat :=
  let l := 4 * pk * pk
  let r := 4 * pn * pn
  match x with
  | .lst => (0, pk)
  | .rst => (l, pn)
  | .lr false => (l + r, pk)
  | .rr false => (2 * l + r, pn)
  | .lr true => (2 * (l + r), pk)
  | .rr true => (2 * (l + r) + l, pn)

/-! ### State ranges (R256) -/

/-- Whether two intervals meet. -/
def spansMeet (a n b m : Nat) : Bool := decide (a < b + m) && decide (b < a + n)

/-- A piece of an access that lies in one page touches a state range of a tensor. -/
def pieceInTensor (s : State) (t : Tensor) (r : URule) (a n : Nat) : Bool :=
  (match place a with
   | .stack k o =>
     let v := viewOf k o
     let base := viewBase + t.die.val * viewStride
     let off := base + v.2 - t.region
     if v.1 = t.die.val ∧ t.region ≤ base + v.2 ∧ off < 4 * shareLen r t.t0 then
       let so := off / 16384 * 4096 + off % 4096
       ((arraysOf r).filter (fun x => x ≠ .g ∧ x ≠ .dir ∧ x ≠ ccArr s.upd.ccActive)).any (fun x =>
         spansMeet so n (arrOff r t.t0 x) (x.size * t.t0))
     else false
   | _ => false) ||
  (r == .k &&
    (let len := (List.range t.panels).foldl (fun x p => x + t.recLen p) 0
     (pages t.kstate len).any (fun p => keyOf p / 4096 == keyOf a / 4096)))

/-- Whether an access touches a state range of a VALID tensor of the latched list (R256). -/
def inStateRange (s : State) (a n : Nat) : Bool :=
  s.upd.tensors.any (fun t => match look s.upd.groups t.group with
    | some g => (pages a n).any (fun p => pieceInTensor s t g.rule p (min (a + n) ((p / 4096 + 1) * 4096) - p))
    | none => false)

/-- What an observer read meets (R257, R258): DONE, BUSY during the hold, DEGRADED while the state has failed. While MEM_FAILED
is set only the hold of a REPLAY goes before it. -/
def observerStatus (s : State) (a n : Nat) : Status :=
  if !(s.memblk.hold || s.memblk.failed) then .done
  else if !inStateRange s a n then .done
  else if s.memblk.failed && s.ckpt.replaying.isNone then .degraded
  else if s.memblk.hold then .busy else .degraded

/-- An observer read that the hold refuses or makes wait is counted (R265). -/
def countHeld (s : State) : State := { s with memblk := { s.memblk with cntHeld := satAdd s.memblk.cntHeld 1 } }

/-- The state after the decision on an observer read (R257): counted when the hold alone refuses it. `first` is the decision
of the checks before it. -/
def noteObserver (s : State) (first held : Status) : State := if first = .done ∧ held = .busy then countHeld s else s

end Sys2Proof.Machine
end

