-- ==== Sys2Proof/Machine/Regs.lean ====
section
/-! DEFINITION. Control register space, reading: the value of every register of R457 and R458 as taken at one instant
(R460), and 0 at an offset that no register occupies (R459). -/

namespace Sys2Proof.Machine

/-- A register word from its fields: value, width, lowest bit. -/
def regWord (l : List (Nat × Nat × Nat)) : Nat := l.foldl (fun a f => a + fieldAt f.1 f.2.1 f.2.2) 0

/-- A count saturating at `w` bits. -/
def satN (w n : Nat) : Nat := min n (2 ^ w - 1)

/-! ### Package identity (R33) -/

/-- Codes of a die state (R33). -/
def DieState.code : DieState → Nat
  | .off => 0
  | .up => 1
  | .narrow => 2
  | .fenced => 3

/-- Codes of a stack state (R33). -/
def StackState.code : StackState → Nat
  | .off => 0
  | .up => 1
  | .selfRefresh => 2
  | .fenced => 3

/-- The remap table has been applied: from the end of stage 5 on (R430). Until then the flash repair log alone holds it. -/
def remapApplied (s : State) : Bool :=
  s.boot.fromDark || (decide (6 ≤ s.boot.stage.toNat) && decide (s.boot.stage.toNat ≤ 9))

/-- Spare clusters of a die in use (R33). -/
def sparesUsed (s : State) (k : Nat) : Nat :=
  if remapApplied s then ((die s k).spares.filter (fun e => e.2.1)).length else 0

/-- Registers of the package identity block (R33). -/
def readIdentity (s : State) (o : Nat) : Nat :=
  match o with
  | 0x00 => regWord [(0x0416, 16, 48), (4, 8, 40), (0x10, 8, 32), (0x18, 8, 24), (1, 8, 16), (Config.stepping.toNat, 16, 0)]
  | 0x08 => s.pkgId.toNat
  | 0x10 => regWord ((List.range 4).flatMap (fun k =>
      [((die s k).st.code, 2, 8 * k + 6), (sparesUsed s k, 6, 8 * k)]))
  | 0x18 => regWord ((List.range 16).map (fun k => ((stackUnit s k).st.code, 2, 2 * k)))
  | _ => 0

/-! ### Invar (R42) -/

/-- FT_ERR_EST in ns: a started ns counts in full. -/
def errNs (s : State) : Nat := min (ceilDiv s.inv.err 20000000) 0xFFFF

/-- Registers of the Invar block (R42). -/
def readInvar (s : State) (o : Nat) : Nat :=
  let v := s.inv
  match o with
  | 0x00 => v.ft.toNat
  | 0x08 => regWord [(errNs s, 16, 32), (v.depth.toNat, 8, 24), (v.src.toNat, 8, 8), (v.state.toNat, 3, 0)]
  | 0x10 => regWord [(v.parent.toNat, 8, 8), (b2n v.timeinEn, 1, 2), (b2n v.en1588, 1, 1), (b2n v.linkEn, 1, 0)]
  | 0x18 => v.tickNs.toNat
  | 0x20 => v.horizon.toNat
  | 0x28 => v.timeinDelay.toNat
  | 0x30 => regWord [(v.cntTimeinIgn.toNat, 16, 48), (v.cntWindowMissed.toNat, 16, 32), (v.cntNotYet.toNat, 16, 16),
                     (v.cntLatePost.toNat, 16, 0)]
  | _ => 0

/-! ### Guard, update, exchange (R166, R200, R241) -/

/-- Registers of the guard block (R166). -/
def readGuard (s : State) (o : Nat) : Nat :=
  let g := s.guard
  match o with
  | 0x00 => g.tableBase.toNat + b2n g.en
  | 0x08 => g.logBase.toNat
  | 0x10 => g.logRecs.toNat
  | 0x18 =>
    let ov := (g.cfg.map (fun e => guardWord s e.1 10)).sum
    let capped := (g.cfg.filter (fun e => bit (guardWord s e.1 9) 0)).length
    regWord [(sat32 ov, 32, 32), (capped, 13, 16), (satN 3 g.rejected, 3, 13), (g.cfg.length, 13, 0)]
  | 0x20 => g.untrkElems.toNat
  | 0x28 => g.untrkSat.toNat
  | 0x30 => g.untrkNonfin.toNat
  | _ => 0

/-- Registers of the package update block (R200). -/
def readUpd (s : State) (o : Nat) : Nat :=
  let u := s.upd
  match o with
  | 0x00 => regWord [(satN 8 u.refreshing.length, 8, 56), (u.tensors.length, 16, 40), (u.groups.length, 13, 27),
                     (satN 3 u.rejected, 3, 24), (b2n u.load.isSome, 1, 11), (b2n u.ccActive, 1, 10), (u.phase.toNat, 4, 4)]
  | 0x08 => u.areaBase.toNat
  | 0x10 => u.stateBase.toNat
  | 0x18 => u.refreshBase.toNat
  | 0x20 => u.refreshClusters.toNat
  | 0x28 => u.digestLo.toNat
  | 0x30 => u.digestHi.toNat
  | 0x38 => u.digestEpoch.toNat
  | 0x40 => u.norm.toNat
  | 0x48 => u.cntBytes.toNat
  | 0x50 => u.cntSkipped.toNat * 2 ^ 32 + u.cntDone.toNat
  | _ => 0

/-- Whether a committed step of the exchange log is logged (R239). -/
def exLogged (s : State) (e : Nat) : Bool := s.exch.log.any (fun x => x.epoch.toNat == e && x.logged)

/-- EX_LOG_VALID (R241): the step in progress and the committed steps e to e − 3. -/
def exLogValid (s : State) : Nat :=
  let e := s.memblk.epoch.toNat
  b2n (s.memblk.stepOn && exLogged s (e + 1)) +
  ((List.range 4).map (fun i => b2n (decide (i ≤ e) && exLogged s (e - i)) * 2 ^ (i + 1))).sum

/-- OP_IDs with early records held (R236). -/
def earlyIds (s : State) : List W32 := (s.exch.early.map (fun p => p.1.opId)).dedup

/-- An operation is a gradient operation: KIND 0 (R234). -/
def ExOp.isGrad (x : ExOp) : Bool := x.p.kind == 0

/-- Registers of the exchange block (R241). -/
def readExch (s : State) (o : Nat) : Nat :=
  let x := s.exch
  match o with
  | 0x00 => regWord [(exLogValid s, 5, 24), ((earlyIds s).length, 5, 15),
                     ((x.ops.filter (fun p => !p.isGrad)).length, 8, 7), ((x.ops.filter ExOp.isGrad).length, 7, 0)]
  | 0x08 => x.layout.toNat
  | 0x10 => x.groupBase.toNat
  | 0x18 => x.tensorBase.toNat
  | 0x20 => x.bufBase.toNat
  | 0x28 => x.bufSize.toNat
  | 0x30 => x.logBase.toNat
  | 0x38 => x.logSize.toNat
  | 0x40 => x.cntTx.toNat
  | 0x48 => x.cntRx.toNat
  | 0x50 => x.cntStale.toNat
  | 0x58 => x.cntDup.toNat
  | 0x60 => x.cntNonfin.toNat
  | _ => 0

/-- Registers of the package memory block (R265). -/
def readMem (s : State) (o : Nat) : Nat :=
  match o with
  | 0x00 => s.memblk.epoch.toNat
  | 0x08 => regWord [(b2n s.memblk.failed, 1, 2), (b2n s.ckpt.capture.isSome, 1, 1), (b2n s.memblk.hold, 1, 0)]
  | 0x10 => s.memblk.cntHeld.toNat
  | 0x18 => s.memblk.cntCow.toNat
  | _ => 0

/-! ### Die links and barriers (R288, R289, R285) -/

/-- The AND of a channel over the four dies (R285): that of a die without power is 0. -/
def channelAnd (s : State) (ch : Nat) : Bool :=
  (List.range 4).all (fun d => dieFenced s d || (die s d).on &&
    (die s d).barMask.all (fun e => e.1 / 16 != ch ||
      (List.range 64).all (fun i => !e.2.getLsbD i ||
        (vgetD s.sync.barriers ch Barrier.reset).arrived.contains (1024 * d + 64 * (e.1 % 16) + i))))

/-- Registers of the die-link package block (R288). -/
def readD2dPkg (s : State) (o : Nat) : Nat :=
  match o with
  | 0x00 => regWord ((List.range 8).flatMap (fun e => [(edgeState s e, 2, 8 * e + 6), (edgeWidth s e, 6, 8 * e)]))
  | 0x28 => regWord ((List.range 16).flatMap (fun c =>
      [(b2n (vgetD s.sync.barriers c Barrier.reset).phase, 1, 16 + c), (b2n (channelAnd s c), 1, c)]))
  | 0x30 => s.sync.cntRelease.toNat
  | _ =>
    if o = 0x08 ∨ o = 0x10 ∨ o = 0x18 ∨ o = 0x20 then
      let u := (edge s (4 + (o / 8 - 1))).2
      regWord [(u.peerMask.toNat, 16, 32), (u.mask.toNat, 16, 0)]
    else 0

/-- The end of die `k` on its local edge (R289). -/
def dieEdge (k e : Nat) : EdgeEnd :=
  match e with
  | 0 => ⟨Fin.ofNat 8 (k % 4), false⟩
  | 1 => ⟨Fin.ofNat 8 ((k + 3) % 4), true⟩
  | _ => ⟨Fin.ofNat 8 (4 + k % 4), false⟩

/-- Registers of the die-link and mesh block of a die (R289). A fenced die's BAR_MASK reads as 0 (R287). -/
def readD2dDie (s : State) (k o : Nat) : Nat :=
  let d := die s k
  if o < 0xC0 then
    let l := linkEnd s (dieEdge k (o / 0x40))
    match o % 0x40 with
    | 0x00 => regWord [(l.attempt.toNat, 8, 32), (l.cause.toNat, 8, 16), (popCount 32 l.mask.toNat, 6, 8),
                       (l.tstate.toNat, 3, 0)]
    | 0x08 => l.peerMask.toNat * 2 ^ 32 + l.mask.toNat
    | 0x10 => l.exclude.toNat
    | 0x18 => l.cntFlits.toNat
    | 0x20 => l.cntCrc.toNat
    | 0x28 => l.cntReplay.toNat
    | 0x30 => l.cntTrain.toNat
    | _ => 0
  else if 0x100 ≤ o ∧ o < 0x900 then
    (if dieFenced s k then 0 else (lookD d.barMask ((o - 0x100) / 8) 0).toNat)
  else match o with
    | 0xC0 => regWord [(d.meshReqMax.toNat, 8, 8), (d.meshRspMax.toNat, 8, 0)]
    | 0xC8 => d.meshReq.toNat
    | 0xD0 => d.meshRsp.toNat
    | 0xD8 => d.meshCombined.toNat
    | 0xE0 => d.meshBad.toNat
    | _ => 0

/-! ### Fabric (R315, R316) -/

/-- Registers of the fabric package block (R315). -/
def readFab (s : State) (o : Nat) : Nat :=
  let f := s.fab
  match o with
  | 0x00 => regWord [(f.txns.length, 17, 32), ((f.sends.filter (flowE2e s)).length, 15, 16), (f.incarn.toNat, 8, 8),
                     ((f.ports.toList.filter Port.isUp).length, 5, 0)]
  | 0x08 => regWord [(b2n f.e2eAll, 1, 2), (b2n f.fwdEn, 1, 1), (b2n f.en, 1, 0)]
  | 0x10 => f.routeBase.toNat
  | 0x18 => f.peerBase.toNat
  | 0x20 => f.flowBase.toNat
  | 0x28 => regWord [(f.toService.toNat, 16, 32), (f.toE2e.toNat, 16, 16), (f.tries.toNat, 8, 0)]
  | 0x30 => f.cntNoroute.toNat
  | 0x38 => f.cntResend.toNat
  | 0x40 => f.cntDup.toNat
  | 0x48 => f.cntEcrc.toNat
  | 0x50 => f.cntStale.toNat
  | 0x58 => f.cntUnreach.toNat
  | 0x60 => f.cntBad.toNat
  | _ => 0

/-- Flits that the receive buffers of a VN hold (R316). -/
def vnHeld (q : Port) (vn : Bool) : Nat := q.rxHeld.countP (fun h => decide (h.2 / 2 % 2 = b2n vn))

/-- Registers of a port block (R316). The Ethernet registers exist on P0 to P3 only. -/
def readPort (s : State) (n o : Nat) : Nat :=
  let p := port s n
  match o with
  | 0x00 => regWord [(p.lineNext.toNat, 8, 16), (p.line.toNat, 3, 9), (b2n p.dateline, 1, 8), (b2n p.raw, 1, 5),
                     (p.ethRate.toNat, 2, 2), (p.mode.toNat, 2, 0)]
  | 0x08 => regWord [(1, 1, 31), (p.lanes.toNat, 4, 24), (b2n p.fecStd, 1, 23), (p.downCause.toNat, 8, 8),
                     (p.pstate.toNat, 3, 0)]
  | 0x10 => regWord [(p.peerPart.toNat, 16, 48), (p.peerPort.toNat, 8, 32), (p.peerIncarn.toNat, 8, 24),
                     (p.peerId.toNat, 16, 0)]
  | 0x18 => p.asym.toNat
  | 0x20 => p.txPkts.toNat
  | 0x28 => p.rxPkts.toNat
  | 0x30 => p.txBytes.toNat
  | 0x38 => p.rxBytes.toNat
  | 0x40 => p.fecCorr.toNat
  | 0x48 => p.fecUncorr.toNat
  | 0x50 => p.crc.toNat
  | 0x58 => p.replayCnt.toNat
  | 0x60 => p.train.toNat
  | 0x68 => regWord [(p.qmaxReq.toNat, 16, 48), (p.qmaxRsp.toNat, 16, 32), (satN 16 (vnHeld p false), 16, 16),
                     (satN 16 (vnHeld p true), 16, 0)]
  | 0x70 => p.stallReq.toNat
  | 0x78 => p.stallRsp.toNat
  | 0x80 => if n < 4 then p.ethMac.toNat else 0
  | 0x88 => if n < 4 then p.ethIpLo.toNat else 0
  | 0x90 => if n < 4 then p.ethIpHi.toNat else 0
  | 0x98 => if n < 4 then p.ethQp.toNat else 0
  | _ => 0

/-! ### Sync, command, twin, checkpoint (R334, R364, R384, R385) -/

/-- Contexts that poll: a full watch table or a remote WAIT (R322). -/
def pollers (s : State) : Nat :=
  (s.clusters.map (fun e => (e.2.streams.toList.filter (fun t => match t.block with
    | .poll _ _ => true
    | .remotePoll _ => true
    | .remote => (match t.blocked with
      | some i => insOp i.w == 3
      | none => false)
    | _ => false)).length)).sum

/-- Registers of the sync block (R334). -/
def readSync (s : State) (o : Nat) : Nat :=
  let y := s.sync
  match o with
  | 0x00 => regWord ((List.range 16).map (fun c => (b2n (vgetD y.barriers c Barrier.reset).armed.isSome, 1, 48 + c)) ++
      [(y.index.length, 17, 31), (satN 15 y.monitors.length, 15, 16), (satN 16 (y.waiters.length + pollers s), 16, 0)])
  | 0x08 => y.tableBase.toNat
  | 0x10 => y.pollNs.toNat
  | 0x18 => y.cntOps.toNat
  | 0x20 => y.cntRetry.toNat
  | 0x28 => y.cntUnderflow.toNat
  | 0x30 => y.cntOrphan.toNat
  | _ => 0

/-- Entries of the queue that arrived without NB (R345). -/
def queuedArrivals (s : State) : Nat := (s.cmd.queue.filter (fun q => q.hdr.posted.isNone)).length

/-- Command processors in use between commands (R364): those whose command waits for another package (R345) or for an edge that trains
(R276). Every other command starts and ends within one command of this model (log entry 53). -/
def procsBusy (s : State) : Nat := min (s.cmd.waits.length + s.cmd.held.length) 8

/-- Registers of the command block (R364). CMD_QUEUED counts the 1,024 entries of commands without NB; commands dispatched from the
schedule take their places in the further entries that R345 reserves for them. -/
def readCmd (s : State) (o : Nat) : Nat :=
  let c := s.cmd
  match o with
  | 0x00 => regWord [(satN 11 (queuedArrivals s), 11, 32), (c.sessions.length, 7, 24), (satN 9 c.longs.length, 9, 4),
                     (procsBusy s, 4, 0)]
  | 0x08 => regWord [(c.udpPort.toNat, 16, 48), (c.progressMs.toNat, 16, 32), (c.sliceNs.toNat, 32, 0)]
  | 0x10 => (vgetD c.ip 0 0).toNat
  | 0x18 => (vgetD c.ip 1 0).toNat
  | 0x20 => (vgetD c.ip 2 0).toNat
  | 0x28 => (vgetD c.ip 3 0).toNat
  | 0x30 => c.cntRx.toNat
  | 0x38 => c.cntDiscard.toNat
  | 0x40 => c.cntAuthFail.toNat
  | 0x48 => c.cntDup.toNat
  | 0x50 => c.cntBusy.toNat
  | _ => 0

/-- The step of the replay log that builds epoch `e`, if it is logged (R371). -/
def logStep (s : State) (e : Nat) : Option LogStep := s.twin.log.find? (fun x => x.epoch.toNat == e && x.logged)

/-- RPL_LOGGED (R384). -/
def rplLogged (s : State) : Nat :=
  let e := s.memblk.epoch.toNat
  let n := ((List.range 4).filter (fun i => decide (i ≤ e) && (logStep s (e - i)).isSome)).length
  b2n (s.memblk.stepOn && (logStep s (e + 1)).isSome) + 2 * min n 3

/-- Registers of the twin block (R384). -/
def readTwin (s : State) (o : Nat) : Nat :=
  let t := s.twin
  match o with
  | 0x00 => regWord [(t.peerId.toNat, 16, 48), (t.mark.toNat, 4, 36), (t.cause.toNat, 8, 24),
                     (b2n (port s 22).isUp, 1, 16), (b2n (port s 23).isUp, 1, 17), (rplLogged s, 3, 13), (t.st.toNat, 3, 0)]
  | 0x08 => regWord [(t.digestToMs.toNat, 16, 16), (t.hbLimitUs.toNat, 16, 0)]
  | 0x10 => t.orig.toNat % 2 ^ 64
  | 0x18 => t.orig.toNat / 2 ^ 64
  | 0x20 => t.peer.toNat % 2 ^ 64
  | 0x28 => t.peer.toNat / 2 ^ 64
  | 0x30 => t.logBase.toNat
  | 0x38 => t.logSize.toNat
  | 0x40 => t.epoch.toNat
  | 0x48 => t.cntMatch.toNat
  | 0x50 => t.cntMismatch.toNat
  | 0x58 => t.cntReplay.toNat
  | 0x60 => t.cntHbLost.toNat
  | _ => 0

/-- CKPT_OP (R385). -/
def ckptOp (s : State) : Nat :=
  if s.ckpt.capture.isSome then 1 else if s.ckpt.restore.isSome then 2 else if s.ckpt.replaying.isSome then 3 else 0

/-- Registers of the checkpoint block (R385). -/
def readCkpt (s : State) (o : Nat) : Nat :=
  let c := s.ckpt
  match o with
  | 0x00 => regWord [(c.lastStatus.toNat, 8, 56), (b2n c.baseValid, 1, 16), (ckptOp s, 2, 0)]
  | 0x08 => c.baseEpoch.toNat
  | 0x10 => c.baseLoc.addr.toNat
  | 0x18 => regWord [(c.baseNreg.toNat, 13, 32), (c.baseLoc.qp.toNat, 8, 16), (c.baseLoc.port.toNat, 8, 8),
                     (c.baseLoc.kind.toNat, 8, 0)]
  | 0x20 => c.baseManifest.toNat
  | 0x28 => c.cntBytes.toNat
  | 0x30 => c.cntCaptures.toNat
  | _ => 0

/-! ### Security, power, boot (R409, R462, R427, R437) -/

/-- The lifecycle, derived from the first that holds (R462): 3 RMA, 4 LOCKED, 2 DEBUG, 1 OWNED, 0 UNOWNED. -/
def lifecycle (s : State) : Nat :=
  if s.cob.rma then 3
  else if !s.cob.provOk then 4
  else if s.cob.debug then 2
  else if (look s.cob.creds 0).isSome then 1 else 0

/-- Word `2h` and `2h + 1` of an entry of the selected target (R409). -/
def accWindow (s : State) (e h : Nat) : Nat :=
  bits (lookD s.cob.table (s.cob.accSel.toNat * 64 + e) 0).toNat (64 * h + 63) (64 * h)

/-- Registers of the security block (R409). COB_CRED_INSTALL and COB_DEBUG_UNLOCK are WO and read 0 (R14). -/
def readCob (s : State) (o : Nat) : Nat :=
  let c := s.cob
  if 0x100 ≤ o ∧ o < 0x180 then
    ((List.range 8).map (fun i => (lookD c.ctrs ((o - 0x100) + i) 0).toNat * 256 ^ i)).sum
  else if 0x1000 ≤ o ∧ o < 0x1400 then accWindow s ((o - 0x1000) / 16) ((o - 0x1000) / 8 % 2)
  else match o with
    | 0x000 => regWord [(c.revoked.toNat, 4, 20), (c.keyslot.toNat, 4, 16), (b2n c.bootSlot, 1, 8), (lifecycle s, 3, 0)]
    | 0x010 => regWord ([(c.credLast.toNat, 8, 16)] ++ c.creds.map (fun e => (1, 1, e.1)))
    | 0x018 => c.chal.toNat
    | 0x028 => c.cntDenied.toNat
    | 0xFF8 => c.accSel.toNat
    | _ => 0

/-- PWR_THERMAL (R427). -/
def thermalWord (s : State) : Nat :=
  let t := s.power.temps
  let g := fun k => (t.cd.getD k 0).toNat
  let all := [g 0, g 1, g 2, g 3, t.iod.toNat, t.stackHot.toNat]
  regWord [(t.stackHot.toNat, 8, 48), (t.iod.toNat, 8, 40), (g 3, 8, 32), (g 2, 8, 24), (g 1, 8, 16), (g 0, 8, 8),
           (all.foldl max 0, 8, 0)]

/-- PWR_INPUT (R427). -/
def inputWord (s : State) : Nat :=
  let p := s.power
  regWord [(p.vinMv.toNat, 16, 48), (satN 16 p.p100, 16, 32), (satN 16 p.limit, 16, 16), (satN 16 p.low, 16, 0)]

/-- Registers of the power block (R427). -/
def readPower (s : State) (o : Nat) : Nat :=
  let p := s.power
  match o with
  | 0x00 => regWord [(p.wakeLast.toNat, 4, 20), (b2n p.excursion, 1, 19), (b2n p.thermThr, 1, 18), (b2n p.envThr, 1, 17),
                     (b2n p.deferredRun.isSome, 1, 16), (p.mode.toNat, 2, 8), ((p.entering.getD p.st).toNat, 2, 4),
                     (b2n p.entering.isSome, 1, 3), (p.st.toNat, 2, 0)]
  | 0x08 => regWord [(p.slew.toNat, 16, 32), (p.floor.toNat, 16, 16), (p.target.toNat, 16, 0)]
  | 0x10 => inputWord s
  | 0x18 => p.wakeCfg.toNat
  | 0x20 => p.wakeFt.toNat
  | 0x28 => thermalWord s
  | 0x30 => p.thermWarn.toNat * 256
  | 0x38 => p.cntEnergy.toNat
  | 0x40 => p.cntIfEnergy.toNat
  | 0x48 => p.cntEnvThr.toNat
  | 0x50 => p.cntThermThr.toNat
  | 0x58 => p.cntExcursion.toNat
  | _ => 0

/-- Registers of the boot block (R437). -/
def readBoot (s : State) (o : Nat) : Nat :=
  let b := s.boot
  match o with
  | 0x00 => regWord [(b.fail.toNat, 8, 40), (b.warn.toNat, 8, 32), (b.stage.toNat, 4, 0)]
  | 0x08 => regWord [(b.tries.toNat, 2, 12), (b2n b.trial, 1, 8), (b2n b.lastGood, 1, 4), (b2n b.active, 1, 0)]
  | 0x10 => b.ftStart.toNat
  | 0x18 => b.ftReg.toNat
  | _ => 0

/-! ### Compute dies (R78, R143, R201, R266, R386) -/

/-- The clusters of a die whose state is held. -/
def dieClusters (s : State) (k : Nat) : List (Nat × Cluster) := s.clusters.filter (fun e => e.1 / 1024 == k)

/-- Whether a fused group runs relayed: a member of it has been remapped (R69). -/
def groupRelayed (s : State) (n : Nat) : Bool :=
  match (cluster s n).fused with
  | some f => (fuseMembers n f).any (fun m => (die s (m / 1024)).spares.any (fun e => e.2.1 && e.2.2.2.2 == m % 1024))
  | none => false

/-- An array has a slot in flight (R78): a valid one that has not committed, or a bubble or filler slot still in the array. -/
def arrayBusy (k : Cluster) (n a : Nat) : Bool :=
  let u := k.arrays[Fin.ofNat 4 a]
  !u.flight.isEmpty || (match u.slotCk, arrayShape k n a with
    | some c, some h => decide (u.ck < c + h.latency)
    | _, _ => false)

/-- Registers of the array status block of a die (R78). -/
def readArr (s : State) (k o : Nat) : Nat :=
  let d := die s k
  match o with
  | 0x00 =>
    let cs := dieClusters s k
    let fused := cs.filter (fun e => e.2.fused.isSome)
    let busy := (cs.map (fun e => ((List.range 4).filter (arrayBusy e.2 e.1)).length)).sum
    regWord [(satN 8 (fused.filter (fun e => groupRelayed s e.1)).length, 8, 40), (fused.length, 16, 24), (busy, 13, 0)]
  | 0x08 => d.arrValid.toNat
  | 0x10 => d.arrFeed.toNat
  | 0x18 => d.arrDrain.toNat
  | 0x20 => d.arrThrottle.toNat
  | 0x28 => d.arrFiller.toNat
  | _ => 0

/-- Streams of a die that pass a test. -/
def dieStreams (s : State) (k : Nat) (p : Stream → Bool) : Nat :=
  ((dieClusters s k).map (fun e => (e.2.streams.toList.filter p).length)).sum

/-- Service programs of a pass that run on a die (R190). -/
def dieService (s : State) (k : Nat) : Nat := ((List.range 1024).filter (fun i => serviceRuns s (1024 * k + i) .svc)).length

/-- Registers of the sequencer status block of a die (R143). -/
def readSeq (s : State) (k o : Nat) : Nat :=
  let d := die s k
  match o with
  | 0x00 => regWord [(dieStreams s k (fun t => t.st == .faulted), 16, 32), (dieStreams s k (fun t => t.st == .stopped), 16, 16),
                     (dieStreams s k streamRuns + dieService s k, 16, 0)]
  | 0x08 => d.seqLastFault.toNat
  | 0x10 => d.seqInstr.toNat
  | 0x18 => d.seqFault.toNat
  | _ => 0

/-- The state of the engine of a stack (R201). -/
def engineState (s : State) (k i : Nat) : Nat :=
  if dieFenced s k || (stackUnit s (4 * k + i)).st == .fenced then 4
  else if 1 ≤ s.upd.phase.toNat ∧ s.upd.phase.toNat ≤ 3 then s.upd.phase.toNat else 0

/-- Registers of the engine status block of a die (R201). -/
def readEngine (s : State) (k o : Nat) : Nat :=
  match o with
  | 0x00 => regWord ((List.range 4).map (fun i => (engineState s k i, 3, 16 * i + 13)))
  | 0x08 => (die s k).engBytes.toNat
  | _ => 0

/-- Bytes of an area that lie on a die (R263): an area at address 0 names no place (log entry 10). -/
def areaOn (k a n : Nat) : Nat :=
  if a = 0 then 0
  else if viewBase ≤ a then
    (if (a - viewBase) / viewStride = k then min (a + n) (viewBase + k * viewStride + viewLen) - a else 0)
  else min (a + n) (4 * (k + 1) * stackLen) - max a (4 * k * stackLen)

/-- Length of a tensor's residual arrays: bytes per tile by EF_FMT (R228). -/
def residualZ (s : State) (idx : Nat) : Nat :=
  if bit (rdNat s (s.exch.tensorBase.toNat + 32 * idx) 4) 0 then 4096 else 2048

/-- Whether the exchange tensor entry of an index is VALID (R228). -/
def exTensorValid (s : State) (idx : Nat) : Bool :=
  bit (rdNat s (s.exch.tensorBase.toNat + 32 * idx) 4) 31

/-- STATE of a die's account (R263): regions of its tensors and their local residuals. -/
def acctState (s : State) (k : Nat) : Nat :=
  ((s.upd.tensors.filter (fun t => t.die.val == k)).map (fun t =>
    (match look s.upd.groups t.group with
     | some g => 4 * shareLen g.rule t.t0
     | none => 0) +
    (if exTensorValid s t.idx then residualZ s t.idx * t.tiles else 0))).sum

/-- Where the base's image lies in memory of the package, if it does. -/
def baseHere (s : State) : Option Nat :=
  match s.ckpt.baseLoc.kind.toNat with
  | 0 => some s.ckpt.baseLoc.addr.toNat
  | 1 => localOf s s.ckpt.baseLoc.addr
  | _ => none

/-- The areas that the checkpoint registers name while a base is recorded: the manifest, and the image where it is local (R263,
R385). -/
def baseAreas (s : State) : List (Nat × Nat) :=
  if s.ckpt.baseValid then
    (s.ckpt.baseManifest.toNat, 32 * s.ckpt.baseNreg.toNat) ::
      (match baseHere s with
       | some a => [(a, s.ckpt.baseLen)]
       | none => [])
  else []

/-- Tiles of a tensor that the package owns (R221). The exchange tensor table names no group, so how many of a tensor's tiles are
owned is a free value of the configuration, at most all of them (log entry 10). -/
def ownedTiles (t : Tensor) : Nat := Config.ownedTiles t.idx t.tiles % (t.tiles + 1)

/-- The areas that registers and latched tables name (R263), as address and length. -/
def sysAreas (s : State) (k : Nat) : List (Nat × Nat) :=
  [(s.guard.tableBase.toNat, 0x80000), (s.guard.logBase.toNat, 32 * s.guard.logRecs.toNat),
   (s.upd.areaBase.toNat, 0x800000), (s.upd.stateBase.toNat, 0x20000),
   (s.upd.refreshBase.toNat, 4 * s.upd.refreshClusters.toNat * 20 * 2 ^ 20),
   (s.exch.groupBase.toNat, 0x200000), (s.exch.tensorBase.toNat, 0x200000), (s.exch.bufBase.toNat, s.exch.bufSize.toNat),
   (s.exch.logBase.toNat, s.exch.logSize.toNat), (s.fab.routeBase.toNat, 0x40000), (s.fab.peerBase.toNat, 0x20000),
   (s.fab.flowBase.toNat, 0x800000), (s.sync.tableBase.toNat, 0x100000), (s.twin.logBase.toNat, s.twin.logSize.toNat),
   ((die s k).cowBase.toNat, 0x10000 * (die s k).cowSize.toNat)] ++
  (List.range 4).map (fun p => ((port s p).ethQp.toNat, 4096)) ++ baseAreas s ++
  s.guard.cfg.map (fun c => (cfgBase c.2, cfgRecords c.2)) ++
  s.upd.tensors.flatMap (fun t =>
    [(t.freeze, 4 * t.tiles)] ++
    (match look s.upd.groups t.group with
     | some g => if g.rule = .k then [(t.kstate, (List.range t.panels).foldl (fun x p => x + t.recLen p) 0)] else []
     | none => []) ++
    (if exTensorValid s t.idx then
      [(rdNat s (s.exch.tensorBase.toNat + 32 * t.idx + 16) 8, residualZ s t.idx * ownedTiles t)] else [])) ++
  s.upd.groups.flatMap (fun e => [(e.2.lrCurve, 16 * e.2.lrPoints), (e.2.wdCurve, 16 * e.2.wdPoints)])

/-- SYS of a die's account (R263). -/
def acctSys (s : State) (k : Nat) : Nat := ((sysAreas s k).map (fun p => areaOn k p.1 p.2)).sum

/-- CAP and RESV of a die's account (R263). -/
def acctCap : Nat := 412316860416
def acctResv : Nat := 268435456

/-- FREE of a die's account (R263). -/
def acctFree (s : State) (k : Nat) : Nat :=
  acctCap - acctResv - acctState s k - acctSys s k - (die s k).acctProg.toNat

/-- Lines of a stack (R244). -/
def stackLines : Nat := stackLen / 64

/-- MEM_SCRUB_PCT: progress of the slowest stack of a die (R266). -/
def scrubPct (s : State) (k : Nat) : Nat :=
  (List.range 4).foldl (fun m i => min m ((stackUnit s (4 * k + i)).scrubLine * 100 / stackLines)) 100

/-- Registers of the die memory block of a die (R266). The account items read 0 while the die is off (R33, R263). -/
def readDieMem (s : State) (k o : Nat) : Nat :=
  let d := die s k
  let live := fun v => if d.on then v else 0
  match o with
  | 0x00 => live acctCap
  | 0x08 => live acctResv
  | 0x10 => live (acctState s k)
  | 0x18 => live (acctSys s k)
  | 0x20 => d.acctProg.toNat
  | 0x28 => live (acctFree s k)
  | 0x30 => d.acctGather.toNat
  | 0x38 => d.cowBase.toNat
  | 0x40 => d.cowSize.toNat
  | 0x48 => regWord [(scrubPct s k, 8, 32), (d.scrubHours.toNat, 8, 0)]
  | _ =>
    if 0x50 ≤ o ∧ o < 0x70 then
      let u := stackUnit s (4 * k + (o - 0x50) / 8)
      regWord [(u.ue.toNat, 16, 48), (u.rowsSpared.toNat, 7, 41), (u.pagesRetired.toNat, 13, 28), (u.ce.toNat, 28, 0)]
    else 0

/-- Registers of the remap block of a die (R386). -/
def readRemap (s : State) (k o : Nat) : Nat :=
  let d := if remapApplied s then die s k else { die s k with spares := [], remapBad := [] }
  if o < 0x100 then
    match look d.spares (o / 8) with
    | some e => regWord [(b2n e.1, 1, 15), (b2n e.2.1, 1, 14), (b2n e.2.2.1, 1, 13), (e.2.2.2, 10, 0)]
    | none => 0
  else if o < 0x180 then
    regWord ((d.remapBad.filter (fun b => b / 64 == (o - 0x100) / 8)).map (fun b => (1, 1, b % 64)))
  else if o = 0x180 then d.remapCnt.toNat else 0

/-! ### Every block -/

/-- A register of a die block (R458). -/
def readDieBlock (s : State) (k u o : Nat) : Nat :=
  match u with
  | 0x10 => readArr s k o
  | 0x20 => readSeq s k o
  | 0x30 => readEngine s k o
  | 0x40 => readDieMem s k o
  | 0x50 => readD2dDie s k o
  | 0x60 => readRemap s k o
  | _ => 0

/-- The register at an offset of a control block (R457, R458); an offset that no register occupies reads 0 (R459). -/
def regRead (s : State) (b o : Nat) : W64 :=
  BitVec.ofNat 64 (
    if o % 8 ≠ 0 then 0
    else if 0x100 ≤ b then readDieBlock s (b / 0x100 - 1) (b % 0x100) o
    else if 0x20 ≤ b ∧ b < 0x38 then readPort s (b - 0x20) o
    else match b with
      | 0x00 => readIdentity s o
      | 0x04 => readInvar s o
      | 0x08 => readGuard s o
      | 0x0C => readUpd s o
      | 0x10 => readExch s o
      | 0x14 => readMem s o
      | 0x18 => readD2dPkg s o
      | 0x1C => readFab s o
      | 0x38 => readSync s o
      | 0x3C => readCmd s o
      | 0x40 => readTwin s o
      | 0x44 => readCkpt s o
      | 0x48 => readCob s o
      | 0x4C => readPower s o
      | 0x50 => readBoot s o
      | _ => 0)

/-- The register as a master reads it: a command that reads CMD_STATUS finds its own processor in use as well (R364). -/
def regReadAs (s : State) (mid b o : Nat) : W64 :=
  if b == 0x3C && o == 0 && decide (0x2000 ≤ mid) && decide (mid ≤ 0x203F) && decide (procsBusy s < 8) then regRead s b o + 1
  else regRead s b o

/-- A read of a register by its local address: its size and alignment (R460), the access decision (R30, R461), then the
value. -/
def regReadAt (s : State) (mid a len : Nat) : State × Status × W64 :=
  match place a with
  | .ctrl b o =>
    if len ≠ 8 ∨ !aligned a 8 then (s, .badParam, 0) else
    match cmdAccess s mid a 8 .r with
    | .done => (s, .done, regReadAs s mid b o)
    | st => (noteAccess s st, st, 0)
  | _ => (s, .badParam, 0)

end Sys2Proof.Machine
end

