-- ==== Sys2Proof/Machine/Announce.lean ====
section
/-! DEFINITION. What the board sees of the package: ALERT_N (R411, R417, R430, R432), the in-band interrupts of the I3C
target (R446), BOOT_STAGE and its announcements (R434), and POWER events (R428). -/

namespace Sys2Proof.Machine

/-- The boot block changed. -/
def modBoot (s : State) (f : Boot → Boot) : State := { s with boot := f s.boot }

/-- The power block changed. -/
def modPower (s : State) (f : Power → Power) : State := { s with power := f s.power }

/-- An in-band interrupt, if the board controller has enabled them (R446): bit 7 for an alert, BOOT_STAGE in [3:0]. -/
def inBand (s : State) (alert : Bool) : State :=
  if s.i3c.ibiEn then
    { s with i3c := { s.i3c with ibis := BitVec.ofNat 8 (128 * b2n alert + s.boot.stage.toNat) :: s.i3c.ibis } }
  else s

/-- The hottest junction reading (R417, R427). -/
def hottest (t : Temps) : Nat := (t.cd.map BitVec.toNat ++ [t.iod.toNat, t.stackHot.toNat]).foldl max 0

/-- ALERT_N is asserted: RECOVERY or FAILED (R430, R432), VIN out of range (R411), a reading at or above PWR_THERM_WARN, or
a thermal trip (R417). While PWR_EN is low it is released (R451). -/
def alertLevel (s : State) : Bool :=
  s.tap.pwrEn && (s.boot.stage == 14 || s.boot.stage == 15 || s.power.vinBad || s.power.tripped ||
    decide (s.power.thermWarn.toNat ≤ hottest s.power.temps))

/-- ALERT_N follows its level; each assertion is an in-band interrupt. -/
def refreshAlert (s : State) : State :=
  let v := alertLevel s
  let s1 := { s with tap := { s.tap with alert := v } }
  if v && !s.tap.alert then inBand s1 true else s1

/-- A POWER event (R428): the state or mode as one byte, then PWR_THERMAL and PWR_INPUT. -/
def powerEvent (s : State) (code : Byte) (b : Nat) : State :=
  raise s evPower code ([BitVec.ofNat 8 b] ++ leBytes 8 (thermalWord s) ++ leBytes 8 (inputWord s))

/-! ### Announcements (R434) -/

/-- The payload of an announcement from a management port (R434). -/
def annPayload (s : State) (m : Nat) : List Byte :=
  let rec14 := s.boot.stage == 14
  leBytes 4 0x48454C4F ++ leBytes 2 1 ++ leBytes 2 0x0416 ++
  [BitVec.ofNat 8 s.boot.stage.toNat, s.boot.fail, s.boot.warn, BitVec.ofNat 8 (lifecycle s),
   if rec14 then 0xFF else BitVec.ofNat 8 (b2n s.cob.bootSlot), s.fab.incarn, BitVec.ofNat 8 m, 0] ++
  (sha3_512 Config.dikPublic).take 32 ++ leBytes 8 (if rec14 then 0 else s.cob.build.toNat) ++ leBytes 8 (now s) ++
  leBytes 8 (readInvar s 8) ++ leBytes 8 (readIdentity s 0x10) ++ leBytes 8 (readIdentity s 0x18) ++
  leBytes 4 (((List.range 24).map (fun p => b2n (port s p).isUp * 2 ^ p)).sum) ++ leBytes 2 Config.stepping.toNat ++
  leBytes 2 s.boot.annSeq.toNat ++ List.replicate 32 0

/-- Announcements are sent: stage 2 has ended and the package is not registered, or an exit from Dark has left it at stage 8
(R434, R436). -/
def announces (s : State) : Bool :=
  decide (3 ≤ s.boot.stage.toNat) && s.boot.stage != 9 && !(s.boot.stage == 15 && s.boot.fail == 0x20) &&
    !(s.boot.complete && decide (s.boot.stage.toNat < 8))

/-- The datagram of an announcement (R434): from the port's link-local address to ff02::1, both at the port number after
CMD_UDP_PORT. -/
def announceDatagram (s : State) (m : Nat) : MgtDatagram :=
  { port := Fin.ofNat 2 m, src := some (Config.linkLocal m, s.cmd.udpPort + 1), ip := BitVec.ofNat 128 (0xFF02 * 2 ^ 112 + 1), udp := s.cmd.udpPort + 1, bytes := annPayload s m }

/-- An announcement leaves a management port that has link. -/
def announceOn (s : State) (m : Nat) : State :=
  if vgetD s.tap.mgtUp m false then
    modBoot s (fun b => { b with anns := announceDatagram s m :: b.anns, annSeq := b.annSeq + 1, annAt := vmod b.annAt m (fun _ => s.inv.clk) })
  else s

/-- An announcement on each port with link. -/
def announceAll (s : State) : State := if announces s then announceOn (announceOn s 0) 1 else s

/-- BOOT_STAGE changes (R434, R446): announced, and an in-band interrupt. -/
def setStage (s : State) (n : Nat) : State :=
  announceAll (refreshAlert (inBand (modBoot s (fun b => { b with stage := BitVec.ofNat 4 n, since := s.inv.clk })) false))

/-- A warning bit of BOOT_WARN is set (R430); a change is announced (R434). -/
def setWarn (s : State) (i : Nat) : State :=
  if s.boot.warn.getLsbD i then s else announceAll (modBoot s (fun b => { b with warn := b.warn ||| (1 <<< i) }))

/-- A fatal outcome (R430): FAILED with its code. -/
def bootFatal (s : State) (code : Nat) : State := setStage (modBoot s (fun b => { b with fail := BitVec.ofNat 8 code })) 15

/-- ANNOUNCEMENT (R434): the periodic one of a port, 1 s after its last one. -/
def execAnnouncement (m : Fin 2) (s : State) : Host.Outcome State Fault Refusal :=
  .next (if announces s ∧ (vgetD s.boot.annAt m.val 0).toNat + 1000000000 ≤ clk s then announceOn s m.val else s)

end Sys2Proof.Machine
end

