-- ==== Sys2Proof/Machine/Gate.lean ====
section
/-! DEFINITION. When a command may start: the stage of bring-up (R433) and the power state (R421, R422). Every command
row starts through `cmdStart`. -/

namespace Sys2Proof.Machine

/-- Header and opcode of a command (R354 to R363); none for a row that is no Apune command. -/
def cmdOf : Instr → Option (CmdHdr × Nat)
  | .sessionOpen h _ _ _ _ _ _ _ => some (h, 0x0101)
  | .sessionClose h => some (h, 0x0102)
  | .attest h _ _ => some (h, 0x0103)
  | .keyRotate h _ => some (h, 0x0104)
  | .regRead h _ _ => some (h, 0x0201)
  | .regWrite h _ _ _ => some (h, 0x0202)
  | .memRead h _ _ => some (h, 0x0203)
  | .memWrite h _ _ _ => some (h, 0x0204)
  | .memCopy h _ _ _ _ _ _ => some (h, 0x0205)
  | .memFill h _ _ _ _ => some (h, 0x0206)
  | .programLoad h _ _ _ _ _ _ => some (h, 0x0301)
  | .streamStart h _ _ _ _ _ _ => some (h, 0x0302)
  | .streamStop h => some (h, 0x0303)
  | .streamStatus h _ => some (h, 0x0304)
  | .seedSet h _ _ _ _ _ => some (h, 0x0305)
  | .stepBegin h _ => some (h, 0x0401)
  | .stepCommit h _ => some (h, 0x0402)
  | .updateRun h _ _ _ _ => some (h, 0x0403)
  | .exchangeStart h _ => some (h, 0x0405)
  | .groupTableLoad h _ _ _ => some (h, 0x0406)
  | .precondRefresh h _ _ => some (h, 0x0407)
  | .syncInit h _ _ _ => some (h, 0x0501)
  | .syncOpAdd h _ _ => some (h, 0x0502)
  | .syncOpDec h _ _ => some (h, 0x0502)
  | .syncOpTake h _ => some (h, 0x0502)
  | .syncOpWait h _ _ => some (h, 0x0502)
  | .syncOpMonitor h _ _ _ => some (h, 0x0502)
  | .barrierArm h _ _ => some (h, 0x0503)
  | .barrierDisarm h _ => some (h, 0x0503)
  | .timeSet h _ => some (h, 0x0504)
  | .timeQuery h => some (h, 0x0505)
  | .schedulePost h _ _ _ _ => some (h, 0x0506)
  | .scheduleCancel h _ => some (h, 0x0506)
  | .ckptCapture h _ _ _ _ => some (h, 0x0601)
  | .ckptRestore h _ _ _ _ => some (h, 0x0602)
  | .twinJoin h _ => some (h, 0x0603)
  | .twinSole h => some (h, 0x0604)
  | .replay h _ => some (h, 0x0605)
  | .remapCluster h _ _ => some (h, 0x0606)
  | .reshard h _ _ => some (h, 0x0607)
  | .digestQuery h _ => some (h, 0x0608)
  | .powerStateHold h => some (h, 0x0701)
  | .powerStateBank h => some (h, 0x0701)
  | .powerStateDark h => some (h, 0x0701)
  | .powerStateRun h => some (h, 0x0701)
  | .modeSet h _ => some (h, 0x0702)
  | .envelopeSet h _ _ _ => some (h, 0x0703)
  | .fwStage h _ _ _ _ _ => some (h, 0x0801)
  | .fwActivateNextBoot h _ => some (h, 0x0802)
  | .fwActivateNow h _ => some (h, 0x0802)
  | .accessTableSet h _ _ _ _ => some (h, 0x0803)
  | .telemetryRead h _ _ _ => some (h, 0x0901)
  | .counterClear h _ _ => some (h, 0x0902)
  | .eventSubscribe h _ => some (h, 0x0903)
  | .scrubRun h _ => some (h, 0x0A01)
  | .testPortLoop h _ => some (h, 0x0A02)
  | .testEdgePrbs h _ => some (h, 0x0A02)
  | .testStackTest h _ => some (h, 0x0A02)
  | .testClusterTest h _ => some (h, 0x0A02)
  | .testDieTest h _ => some (h, 0x0A02)
  | .linkRetrainEdge h _ => some (h, 0x0A03)
  | .linkRetrainPort h _ => some (h, 0x0A03)
  | _ => none

/-- A reply to a command row (R346). -/
def answer (s : State) (h : CmdHdr) (op : Nat) (st : Status) : State := reply s h op st []

/-- An XADDR that names the package itself: its local address (R353, R32). -/
def localX (s : State) (x : XAddr) : Option Nat :=
  if x.kind = 0 then some x.addr.toNat
  else if x.kind = 1 then localOf s x.addr else none

/-- Every register of a range is served by the management island (R461). -/
def islRange (a n : Nat) : Bool := (List.range n).all (fun i => islPlace (place (a + 8 * i)))

/-- The commands that the management island executes in Bank and Dark (R421). -/
def islandRuns : Instr → Bool
  | .sessionOpen _ _ _ _ _ _ _ _ => true
  | .sessionClose _ => true
  | .attest _ _ _ => true
  | .keyRotate _ _ => true
  | .powerStateHold _ => true
  | .powerStateBank _ => true
  | .powerStateDark _ => true
  | .powerStateRun _ => true
  | .timeQuery _ => true
  | .timeSet _ _ => true
  | .eventSubscribe _ _ => true
  | .telemetryRead _ k _ _ => k == 2
  | .fwActivateNextBoot _ _ => true
  | .regRead _ a n => islRange a.toNat n.toNat
  | .regWrite _ a n _ => islRange a.toNat n.toNat
  | .counterClear _ f n => n != 0xFFFF && (List.range n.toNat).all (fun i =>
      islPlace (.ctrl (f.toNat + i) 8) || !listedBlock (f.toNat + i))
  | _ => false

/-- A range touches a unit that Hold has stopped (R418). -/
def touchesStopped (s : State) (a n : Nat) : Bool := ((pages a n).map place).any (placeStopped s)

/-- An operand touches a unit that Hold has stopped. -/
def xStopped (s : State) (x : XAddr) (n : Nat) : Bool :=
  match localX s x with
  | some a => touchesStopped s a n
  | none => false

/-- A command whose work needs a unit that Hold has stopped (R418, R421); REG_WRITE finds it after its checks (R464). -/
def needsStopped (s : State) : Instr → Bool
  | .regRead _ a n => (List.range n.toNat).any (fun i => touchesStopped s (a.toNat + 8 * i) 8)
  | .memRead _ x n => xStopped s x n.toNat
  | .memWrite _ x n _ => xStopped s x n.toNat
  | .memCopy _ x y n _ _ _ => xStopped s x (min n.toNat 0x6000000000) || xStopped s y (min n.toNat 0x6000000000)
  | .memFill _ x n _ _ => xStopped s x (min n.toNat 0x6000000000)
  | .syncInit _ a _ _ => touchesStopped s a.toNat 8
  | .syncOpAdd _ a _ => touchesStopped s a.toNat 8
  | .syncOpDec _ a _ => touchesStopped s a.toNat 8
  | .syncOpTake _ a => touchesStopped s a.toNat 8
  | .syncOpWait _ a _ => touchesStopped s a.toNat 8
  | .syncOpMonitor _ a _ _ => touchesStopped s a.toNat 8
  | .programLoad _ _ _ _ _ _ _ => true
  | .streamStart _ _ _ _ _ _ _ => true
  | .streamStop _ => true
  | .seedSet _ _ _ _ _ _ => true
  | .updateRun _ _ _ _ _ => true
  | .precondRefresh _ _ _ => true
  | .exchangeStart _ _ => true
  | .testClusterTest _ _ => true
  | .testDieTest _ _ => true
  | .replay _ _ => true
  | .counterClear _ f n => (List.range 0x500).any (fun b =>
      (n == 0xFFFF || (decide (f.toNat ≤ b) && decide (b < f.toNat + n.toNat))) && listedBlock b && placeStopped s (.ctrl b 8))
  | _ => false

/-- Whether the power state lets a command run (R421). -/
def powerAdmits (s : State) (i : Instr) : Bool :=
  match s.power.st.toNat with
  | 0 => true
  | 1 => !needsStopped s i
  | _ => islandRuns i

/-- The commands that wait for registration (R433): stream, step, update, exchange and capture commands. -/
def needsRegistration (i : Instr) : Bool :=
  match cmdOf i with
  | some (_, op) => op == 0x0302 || op == 0x0303 || op == 0x0304 || op / 256 == 4 || op == 0x0601
  | none => false

/-- A COUNTER_CLEAR of a block of a compute die (R460). -/
def clearsDies : Instr → Bool
  | .counterClear _ f n => n == 0xFFFF || decide (0x100 < f.toNat + n.toNat ∧ 0 < n.toNat)
  | _ => false

/-- The commands whose work needs the compute dies and stacks as a whole, or the ports (R433). -/
def needsDies (i : Instr) : Bool :=
  match cmdOf i with
  | some (_, op) => op == 0x0301 || op == 0x0305 || op == 0x0602 || op == 0x0603 || op == 0x0605 || op == 0x0606 || op == 0x0607 ||
      op / 256 == 10 || op == 0x0702 || op == 0x0701 || clearsDies i
  | none => false

/-- Whether bring-up has reached what a command needs (R433). -/
def stageAdmits (s : State) (i : Instr) : Bool :=
  (!needsRegistration i || s.boot.complete) && (!needsDies i || decide (6 ≤ s.boot.stage.toNat) || s.power.st != 0)

/-- An exit to Run begins, for a wake source of PWR_WAKE_LAST (R423). During an entry nothing begins (R424). An exit from Dark
runs stages 3 to 5 of bring-up (R436). -/
def beginExit (s : State) (src : Nat) : State :=
  if s.power.st = 0 ∨ s.power.entering.isSome ∨ s.power.exiting then s
  else
    let s1 := { s with power := { s.power with exiting := true, wakeLast := BitVec.ofNat 4 src } }
    if s.power.st = 3 then setStage (modBoot s1 (fun b => { b with fromDark := true })) 3 else s1

/-- A wake-class command that cannot run in the current state (R421, R423): buffered and answered ACCEPTED, or BUSY. -/
def bufferWake (s : State) (i : Instr) (h : CmdHdr) (op : Nat) : State :=
  if s.power.wakeCfg.getLsbD 2 && decide (s.power.buffer.length < 16) then
    beginExit (answer { s with power := { s.power with buffer := s.power.buffer ++ [i] } } h op .accepted) 3
  else answer s h op .busy

/-- An operand of a command lies beyond an edge that trains. -/
def xTrains (s : State) (h : CmdHdr) (x : XAddr) (n : Nat) : Bool :=
  match localX s x with
  | some a => trainHolds s h.master.toNat a (min n 0x6000000000)
  | none => false

/-- Some die that clusters `first` on lie in is beyond an edge that trains. -/
def clustersTrain (s : State) (first n : Nat) : Bool :=
  (List.range 4).any (fun d => decide (first < 1024 * (d + 1)) && decide (1024 * d < first + n) && pathTrains s none (some d))

/-- A command that reaches a register, memory, a sync word or a stream over a training edge waits for the edge (R276). -/
def edgeHeld (s : State) : Instr → Bool
  | .regRead h a n => trainHolds s h.master.toNat a.toNat (8 * n.toNat)
  | .regWrite h a n _ => trainHolds s h.master.toNat a.toNat (8 * n.toNat)
  | .memRead h x n => xTrains s h x n.toNat
  | .memWrite h x n _ => xTrains s h x n.toNat
  | .memCopy h x y n _ _ _ => xTrains s h x n.toNat || xTrains s h y n.toNat
  | .memFill h x n _ _ => xTrains s h x n.toNat
  | .syncInit h a _ _ => trainHolds s h.master.toNat a.toNat 8
  | .syncOpAdd h a _ => trainHolds s h.master.toNat a.toNat 8
  | .syncOpDec h a _ => trainHolds s h.master.toNat a.toNat 8
  | .syncOpTake h a => trainHolds s h.master.toNat a.toNat 8
  | .syncOpWait h a _ => trainHolds s h.master.toNat a.toNat 8
  | .syncOpMonitor h a _ _ => trainHolds s h.master.toNat a.toNat 8
  | .programLoad h x n _ first count _ =>
    trainHolds s h.master.toNat x.toNat n.toNat || clustersTrain s first.toNat count.toNat
  | .seedSet _ _ first count _ _ => clustersTrain s first.toNat count.toNat
  | .streamStart h _ _ _ _ _ _ => clustersTrain s (h.stream.toNat / 4) 1
  | .streamStop h => clustersTrain s (h.stream.toNat / 4) 1
  | _ => false

/-- The start of a command (R344, step 10): it runs, or the stage or the power state turns it away, or it waits for an edge that
trains (R276). -/
def cmdStart (i : Instr) (h : CmdHdr) (op : Nat) (act : State → State) (s : State) : State :=
  if !served s then s
  else if !powerAdmits s i then (if h.wake then bufferWake s i h op else answer s h op .busy)
  else if !stageAdmits s i then answer s h op .busy
  else if edgeHeld s i then { s with cmd := { s.cmd with held := s.cmd.held ++ [i] } }
  else act s

end Sys2Proof.Machine
end

