-- ==== Sys2Proof/Machine/Xfer.lean ====
section
/-! DEFINITION. Transfers to and from the places that an XADDR names (R353): memory of the package, memory of another package by
fabric requests within 4 KiB pages (R299), and storage by RDMA (R313, R314). -/

namespace Sys2Proof.Machine

/-- Where the bytes of an operand lie. -/
inductive XPlace where
  | here (a : Nat)
  | there (id : W16) (a : Nat)
  | storage (port qp off : Nat)
  /-- a reserved KIND -/
  | none
  deriving DecidableEq, Repr

/-- The place of an operand at an offset (R353, R32). -/
def xPlace (s : State) (x : XAddr) (off : Nat) : XPlace :=
  match x.kind.toNat with
  | 0 => .here (x.addr.toNat + off)
  | 1 =>
    match localOf s x.addr with
    | some a => .here (a + off)
    | none => .there (BitVec.ofNat 16 (x.addr.toNat / 2 ^ 48)) (x.addr.toNat % 2 ^ 48 + off)
  | 2 => .storage x.port.toNat x.qp.toNat (x.addr.toNat + off)
  | _ => .none

/-- The pieces of a range within 4 KiB pages: address and length (R299). -/
def pagePieces (a n : Nat) : List (Nat × Nat) :=
  (pages a n).map (fun p => (p, min (a + n) ((p / 4096 + 1) * 4096) - p))

/-- Bytes written to another package: one WRITE for each page piece (R299). -/
def writeThere (s : State) (id : W16) (a : Nat) (bs : List Byte) (what : TxnFor) : State :=
  (pagePieces a bs.length).foldl (fun t p =>
    let d := slice bs (p.1 - a) p.2
    sendReq t (mkReq id 0 1 p.1 p.2 d) what) s

/-- Bytes read from another package: one READ for each page piece, each with what its answer is for (R299). -/
def readThere (s : State) (id : W16) (a n : Nat) (what : Nat → TxnFor) : State :=
  (pagePieces a n).foldl (fun t p => sendReq t (mkReq id 0 0 p.1 p.2 []) (what (p.1 - a))) s

/-! ### Storage (R313, R314) -/

/-- A word of a queue-pair entry. -/
def qpWord (s : State) (p qp i : Nat) : Nat := rdNat s ((port s p).ethQp.toNat + 64 * qp + 4 * i) 4

/-- MTU of a queue pair; none when the entry is not VALID or the field is reserved (R314). -/
def qpMtu (s : State) (p qp : Nat) : Option Nat :=
  let w := qpWord s p qp 0
  if bit w 31 then
    match bits w 26 24 with
    | 1 => some 1024
    | 2 => some 2048
    | 3 => some 4096
    | _ => none
  else none

/-- A range of a queue pair can be used: port 0 to 3 in ETHERNET mode, a VALID entry, and not beyond RLEN (R353, R314). -/
def storageOk (s : State) (p qp off n : Nat) : Bool :=
  decide (p < 4) && decide (qp < 64) && (port s p).mode == 2 && (qpMtu s p qp).isSome &&
    decide (off + n ≤ qpWord s p qp 10 + 2 ^ 32 * qpWord s p qp 11)

/-- Bytes of a number, most significant first. -/
def beBytes (n v : Nat) : List Byte := (leBytes n v).reverse

/-- The extended transport header of an RDMA request: remote address, key and length, big-endian. -/
def rdmaHeader (s : State) (p qp off n : Nat) : List Byte :=
  beBytes 8 (qpWord s p qp 8 + 2 ^ 32 * qpWord s p qp 9 + off) ++ beBytes 4 (qpWord s p qp 6) ++ beBytes 4 n

/-- The next packet sequence number of a queue pair (R314): PSN0 moved on by what has been sent. -/
def qpPsn (s : State) (p qp : Nat) : Nat := (qpWord s p qp 7 + lookD (port s p).qpSent qp 0) % 2 ^ 24

/-- Packet sequence numbers of a queue pair taken. -/
def takePsn (s : State) (p qp n : Nat) : State :=
  modPort s p (fun q => { q with qpSent := put q.qpSent qp (lookD q.qpSent qp 0 + n) })

/-- The headers of a RoCEv2 packet (R313, R314), as IPv6, UDP and the transport give them (PRESUMED, log entry 6): both addresses,
the UDP port, and the base transport header with the remote queue-pair number and the packet sequence number. -/
def roceHeader (s : State) (p qp opcode psn len : Nat) (ack : Bool) : List Byte :=
  let rip := (List.range 4).map (fun i => 2 ^ (32 * i) * qpWord s p qp (2 + i))
  beBytes 8 (port s p).ethIpHi.toNat ++ beBytes 8 (port s p).ethIpLo.toNat ++ beBytes 16 rip.sum ++ beBytes 2 4791 ++
    beBytes 1 opcode ++ beBytes 1 (16 * ((4 - len % 4) % 4)) ++ beBytes 2 0xFFFF ++ beBytes 4 (qpWord s p qp 1 % 2 ^ 24) ++
    beBytes 4 (2 ^ 31 * b2n ack + psn % 2 ^ 24)

/-- A frame with `n` payload bytes leaves an ETHERNET-mode port, from its network layer on (R316; log entry 6). -/
def sendFrame (s : State) (p : Nat) (bs : List Byte) (n : Nat) : State :=
  let s1 := modPort s p (fun q => { q with txPkts := satAdd q.txPkts 1, txBytes := satAdd q.txBytes n })
  { s1 with fab := { s1.fab with ethOut := (p, bs) :: s1.fab.ethOut } }

/-- The time in ns that a pause of the partner's priority flow control lasts: quanta of 512 bit times at the port's rate. -/
def pauseNs (q : Port) (quanta : W16) : W64 := BitVec.ofNat 64 (ceilDiv (512 * quanta.toNat) (if q.ethRate = 0 then 400 else 800))

/-- A RoCEv2 packet, on priority 3 (R313): it waits while the partner holds that priority. -/
def sendRoce (s : State) (p : Nat) (bs : List Byte) (n : Nat) : State :=
  if clk s < (port s p).ethPause.toNat ∨ !(port s p).ethWait.isEmpty then
    modPort s p (fun q => { q with ethWait := q.ethWait ++ [(bs, n)] })
  else sendFrame s p bs n

/-- The frames that wait on priority 3 leave once its pause is past (R313). -/
def releaseFrames (s : State) (p : Nat) : State :=
  if (port s p).ethWait.isEmpty ∨ clk s < (port s p).ethPause.toNat then s
  else (port s p).ethWait.foldl (fun t b => sendFrame t p b.1 b.2) (modPort s p (fun q => { q with ethWait := [] }))

/-- RDMA WRITE of bytes (R313): one packet for each MTU, the first with the extended header. -/
def writeStorage (s : State) (p qp off : Nat) (bs : List Byte) (op : Nat) : State :=
  let mtu := (qpMtu s p qp).getD 1024
  let cs := chunks mtu (bs.length + 1) bs
  let psn := qpPsn s p qp
  let code := fun (i : Nat) => if cs.length = 1 then 10 else if i = 0 then 6 else if i + 1 = cs.length then 8 else 7
  let fs := cs.zipIdx.map (fun c => (roceHeader s p qp (code c.2) (psn + c.2) c.1.length (c.2 + 1 == cs.length) ++
    (if c.2 = 0 then rdmaHeader s p qp off bs.length else []) ++ c.1, c.1.length))
  let x : EthXfer := { port := p, qp := BitVec.ofNat 8 qp, op := op, read := false, off := off, psn := psn, packets := cs.length
                       frames := fs, left := 0 }
  fs.foldl (fun t f => sendRoce t p f.1 f.2) (takePsn { s with fab := { s.fab with eth := s.fab.eth ++ [x] } } p qp cs.length)

/-- An RDMA READ request: its packet from a sequence number, region offset and length. -/
def readRequest (s : State) (p qp psn off n : Nat) : List Byte := roceHeader s p qp 12 psn 0 true ++ rdmaHeader s p qp off n

/-- RDMA READ of bytes (R313): the responses carry them, each under its own sequence number. -/
def readStorage (s : State) (p qp off n : Nat) (op : Nat) : State :=
  let mtu := (qpMtu s p qp).getD 1024
  let k := ceilDiv n mtu
  let x : EthXfer := { port := p, qp := BitVec.ofNat 8 qp, op := op, read := true, off := off, psn := qpPsn s p qp, packets := k
                       frames := [], left := n }
  sendRoce (takePsn { s with fab := { s.fab with eth := s.fab.eth ++ [x] } } p qp k) p (readRequest s p qp x.psn off n) 0

/-! ### Checks -/

/-- The first condition on an operand of a command: its KIND, and what can be known of its range (R353, R355, R30). -/
def xBadParam (s : State) (x : XAddr) (n : Nat) : Bool :=
  match xPlace s x 0 with
  | .here a => !mapped a n
  | .there _ a => decide (2 ^ 48 < a + n)
  | .storage p qp off => !storageOk s p qp off n
  | .none => true

/-- The decision on an operand of a command: a local range is checked at its target with the session's master ID (R353). -/
def xStatus (s : State) (mid : Nat) (x : XAddr) (n : Nat) (need : Perm) : Status :=
  if xBadParam s x n then .badParam else
  match xPlace s x 0 with
  | .here a => cmdAccess s mid a n need
  | _ => .done

/-- Bytes written to an operand's place: at once here, else by requests whose answers come later. -/
def xWrite (s : State) (x : XAddr) (off : Nat) (bs : List Byte) (what : TxnFor) (op : Nat) : State :=
  match xPlace s x off with
  | .here a => wrBytes s a bs
  | .there id a => writeThere s id a bs what
  | .storage p qp o => writeStorage s p qp o bs op
  | .none => s

/-- The 16-byte operation of a SYNC request or a SYNC_OP performed on a word (R321). -/
def syncRequest (s : State) (mid a : Nat) (b : List Byte) : State × Status × Nat :=
  let w := leAt b 4 4
  syncAccess s mid a (bits w 31 28) (leAt b 0 4 + 2 ^ 32 * bits w 15 0) (false, BitVec.ofNat 64 (leAt b 8 8))

end Sys2Proof.Machine
end

