-- ==== Sys2Proof/Machine/Link.lean ====
section
/-! DEFINITION. Die-link edges and dies as several chapters share them: the start of a training (R274 to R276), the state of a
die (R33, R276), and a die's power-up (R247, R378, R430). -/

namespace Sys2Proof.Machine

/-! ### Edges (R20) -/

/-- One end of an edge changed. -/
def modEnd (s : State) (e : EdgeEnd) (f : LinkEnd → LinkEnd) : State :=
  { s with links := vmod s.links e.edge.val (fun p => if e.upper then (p.1, f p.2) else (f p.1, p.2)) }

/-- Both ends of an edge changed. -/
def modEdge (s : State) (e : Nat) (f : LinkEnd → LinkEnd) : State :=
  { s with links := vmod s.links e (fun p => (f p.1, f p.2)) }

/-- Every bundle of an edge (R20). -/
def fullMask (e : Nat) : W32 := BitVec.ofNat 32 (2 ^ edgeBundles e - 1)

/-- A flit put among flits in ESEQ order, modulo 65,536. -/
def insertEseq (f : D2dFlit) : List D2dFlit → List D2dFlit
  | [] => [f]
  | g :: r => if (g.eseq - f.eseq).toNat < 32768 then f :: g :: r else g :: insertEseq f r

/-- The flits held in the replay buffers of an end, in ESEQ order on each network (R273). -/
def heldFlits (l : LinkEnd) : List D2dFlit :=
  let fs := l.requeue ++ l.bundles.flatMap (fun b => b.2.replay)
  let ordered := fun (t : BitVec 4) => (fs.filter (fun f => f.typ == t)).foldr insertEseq []
  ordered 1 ++ ordered 2

/-- A training begins at an end (R274, R275): ATTEMPT 1, state CLOCK, on every bundle that it does not exclude; the flits of its
replay buffers are kept for sending again (R273). The credits that it owes are among those its partner begins with. -/
def trainEnd (e : Nat) (cause : Nat) (l : LinkEnd) : LinkEnd :=
  { l with
    tstate := 1
    attempt := 1
    cause := BitVec.ofNat 8 cause
    passed := 0
    allowed := fullMask e &&& ~~~l.exclude
    second := false
    requeue := heldFlits l
    bundles := []
    owedReq := 0
    owedRsp := 0
    cntTrain := satAdd l.cntTrain 1 }

/-- An event of the LINK class for an edge that leaves or reaches UP (R351). -/
def edgeEvent (s : State) (e : Nat) (up : Bool) : State := raiseOpen s evLink (1 + b2n up) [BitVec.ofNat 8 e]

/-- A training of an edge starts at both ends (R276). -/
def startEdge (s : State) (e cause : Nat) : State :=
  let was := decide (edgeState s e = 1 ∨ edgeState s e = 2)
  let s1 := modEdge s e (trainEnd e cause)
  if was then edgeEvent s1 e false else s1

/-- An end with no flit and no packet left in it, its sequence numbers back at 0 (log entry 79). -/
def clearEnd (l : LinkEnd) : LinkEnd :=
  { l with bundles := [], requeue := [], held := [], txWait := [], streamReq := [], streamRsp := [], crReq := 0, crRsp := 0
           owedReq := 0, owedRsp := 0, rxEseqReq := 0, rxEseqRsp := 0, txEseqReq := 0, txEseqRsp := 0 }

/-- An end enters FENCED as its watchdog expires (R277): it sends nothing and discards its replay buffers. -/
def fenceEnd (l : LinkEnd) : LinkEnd := { l with bundles := [], requeue := [], tstate := 6, mask := 0 }

/-- An end of a fenced die's edge is held down, with nothing left in it (R278). -/
def closeEnd (l : LinkEnd) : LinkEnd := { clearEnd l with tstate := 6, mask := 0 }

/-- The flits of a network in a list. -/
def netCount (rsp : Bool) (fs : List D2dFlit) : Nat := fs.countP (fun x => (x.typ == 2) == rsp)

/-- The credits of an end that enters UP (R271): the 128 flits of each receive buffer of its partner, less those that it holds out of
order. The flits that this end sends again spend theirs as they leave (log entry 79). -/
def startCredits (l partner : LinkEnd) : LinkEnd :=
  { l with crReq := 128 - netCount false partner.held, crRsp := 128 - netCount true partner.held }

/-- The die that a failed training fences (R277). -/
def edgeVictim (e : Nat) : Nat := if e < 4 then (e + 1) % 4 else e - 4

/-! ### Paths of mesh packets (R22, R280) -/

/-- The die a packet goes to; none is the I/O die. A reply goes to its master (R22). -/
def meshTarget (p : MeshPkt) : Option Nat := if p.net then masterDie p.master.toNat else (place p.addr.toNat).die

/-- Every end of every edge. -/
def allEnds : List EdgeEnd := (List.range 8).flatMap (fun k => [⟨Fin.ofNat 8 k, false⟩, ⟨Fin.ofNat 8 k, true⟩])

/-- A packet is a request that a reply answers (R281): READ, WRITE or SYNC. -/
def asksReply (p : MeshPkt) : Bool := !p.net && decide (p.typ.toNat ≤ 2)

/-- What names a request and its reply (R281): MASTER and TAG. -/
def reqKey (p : MeshPkt) : W16 × W16 := (p.master, p.tag)

/-- A packet that a fenced die takes with it completes its request with DIE_LOST (R278), unless that has completed already. -/
def loseOne (s : State) (p : MeshPkt) : State :=
  if asksReply p || p.net then
    if s.meshLate.contains (reqKey p) then s
    else { s with meshLost := p :: s.meshLost, meshLate := reqKey p :: s.meshLate
                  openReqs := s.openReqs.filter (fun q => reqKey q != reqKey p) }
  else { s with meshLost := p :: s.meshLost }

/-- Packets that a fenced die takes with it (R278). -/
def loseMesh (s : State) (ps : List MeshPkt) : State := ps.foldl loseOne s

/-- A request has come over the first edge of its path: it is open until its reply is delivered. -/
def openReq (s : State) (p : MeshPkt) : State :=
  if asksReply p then
    { s with openReqs := s.openReqs.filter (fun q => reqKey q != reqKey p) ++ [p], meshLate := s.meshLate.filter (· != reqKey p) }
  else s

/-- A reply is delivered to a unit of a die, or of the I/O die; one whose request has completed already is discarded (R278). -/
def deliverReply (s : State) (k : Option Nat) (r : MeshPkt) : State :=
  if s.meshLate.contains (reqKey r) then { s with meshLate := s.meshLate.filter (· != reqKey r) } else
  let t := { s with openReqs := s.openReqs.filter (fun q => reqKey q != reqKey r) }
  match k with
  | some d => modDie t d (fun x => { x with rspSeen := r :: x.rspSeen })
  | none => { t with iodSeen := r :: t.iodSeen }

/-! ### The traffic of the package's own masters (R22, R280, R289) -/

/-- `m` packets of `len` data bytes in all cross a network of the meshes and edges of their path (R289). DESIGN CHOICE (log entry 79):
a packet of this traffic takes flits of its own. -/
def countPath (s : State) (src dst : Option Nat) (rsp : Bool) (m len : Nat) : State :=
  let s1 := (pathDies src dst).foldl (fun t d => modDie t d (fun x =>
    if rsp then { x with meshRsp := satAdd x.meshRsp m } else { x with meshReq := satAdd x.meshReq m })) s
  let flits := m + m * ((16 + ceilDiv len m) / 241)
  (pathEnds 2 src dst).foldl (fun t e => modEnd t e (fun l => { l with cntFlits := satAdd l.cntFlits flits })) s1

/-- An access of `n` bytes at an address by a master of the package as its meshes and edges count it (R281, R289): requests and
replies, each of up to 256 bytes within 256 aligned ones (log entry 79). -/
def meshTrip (s : State) (mid a n : Nat) (write : Bool) : State :=
  let p := place a
  if !crossesMesh mid p then s else
  let m := (a + n - 1) / 256 - a / 256 + 1
  let src := masterDie mid
  countPath (countPath s src p.die false m (if write then n else 0)) p.die src true m (if write then 0 else n)

/-- A COUNT of the package's own masters, which no reply answers (R283, R289). -/
def countTrip (s : State) (mid a : Nat) : State :=
  let p := place a
  if crossesMesh mid p then countPath s (masterDie mid) p.die false 1 8 else s

/-- A sync operation by a unit of the package, as its meshes count it (R281, R289). -/
def ownSync (s : State) (mid a sop n : Nat) (notify : Bool × W64) : State × Status × Nat :=
  syncAccess (meshTrip s mid a 8 true) mid a sop n notify

/-- A completion ADD by a unit of the package, as its meshes count it (R283, R289). -/
def ownAdd (s : State) (mid a n : Nat) : State × Status := localAdd (countTrip s mid a) mid a n

/-- The commands that wait for an edge go back to the command processors (R276). -/
def releaseHeld (s : State) : State := { s with cmd := { s.cmd with ready := s.cmd.held ++ s.cmd.ready, held := [] } }

/-! ### Dies (R33) -/

/-- An edge of a die has settled: UP at both ends, or FENCED. -/
def edgeSettled (s : State) (e : Nat) : Bool := edgeState s e != 0

/-- A powered die that is not fenced takes the state of its edges once all have settled (R33, R276). -/
def refreshDie (s : State) (k : Nat) : State :=
  let d := die s k
  if d.st = .fenced ∨ !d.on ∨ !(edgesOf k).all (edgeSettled s) then s
  else modDie s k (fun d => { d with st := if (edgesOf k).any (fun e => edgeState s e == 2) then .narrow else .up })

/-- The dies of an edge take its state. -/
def refreshEdgeDies (s : State) (e : Nat) : State := (edgeDies e).foldl refreshDie s

/-! ### Power-up of a compute die (R247, R430) -/

/-- The bytes of a stack, of a die's cluster stores and accumulation stores, back at 0. -/
def zeroStack (s : State) (k : Nat) : State :=
  { s with mem := s.mem.clearStack (k * stackLen) ((k + 1) * stackLen)
           poison := s.poison.filter (fun l => l * 64 / stackLen != k) }

/-- A stack that its die's power-up brings UP, holding zeros (R247). Its log of repairs stays (R252), and so do its counts, which
COUNTER_CLEAR or the power-on of the package clears (R266); the redirect table goes with the reserve that holds it (R253;
log entry 85). -/
def stackUp (s : State) (k : Nat) : State :=
  modStack (zeroStack s k) k (fun u => { StackUnit.reset with
    st := .up, repairs := u.repairs, ue := u.ue, ce := u.ce, rowsSpared := u.rowsSpared })

/-- The clusters of a die as stage 5 leaves them: streams IDLE, stores zero, generators of the all-zero seed (R430). -/
def zeroClusters (s : State) (k : Nat) : State :=
  { s with clusters := s.clusters.filter (fun e => e.1 / 1024 != k)
           mem := s.mem.clearStores (1024 * k) (1024 * (k + 1)) }

/-- The spares as the flash repair log holds them (R380, R386): a remap that was pending is not in it. -/
def loggedSpares (d : Die) : Assoc (Bool × Bool × Bool × Nat) :=
  (d.spares.filter (fun e => e.2.1 || e.2.2.1)).map (fun e => (e.1, e.2.1, e.2.2.1, false, e.2.2.2.2))

/-- The registers of a die after its domain powers up: reset, with the remap table and REMAP_BAD marks of the flash repair log
(R380, R430). -/
def poweredDie (d : Die) : Die :=
  { Die.reset with on := true, spares := loggedSpares d, remapBad := d.remapBad, remapCnt := d.remapCnt }

/-- The domain of a die powers up: its link ends are reset and exclude no bundle (R273, R275),
and an edge that was UP is reported (R351). -/
def powerDie (s : State) (k : Nat) : State :=
  let s0 := ((edgesOf k).filter (fun e => edgeState s e == 1 || edgeState s e == 2)).foldl (fun t e => edgeEvent t e false) s
  let s1 := modDie (zeroClusters s0 k) k poweredDie
  [0, 1, 2].foldl (fun t i => modEnd t (dieEdge k i) (fun _ => LinkEnd.reset)) s1

/-- Every stack of a die that is not fenced comes UP. -/
def dieStacksUp (s : State) (k : Nat) : State := (List.range 4).foldl (fun t i => stackUp t (4 * k + i)) s

end Sys2Proof.Machine
end

