-- ==== Sys2Proof/Machine/Solder.lean ====
section
/-! DEFINITION. What the twin protocol and the replay log are built of: Solder messages (R368), TWIN_ST and its events
(R366), and the records of the replay log (R370, R371). -/

namespace Sys2Proof.Machine

/-- The twin block changed. -/
def modTwin (s : State) (f : Twin → Twin) : State := { s with twin := f s.twin }

/-! ### Solder messages (R368) -/

/-- Twin ports that are UP (R384). -/
def twinUp (s : State) : List Nat := [22, 23].filter (fun p => (port s p).carries)

/-- The package at the other end of the twin ports: FAB_PEER_ID of the first that is UP and whose partner has a PKG_ID (R367,
R295). -/
def twinFacing (s : State) : Option W16 := (((twinUp s).map (fun p => (port s p).peerId)).filter (· ≠ 0xFFFF)).head?

/-- The 48 bytes of a Solder message (R368). -/
def solderPayload (m : SolderMsg) : List Byte :=
  leBytes 4 (fieldAt m.kind.toNat 4 28 + m.sender.toNat) ++ leBytes 4 m.st.toNat ++ leBytes 8 m.epoch.toNat ++
    leBytes 16 m.digest.toNat ++ leBytes 8 m.ft.toNat ++ List.replicate 8 0

/-- A Solder message leaves on every twin port that is UP, with one SEQ (R368). -/
def sendSolder (s : State) (kind : Nat) (epoch : W64) (digest : W128) : State :=
  match twinFacing s with
  | none => s
  | some dst =>
    let m : SolderMsg := { kind := BitVec.ofNat 4 kind, sender := s.pkgId, st := s.twin.st, epoch := epoch,
                           digest := digest, ft := s.inv.ft }
    sendReq (modTwin s (fun t => { t with sent := m :: t.sent })) (mkReq dst 3 0 0 48 (solderPayload m)) .solder

/-- TWIN_ST changes, with the TWIN_CAUSE that R366 gives the change: a TWIN event. -/
def setTwin (s : State) (st cause : Nat) : State :=
  if s.twin.st.toNat = st then s else
    raiseOpen (modTwin s (fun t => { t with
      st := BitVec.ofNat 3 st
      cause := BitVec.ofNat 8 cause })) evTwin 1
      [BitVec.ofNat 8 st, BitVec.ofNat 8 cause]

/-! ### Generators (R103, R108, R370) -/

/-- Every generator state that is not that of the all-zero seed: cluster, lane, state. -/
def allGens (s : State) : List (Nat × Nat × W128) :=
  s.clusters.flatMap (fun e => e.2.gens.map (fun g => (e.1, g.1, g.2)))

/-- Every generator set from a snapshot. -/
def setGens (s : State) (l : List (Nat × Nat × W128)) : State :=
  let s1 := { s with clusters := s.clusters.map (fun e => (e.1, { e.2 with gens := [] })) }
  l.foldl (fun t g => modCluster t g.1 (fun k => { k with gens := put k.gens g.2.1 g.2.2 })) s1

/-- A generator state of a snapshot: a lane that it leaves out holds the state of the all-zero seed (R106). -/
def snapGen (l : List (Nat × Nat × W128)) (cl lane : Nat) : W128 :=
  match l.find? (fun g => g.1 == cl && g.2.1 == lane) with
  | some g => g.2.2
  | none => genState [] cl lane

/-! ### The replay log (R370, R371) -/

/-- Bytes of a log record with a body (R371). -/
def recordLen (body : Nat) : Nat := 32 + roundUp body 32

/-- A step of the log that has grown past a fifth of it is not logged (R370). -/
def fitStep (size : Nat) (x : LogStep) : LogStep := if size < 5 * x.bytes then { x with logged := false } else x

/-- The newest step of the log changed: the step in progress, or else the last committed one. -/
def modLog (s : State) (f : LogStep → LogStep) : State :=
  match s.twin.log with
  | [] => s
  | x :: r => modTwin s (fun t => { t with log := fitStep t.logSize.toNat (f x) :: r })

/-- Memory of the latched images (R370): the bytes listed in their pages. -/
def imageCopy (s : State) (at_ : Option (W64 × W64 × W32)) : Mem :=
  match at_ with
  | none => { s.mem with cells := [] }
  | some (ga, ta, n) =>
    let ps := (pagePieces ga.toNat 0x80000 ++ pagePieces ta.toNat (64 * n.toNat)).map (fun p => (keyOf p.1, p.2))
    { s.mem with cells := s.mem.cells.filter (fun c => ps.any (fun p => decide (p.1 ≤ c.1) && decide (c.1 < p.1 + p.2))) }

/-- A record that the package itself logs (R371): no opcode or SEQUENCE, package scope, and the master ID of firmware (log
entry 38). -/
def packageRecord (s : State) (kind : Byte) (body : List Byte) : LogRec :=
  { opcode := 0, stream := 0xFFFF, seq := 0, master := 0x103F, status := BitVec.ofNat 8 (statusCode .done), kind := kind
    ft := s.inv.ft, epoch := s.memblk.epoch + 1, body := body }

/-- The log of the step that STEP_BEGIN opens (R370): generator states, and the table images when its latch changed them. -/
def logBegin (s : State) (image : Option (W64 × W64 × W32)) : State :=
  let x : LogStep := {
    epoch := s.memblk.epoch + 1
    records := packageRecord s 3 [] :: (if image.isSome then [packageRecord s 1 []] else [])
    groups := s.upd.groups, tensors := s.upd.tensors,
    gstate := s.upd.gstate, clip := 0, gscale := 0, skipped := false, hadPass := false, nf1 := 0, nf2 := 0, digest := 0,
    gens := allGens s, imageAt := image, image := imageCopy s image
    bytes := recordLen 0x800000 + (match image with
      | some (_, _, n) => recordLen (0x80000 + 64 * n.toNat)
      | none => 0)
    logged := s.twin.logSize != 0 }
  modTwin s (fun t => { t with log := fitStep t.logSize.toNat x :: t.log.take 4 })

/-- A command of the log admitted (R370): its parameters, with its status still to come. -/
def logAdmit (s : State) (h : CmdHdr) (op : W16) (params : List Byte) : State :=
  let r : LogRec := {
    opcode := op, stream := h.stream, seq := h.seq, master := h.master,
    status := BitVec.ofNat 8 (statusCode .accepted), kind := 0, ft := h.stamp,
    epoch := if s.memblk.stepOn then s.memblk.epoch + 1 else s.memblk.epoch, body := params }
  modLog s (fun x => { x with records := x.records ++ [r], bytes := x.bytes + recordLen params.length })

/-- The body of a pass record: CLIP, SKIPPED, NF1, NF2 and the digest (R370; log entry 38). -/
def passBody (p : Pass) : List Byte :=
  leBytes 4 p.clip.toNat ++ leBytes 4 (b2n p.skipped) ++ leBytes 8 p.nf1.toNat ++ leBytes 8 p.nf2.toNat ++ leBytes 16 p.digest.toNat

/-- The pass record of the step in progress (R370). -/
def logPass (s : State) (p : Pass) : State :=
  modLog s (fun x => { x with clip := p.clip, gscale := p.gscale, skipped := p.skipped, hadPass := true, nf1 := p.nf1,
                              nf2 := p.nf2, digest := p.digest, records := x.records ++ [packageRecord s 2 (passBody p)]
                              bytes := x.bytes + recordLen 40 })

end Sys2Proof.Machine
end

