-- ==== Sys2Proof/Machine/Update.lean ====
section
/-! DEFINITION. The update engines (R164, R178 to R194): curves, scalars, the rules, panel service, preconditioner
roots and the state digest. -/

namespace Sys2Proof.Machine

/-! ### Compensated masters (R164) -/

/-- The FP32 code above a finite one. -/
def nextUp (m : Nat) : Nat :=
  if bit m 31 then (if m = 2 ^ 31 then 1 else m - 1) else m + 1

/-- The exact difference of two finite values. -/
def fvSub (a b : Fv) : Fv := a.add b.negate

/-- The gap above a finite FP32 code (R164). -/
def cmGap (m : Nat) : Fv :=
  if m = 0x7F7FFFFF then .fin false (2 ^ 104) 1 else fvSub (f32 (nextUp m)) (f32 m)

/-- The value of a compensated master (R164). -/
def cmValue (m c : Nat) : Fv :=
  if (f32 m).isFin then (f32 m).add ((cmGap m).mul (.fin false c 65536)) else f32 m

/-- A magnitude rounded toward zero to FP32, as its code. -/
def truncF32 (a : Nat × Nat) : Nat :=
  if a.1 = 0 then 0 else
  let k := fracLog2 a.1 a.2
  let kk := if k < -126 then -126 else k
  let q := pow2Frac 1 (kk - 23)
  (kk + 126).toNat * 2 ^ 23 + a.1 * q.2 / (a.2 * q.1)

/-- The largest FP32 at or below an exact value whose magnitude FP32 holds; 0 as +0 (R164). -/
def floorF32 (x : Fv) : Nat :=
  let c := if x.neg? then ceilF32 x.mag else truncF32 x.mag
  if c = 0 then 0 else if x.neg? then c + 2 ^ 31 else c

/-- The largest finite FP32 as a fraction. -/
def maxF32 : Nat × Nat := (f32 0x7F7FFFFF).mag

/-- Storing a value as a compensated master (R164). -/
def cmStore (x : Fv) : Nat × Nat :=
  match x with
  | .nan => (canonNan 23, 0)
  | .inf g => (if g then 0xFF800000 else 0x7F800000, 0)
  | .fin g n d =>
    if fracLt maxF32 (n, d) then (if g then 0xFF800000 else 0x7F800000, 0) else
    let m := floorF32 x
    let r := (fvSub x (f32 m)).mag
    let gap := (cmGap m).mag
    (m, r.1 * 65536 * gap.2 / (r.2 * gap.1))

/-! ### Square roots of exact sums -/

/-- The square root of an exact non-negative fraction, correctly rounded to FP32. -/
def sqrtFrac (n d : Nat) : Nat :=
  if n = 0 then 0 else
  let s := 320 + Nat.log2 d
  let t := n * 2 ^ (2 * s) / d
  let y := isqrt t
  toF32 (.fin false (2 * y + b2n (!(y * y * d == n * 2 ^ (2 * s)))) (2 ^ (s + 1)))

/-- The square root of the exact sum of squares of FP32 values (R187, R192); a value that is not finite carries as
FP32 arithmetic carries it. -/
def rootSumSq (l : List Nat) : Nat :=
  match l.foldl (fun a x => a.add ((f32 x).mul (f32 x))) Fv.zero with
  | .fin _ n d => sqrtFrac n d
  | .inf _ => 0x7F800000
  | .nan => canonNan 23

/-! ### Curves and scalars (R178, R182) -/

/-- A point of a curve: step and value. -/
def curvePoint (s : State) (base i : Nat) : Nat × Nat := (rdNat s (base + 16 * i) 8, rdNat s (base + 16 * i + 8) 4)

/-- FP32 from an unsigned integer. -/
def f32OfNat (n : Nat) : Nat := toF32 (.fin false n 1)

/-- A schedule curve at a step (R178). -/
def curveAt (s : State) (base n x : Nat) : Nat :=
  let ps := (List.range n).map (curvePoint s base)
  match ps.head?, ps.getLast? with
  | some p, some q =>
    if x ≤ p.1 then p.2
    else if q.1 ≤ x then q.2
    else
      let i := (ps.takeWhile (fun r => decide (r.1 ≤ x))).length - 1
      let a := ps.getD i (0, 0)
      let b := ps.getD (i + 1) (0, 0)
      let u := fdiv (f32OfNat (x - a.1)) (f32OfNat (b.1 - a.1))
      ffma u (fsub b.2 a.2) a.2
  | _, _ => 0

/-- FP32 one. -/
def one32 : Nat := 0x3F800000

/-! ### Group state (R177) -/

/-- The state that a group starts with (R179). -/
def GState.start : GState := { p1 := 0x3F800000, p2 := 0x3F800000, steps := 0, nextSwitch := 0, rootSlot := false }

/-- The 32 bytes of a group state (R177). -/
def gstateBytes (g : GState) : List Byte :=
  leBytes 4 g.p1.toNat ++ leBytes 4 g.p2.toNat ++ leBytes 8 g.steps.toNat ++ leBytes 8 g.nextSwitch.toNat ++
    leBytes 4 (b2n g.rootSlot) ++ leBytes 4 0

/-- A group state from its 32 bytes. -/
def parseGState (b : List Byte) : GState :=
  { p1 := BitVec.ofNat 32 (leAt b 0 4), p2 := BitVec.ofNat 32 (leAt b 4 4), steps := BitVec.ofNat 64 (leAt b 8 8),
    nextSwitch := BitVec.ofNat 64 (leAt b 16 8), rootSlot := bit (leAt b 24 4) 0 }

/-- Address of a group's state in the group state array (R177). -/
def gstateAt (s : State) (gi : Nat) : Nat := s.upd.stateBase.toNat + 32 * gi

/-- A group's state as the array holds it. -/
def storedGState (s : State) (gi : Nat) : GState := parseGState (rdBytes s (gstateAt s gi) 32)

/-- A group's state: what the array holds, but for a state that the next commit of the group is still to write there (R177): the
start of a group that became VALID (R179), and a NEXT_SWITCH that PRECOND_REFRESH set (R193). -/
def groupState (s : State) (gi : Nat) : GState := (look s.upd.gstate gi).getD (storedGState s gi)

/-- The scalars of a group in a pass (R182). -/
def groupScalars (s : State) (g : Group) (st : GState) (clip : Nat) : GScalars :=
  let x := (st.steps + 1).toNat
  let eta := curveAt s g.lrCurve g.lrPoints x
  let lam := curveAt s g.wdCurve g.wdPoints x
  let p1 := fmul st.p1.toNat g.b1.toNat
  let p2 := fmul st.p2.toNat g.b2.toNat
  let r2 := fsqrt (fsub one32 p2)
  let alpha := match g.rule with
    | .m => eta
    | .k => fmul eta g.gain.toNat
    | .a => fdiv (fmul eta r2) (fsub one32 p1)
    | .o => 0
  { eta := BitVec.ofNat 32 eta, kap := BitVec.ofNat 32 (fmul eta lam), alpha := BitVec.ofNat 32 alpha,
    epsh := BitVec.ofNat 32 (if g.rule = .a then fmul g.eps.toNat r2 else 0),
    clip := BitVec.ofNat 32 (if g.clipx then one32 else clip),
    p1n := if g.rule = .a then BitVec.ofNat 32 p1 else st.p1
    p2n := if g.rule = .a then BitVec.ofNat 32 p2 else st.p2 }

/-! ### First pass (R180) -/

/-- FP32 words of bytes. -/
def words (l : List Byte) : List Nat := words32 (l.length / 4) l

/-- Bytes of FP32 words. -/
def bytesOf (l : List Nat) : List Byte := wordsBytes l

/-- The unfrozen blocks of a tile. -/
def liveBlocks (s : State) (t : Tensor) (tile : Nat) : List Nat :=
  let f := freezeBits s t tile
  (List.range 32).filter (fun j => !bit f j)

/-- The squares of a tile's scaled gradients in units of 2^−298, and the non-finite ones (R180). -/
def tileSquares (s : State) (r : URule) (t : Tensor) (gscale tile : Nat) : Nat × Nat :=
  (liveBlocks s t tile).foldl (fun a j =>
    (words (rdTile s r t .g tile (128 * j) 128)).foldl (fun b g =>
      let gs := fmul g gscale
      match f32 gs with
      | .fin _ n d => (b.1 + n * n * 2 ^ 298 / (d * d), b.2)
      | _ => (b.1, b.2 + 1)) a) (0, 0)

/-- The VALID tensors of the latched list with their groups. -/
def liveTensors (s : State) : List (Tensor × Group) :=
  s.upd.tensors.filterMap (fun t => (look s.upd.groups t.group).map (fun g => (t, g)))

/-- The package's sum of squares and its non-finite count (R180). -/
def passOneSum (s : State) (gscale : Nat) : Nat × Nat :=
  ((liveTensors s).filter (fun p => !p.2.clipx)).foldl (fun a p =>
    (List.range p.1.tiles).foldl (fun b tile =>
      let q := tileSquares s p.2.rule p.1 gscale tile
      (b.1 + q.1, b.2 + q.2)) a) (0, 0)

/-- The word of the freeze mask that holds a tile's bits touches a poisoned line (R175, R250). -/
def freezeBad (s : State) (t : Tensor) (tile : Nat) : Bool := t.freeze != 0 && poisoned s (t.freeze + 4 * tile) 4

/-- Whether the first pass reads a poisoned line. -/
def passOneBad (s : State) : Bool :=
  ((liveTensors s).filter (fun p => !p.2.clipx)).any (fun p =>
    (List.range p.1.tiles).any (fun tile => freezeBad s p.1 tile || (liveBlocks s p.1 tile).any (fun j =>
      tileBad s p.2.rule p.1 .g tile (128 * j) 128)))

/-- GNORM and CLIP (R182): CLIP is TAU ÷ GNORM when TAU is above 0 and GNORM above TAU, else 1.0. -/
def normClip (stot tau : Nat) : Nat × Nat :=
  let g := sqrtFrac stot (2 ^ 298)
  (g, if Fv.lt Fv.zero (f32 tau) && !(f32 tau).isZero && Fv.lt (f32 tau) (f32 g) then fdiv tau g else one32)

/-! ### Element rules (R184) -/

/-- gh of a gradient (R184). -/
def scaledGrad (gscale clip g : Nat) : Nat := fmul (fmul g gscale) clip

/-- The new first moment (R184). -/
def newMom1 (r : URule) (b1 m1 gh : Nat) : Nat :=
  match r with
  | .a => ffma b1 (fsub m1 gh) gh
  | _ => ffma b1 m1 gh

/-- The new second moment of rule A (R184). -/
def newMom2 (b2 m2 gh : Nat) : Nat :=
  let q := fmul gh gh
  ffma b2 (fsub m2 q) q

/-- The apply step (R184): products and sum exact, one storing. -/
def applyStep (alpha kap u m c : Nat) : Nat × Nat :=
  let th := cmValue m c
  let t32 := toF32 th
  cmStore (fvSub th (((f32 alpha).mul (f32 u)).add ((f32 kap).mul (f32 t32))))

/-! ### Matrices of panel service (R187 to R192) -/

/-- A matrix: its rows, as FP32 codes. -/
abbrev Mat := List (List Nat)

/-- Element of a matrix. -/
def Mat.at (a : Mat) (i j : Nat) : Nat := (a.getD i []).getD j 0

/-- A matrix from its elements. -/
def mkMat (r c : Nat) (f : Nat → Nat → Nat) : Mat := (List.range r).map (fun i => (List.range c).map (f i))

/-- The transpose of an r × c matrix. -/
def Mat.tr (a : Mat) (r c : Nat) : Mat := mkMat c r (fun i j => a.at j i)

/-- A line of a matrix converted by blocks of 32 to I8B, JIT, RNE (R188): codes and scale of each block. -/
def lineBlocks (l : List Nat) : List (List Nat × Nat) :=
  (chunks 32 (l.length + 1) (l ++ List.replicate (roundUp l.length 32 - l.length) 0)).map (fun b =>
    let ys := b.map f32
    let sc := selectScale (amaxOf ys) .i8b true
    ((convertBlock (ys.map (fun y => (y, none))) .i8b sc false).codes, sc))

/-- The contribution of a block of two lines: two segments of 16 elements (R89, R90). -/
def blockJoint (a b : List Nat × Nat) (w : Int) : Nat :=
  let seg := fun (o : Nat) =>
    let p := (List.range 16).foldl (fun (x : Int) i => x + i8Val (a.1.getD (o + i) 0) * i8Val (b.1.getD (o + i) 0)) 0
    (joint p b.2 a.2 (-12) w).1
  add64 (seg 0) (seg 16)

/-- The largest scale exponent of converted lines. -/
def topExp (ls : List (List (List Nat × Nat))) : Int :=
  ls.foldl (fun m l => l.foldl (fun n b => max n ((b.2 % 256 : Nat) - 127)) m) (-127)

/-- The ceiling of the base-2 logarithm of a positive number. -/
def ceilLog2 (n : Nat) : Nat := if n ≤ 1 then 0 else Nat.log2 (n - 1) + 1

/-- mm (R188): an exact array product of an a × k and a k × b matrix, read out once. -/
def mm (x y : Mat) (a k b : Nat) : Mat :=
  let rows := x.map lineBlocks
  let cols := (y.tr k b).map lineBlocks
  let nc := 2 * (roundUp k 32) / 32
  let w := max (topExp rows + topExp cols - 12 + 20 + (ceilLog2 nc : Int) - 62) (-320)
  mkMat a b (fun i j =>
    let v := ((rows.getD i []).zip (cols.getD j [])).foldl (fun s p => add64 s (blockJoint p.1 p.2 w)) 0
    encodeReadout 23 (readoutValue v w one32) none)

/-- mmf (R192): a fused chain for each element. -/
def mmf (x y : Mat) (n : Nat) : Mat :=
  mkMat n n (fun i j => (List.range n).foldl (fun c k => ffma (x.at i k) (y.at k j) c) 0)

/-- orth (R187). -/
def orth (p : Mat) (pk pn : Nat) : Mat :=
  let tr := decide (pn < pk)
  let r := if tr then pn else pk
  let c := if tr then pk else pn
  let x := if tr then p.tr pk pn else p
  let f := rootSumSq x.flatten
  if f = 0 then mkMat pk pn (fun _ _ => 0) else
  let x0 := mkMat r c (fun i j => fdiv (x.at i j) f)
  let x5 := iter 5 (fun (z : Mat) =>
    let a := mm z (z.tr r c) r c r
    let y := mm a z r r c
    mkMat r c (fun i j => ffma 0xBF600000 (y.at i j) (fmul 0x3FF00000 (z.at i j)))) x0
  if tr then x5.tr r c else x5

/-- inv_root4 (R192). -/
def invRoot4 (a : Mat) (n keps kiter : Nat) : Mat :=
  let a1 := mkMat n n (fun i j => if i = j then fadd (a.at i j) keps else a.at i j)
  let c := rootSumSq a1.flatten
  if c = 0 then mkMat n n (fun i j => if i = j then one32 else 0) else
  let z := toF32 (f32 (fsqrt c)).rsqrt
  let x0 := mkMat n n (fun i j => if i = j then z else 0)
  let m0 := mkMat n n (fun i j => fdiv (a1.at i j) c)
  (iter kiter (fun (p : Mat × Mat) =>
    let t := mkMat n n (fun i j => fmul 0x3E800000 (fsub (if i = j then 0x40A00000 else 0) (p.2.at i j)))
    let t2 := mmf t t n
    let t4 := mmf t2 t2 n
    (mmf p.1 t n, mmf t4 p.2 n)) (x0, m0)).1

/-! ### Panels in memory -/

/-- The panel of an array: element (i, j) with i along K and j along N (R173). -/
def rdPanel (s : State) (r : URule) (t : Tensor) (x : UArr) (p : Nat) : Mat :=
  let b := t.panelBox p
  let tiles := (List.range b.2.2.1).map (fun a => (List.range b.2.2.2).map (fun c =>
    words (rdTile s r t x (t.tileNo (b.1 + a) (b.2.1 + c)) 0 4096)))
  mkMat (32 * b.2.2.1) (32 * b.2.2.2) (fun i j =>
    ((tiles.getD (i / 32) []).getD (j / 32) []).getD (32 * (j % 32) + i % 32) 0)

/-- The tiles of a panel. -/
def panelTiles (t : Tensor) (p : Nat) : List Nat :=
  let b := t.panelBox p
  (List.range b.2.2.1).flatMap (fun a => (List.range b.2.2.2).map (fun c => t.tileNo (b.1 + a) (b.2.1 + c)))

/-- A matrix of a panel's K record. -/
def rdK (s : State) (t : Tensor) (p : Nat) (x : KMat) : Mat :=
  let d := t.panelDim p
  let q := x.place d.1 d.2
  let w := words (rdBytes s (t.recAt p + q.1) (4 * q.2 * q.2))
  mkMat q.2 q.2 (fun i j => w.getD (q.2 * i + j) 0)

/-- A matrix of a panel's K record written. -/
def wrK (s : State) (t : Tensor) (p : Nat) (x : KMat) (m : Mat) : State :=
  let d := t.panelDim p
  let q := x.place d.1 d.2
  wrBytes s (t.recAt p + q.1) (bytesOf m.flatten)

/-- Phase a of a panel (R186, R184): the momentum line on every unfrozen element; MOM1 is written. -/
def phaseA (s : State) (t : Tensor) (g : Group) (gscale clip p : Nat) : State :=
  (panelTiles t p).foldl (fun u tile =>
    (liveBlocks u t tile).foldl (fun v j =>
      let gs := words (rdTile v g.rule t .g tile (128 * j) 128)
      let ms := words (rdTile v g.rule t .mom1 tile (128 * j) 128)
      let out := (gs.zip ms).map (fun q => newMom1 g.rule g.b1.toNat q.2 (scaledGrad gscale clip q.1))
      wrTile v g.rule t .mom1 tile (128 * j) (bytesOf out)) u) s

/-- The panel of an array as service reads it: frozen blocks are not read (R183), and what their elements enter the
service as is a free function of what they hold (log entry 84). -/
def rdLivePanel (s : State) (r : URule) (t : Tensor) (x : UArr) (p : Nat) : Mat :=
  let b := t.panelBox p
  let masks := (List.range b.2.2.1).map (fun a => (List.range b.2.2.2).map (fun c =>
    freezeBits s t (t.tileNo (b.1 + a) (b.2.1 + c))))
  (rdPanel s r t x p).zipIdx.map (fun row => row.1.zipIdx.map (fun e =>
    if bit ((masks.getD (row.2 / 32) []).getD (e.2 / 32) 0) (e.2 % 32) then (Config.frozenElem (BitVec.ofNat 32 e.1)).toNat
    else e.1))

/-- The unfrozen blocks of a panel of an array written. -/
def wrLivePanel (s : State) (r : URule) (t : Tensor) (x : UArr) (p : Nat) (m : Mat) : State :=
  let b := t.panelBox p
  (List.range b.2.2.1).foldl (fun u a => (List.range b.2.2.2).foldl (fun v c =>
    let tile := t.tileNo (b.1 + a) (b.2.1 + c)
    (liveBlocks v t tile).foldl (fun w j => wrTile w r t x tile (128 * j)
      (bytesOf ((List.range 32).map (fun e => m.at (32 * a + e) (32 * c + j))))) v) u) s

/-- The service of a panel (R187, R189): DIR is written, and under rule K the statistics. Frozen blocks are neither read
nor written (R183). -/
def servicePanel (s : State) (t : Tensor) (g : Group) (st : GState) (gscale clip p : Nat) : State :=
  let d := t.panelDim p
  let m1 := rdLivePanel s g.rule t .mom1 p
  match g.rule with
  | .k =>
    let gh : Mat := (rdLivePanel s g.rule t .g p).map (fun r => r.map (scaledGrad gscale clip))
    let ght := gh.tr d.1 d.2
    let sl := mm gh ght d.1 d.2 d.1
    let sr := mm ght gh d.2 d.1 d.2
    let kb := g.kbeta.toNat
    let decay := fun (o n : Mat) (k : Nat) => mkMat k k (fun i j => ffma kb (fsub (o.at i j) (n.at i j)) (n.at i j))
    let s1 := wrK s t p .lst (decay (rdK s t p .lst) sl d.1)
    let s2 := wrK s1 t p .rst (decay (rdK s1 t p .rst) sr d.2)
    let lr := rdK s2 t p (.lr st.rootSlot)
    let rr := rdK s2 t p (.rr st.rootSlot)
    wrLivePanel s2 g.rule t .dir p (mm (mm lr m1 d.1 d.1 d.2) rr d.1 d.2 d.2)
  | _ => wrLivePanel s g.rule t .dir p (orth m1 d.1 d.2)

/-! ### Second pass (R183 to R185) -/

/-- alpha of a tile: the group's, or the panel's under rule O (R187). -/
def tileAlpha (t : Tensor) (g : Group) (sc : GScalars) (tile : Nat) : Nat :=
  match g.rule with
  | .o =>
    let c := t.tileAt tile
    let d := t.panelDim (c.1 / t.pkt * t.panelCols + c.2 / t.pnt)
    let rho := if d.2 < d.1 then fsqrt (fdiv (f32OfNat d.1) (f32OfNat d.2)) else one32
    fmul sc.eta.toNat (fmul g.gain.toNat rho)
  | _ => sc.alpha.toNat

/-- An updated block: new master, first and second moment, the compute copy and the non-finite gradients (R184,
R185). -/
structure BlockNew where
  mast : List Byte
  mom1 : List Byte
  mom2 : List Byte
  vals : List Fv
  nf : Nat
  deriving DecidableEq, Repr

/-- The elements of a block updated (R184). -/
def updateBlock (s : State) (t : Tensor) (g : Group) (sc : GScalars) (gscale tile j : Nat) : BlockNew :=
  let r := g.rule
  let gs := (words (rdTile s r t .g tile (128 * j) 128)).map (scaledGrad gscale sc.clip.toNat)
  let m1 := words (rdTile s r t .mom1 tile (128 * j) 128)
  let m2 := if r = .a then words (rdTile s r t .mom2 tile (128 * j) 128) else List.replicate 32 0
  let dir := if r = .o ∨ r = .k then words (rdTile s r t .dir tile (128 * j) 128) else List.replicate 32 0
  let mast := rdTile s r t .mast tile (192 * j) 192
  let mw := words (mast.take 128)
  let es := (List.range 32).map (fun i =>
    let gh := gs.getD i 0
    let n1 := if r = .o ∨ r = .k then m1.getD i 0 else newMom1 r g.b1.toNat (m1.getD i 0) gh
    let n2 := if r = .a then newMom2 g.b2.toNat (m2.getD i 0) gh else 0
    let u := match r with
      | .m => n1
      | .a => fdiv n1 (fadd (fsqrt n2) sc.epsh.toNat)
      | _ => dir.getD i 0
    let q := applyStep (tileAlpha t g sc tile) sc.kap.toNat u (mw.getD i 0) (leAt mast (128 + 2 * i) 2)
    (q, n1, n2))
  { mast := bytesOf (es.map (fun e => e.1.1)) ++ es.flatMap (fun e => leBytes 2 e.1.2)
    mom1 := bytesOf (es.map (fun e => e.2.1))
    mom2 := if r = .a then bytesOf (es.map (fun e => e.2.2)) else []
    vals := es.map (fun e => cmValue e.1.1 e.1.2)
    nf := (gs.filter (fun x => !isFinite32 x)).length }

/-- The scale of column `j` of a compute-copy tile (R173). -/
def ccScale (cc : List Byte) (j : Nat) : Nat := leNat (cc.drop 512) >>> (9 * j) % 512

/-- The codes of column `j` of a compute-copy tile: cell (i, j) at byte 16i + j/2 (R121, R173). -/
def ccCodes (cc : List Byte) (j : Nat) : List Nat :=
  (List.range 32).map (fun i => (cc.getD (16 * i + j / 2) 0).toNat >>> (4 * (j % 2)) % 16)

/-- A compute-copy tile from the codes and scale of each column. -/
def mkCc (cols : List (List Nat × Nat)) : List Byte :=
  ((List.range 512).map (fun b =>
    let i := b / 16
    let j := b % 16 * 2
    BitVec.ofNat 8 (((cols.getD j ([], 0)).1.getD i 0) + 16 * ((cols.getD (j + 1) ([], 0)).1.getD i 0)))) ++
  leBytes 36 (cols.zipIdx.foldl (fun a p => a + p.1.2 <<< (9 * p.2)) 0)

/-- The message of a tile's digest contribution (R194). -/
def tileDigest (t : Tensor) (r : URule) (epoch tile : Nat) (body : List Byte) : Nat :=
  let code := match r with
    | .m => 0
    | .a => 1
    | .o => 2
    | .k => 3
  leNat (shake128 (leBytes 4 t.idx ++ leBytes 4 tile ++ leBytes 8 epoch ++ leBytes 2 t.group ++ [BitVec.ofNat 8 code] ++
    List.replicate 5 0 ++ body) 16)

/-- What a tile adds to a pass: non-finite gradients, digest and bytes moved. -/
structure TileOut where
  s : State
  nf : Nat
  digest : Nat
  bytes : Nat

/-- Bytes of a tile's freeze mask (R175): none without a mask. -/
def maskBytes (t : Tensor) : Nat := if t.freeze = 0 then 0 else 4

/-- Bytes that a tile of the second pass moves (R198): the arrays of its unfrozen blocks, the compute copies, its mask, LAST
as it is read, and as it is written where it changes (log entry 47). -/
def passTwoBytes (r : URule) (t : Tensor) (live : Nat) (changed : Bool) : Nat :=
  let per := match r with
    | .m => 24
    | .a => 32
    | .o => 36
    | .k => 36
  32 * live * per + 548 + (if live < 32 then 548 else 0) + maskBytes t + 4 + (if changed then 4 else 0)

/-- One tile of the second pass (R183 to R185, R194). DESIGN CHOICE (log entry 83): R147 bounds the blocks of a stream's
conversion by OV_BLOCKS and OV_ROWS; a pass has no stream to stop, and a block beyond the records of its guard entry
is updated all the same, its record byte taken where the address of R145 puts it. -/
def passTwoTile (s : State) (t : Tensor) (g : Group) (sc : GScalars) (gscale epoch tile : Nat) : TileOut :=
  let r := g.rule
  let mask := freezeBits s t tile
  let last := leNat (rdTile s r t .last tile 0 4)
  let live := liveBlocks s t tile
  let frozenMsg := List.replicate 8 (0xFF : Byte)
  if live.isEmpty ∧ mask = last then
    { s := s, nf := 0, digest := tileDigest t r epoch tile ((List.range 32).flatMap (fun _ => frozenMsg)), bytes := 0 }
  else
    let act := rdTile s r t (ccArr s.upd.ccActive) tile 0 548
    let c := t.tileAt tile
    let tr := trackingOf s t.tid.toNat
    let out := (List.range 32).foldl
      (fun (a : State × List (List Nat × Nat) × List Byte × Nat) j =>
        if bit mask j then (a.1, a.2.1 ++ [(ccCodes act j, ccScale act j)], a.2.2.1 ++ frozenMsg, a.2.2.2)
        else
          let n := updateBlock a.1 t g sc gscale tile j
          let m := 32 * c.2 + j
          let k := 32 * c.1
          let bs := blockScale a.1 tr .f4b false g.tracked n.vals m k
          let o := convertBlock (n.vals.map (fun y => (y, none))) .f4b bs.1 bs.2
          let s1 := recordBlock a.1 tr m k n.vals o
          let s2 := wrTile s1 r t .mast tile (192 * j) n.mast
          let s3 := if r = .o ∨ r = .k then s2 else wrTile s2 r t .mom1 tile (128 * j) n.mom1
          let s4 := if r = .a then wrTile s3 r t .mom2 tile (128 * j) n.mom2 else s3
          let codes := leBytes 16 (o.codes.zipIdx.foldl (fun x p => x + p.1 <<< (4 * p.2)) 0)
          (s4, a.2.1 ++ [(o.codes, o.scale)],
           a.2.2.1 ++ n.mast ++ n.mom1 ++ n.mom2 ++ codes ++ leBytes 2 o.scale, a.2.2.2 + n.nf)) (s, [], [], 0)
    let s1 := wrTile out.1 r t (ccArr (!s.upd.ccActive)) tile 0 (mkCc out.2.1)
    let s2 := if mask = last then s1 else wrTile s1 r t .last tile 0 (leBytes 4 mask)
    { s := s2, nf := out.2.2.2, digest := tileDigest t r epoch tile out.2.2.1,
      bytes := passTwoBytes r t live.length (mask ≠ last) }

/-- Whether the second pass reads a poisoned line for a tile. Of a tile all frozen whose LAST matches, mask and LAST alone are
read (R183). -/
def passTwoBad (s : State) (t : Tensor) (g : Group) (tile : Nat) : Bool :=
  let r := g.rule
  let idle := (liveBlocks s t tile).isEmpty && freezeBits s t tile == leNat (rdTile s r t .last tile 0 4)
  freezeBad s t tile || (liveBlocks s t tile).any (fun j =>
    tileBad s r t .g tile (128 * j) 128 || tileBad s r t .mom1 tile (128 * j) 128 ||
    tileBad s r t .mast tile (192 * j) 192 || (r == .a && tileBad s r t .mom2 tile (128 * j) 128) ||
    ((r == .o || r == .k) && tileBad s r t .dir tile (128 * j) 128)) ||
  tileBad s r t .last tile 0 4 ||
  (freezeBits s t tile != 0 && !idle && tileBad s r t (ccArr s.upd.ccActive) tile 0 548)

/-! ### What a commit does to a group (R177, R191, R194) -/

/-- The VALID K groups that no commit has updated (R191). -/
def newKGroups (s : State) : List Nat :=
  (s.upd.groups.filter (fun g => g.2.rule == .k && (groupState s g.1).steps == 0)).map (·.1)

/-- Whether a commit of epoch `e` switches the roots of a K group (R191): its first commit, or its switch epoch. -/
def switchesAt (g : Group) (st : GState) (isNew : Bool) (e : Nat) : Bool :=
  g.rule == .k && (isNew || (st.nextSwitch != 0 && st.nextSwitch.toNat == e))

/-- The group state that a commit of epoch `e` writes (R177, R182, R191). -/
def nextGState (g : Group) (st : GState) (sc : GScalars) (isNew : Bool) (e : Nat) : GState :=
  let st1 := { st with p1 := sc.p1n, p2 := sc.p2n, steps := st.steps + 1 }
  if switchesAt g st isNew e then
    { st1 with rootSlot := if isNew then st.rootSlot else !st.rootSlot
               nextSwitch := if g.kperiod = 0 then 0 else BitVec.ofNat 64 (e + g.kperiod.toNat) }
  else st1

/-- A group's contribution to the digest (R194). -/
def groupDigest (i e : Nat) (st : GState) : Nat :=
  leNat (shake128 (leBytes 2 i ++ leBytes 8 e ++ gstateBytes st) 16)

/-- The group state array, or a curve of a VALID group, touches a poisoned line that the scalars of R182 are read from. -/
def scalarsBad (s : State) : Bool :=
  s.upd.groups.any (fun x => ((look s.upd.gstate x.1).isNone && poisoned s (gstateAt s x.1) 32) ||
    poisoned s x.2.lrCurve (16 * x.2.lrPoints) || poisoned s x.2.wdCurve (16 * x.2.wdPoints))

/-- The committed statistics of every panel of a K group's tensors copied into a root slot (R191, R193). -/
def copyStats (s : State) (gi : Nat) (slot : Bool) : State :=
  (s.upd.tensors.filter (fun t => t.group == gi)).foldl (fun u t => (List.range t.panels).foldl (fun v p =>
    wrK (wrK v t p (.lr slot) (rdK v t p .lst)) t p (.rr slot) (rdK v t p .rst)) u) s

/-! ### What service and refreshes use of a cluster (R190, R192) -/

/-- The banks, the accumulation entries and the store bytes +0x20_0000 to +0x2F_FFFF of a cluster hold no defined values: free
values (log entry 3). -/
def spoilUnits (s : State) (n : Nat) : State :=
  let s1 := modCluster s n (fun k => { k with banks := [], banksFree := some s.fresh })
  useFresh { s1 with mem := s1.mem.spoilStore n (s.fresh + 64) } 65

/-- A refresh leaves what it used of the reserved clusters of its dies, and its scratch area, undefined (R192): it uses the same
cluster resources as panel service (R190), entries among them. Blocks of the scratch area that a capture covers are copied first
(R260). -/
def spoilRefresh (s : State) (gi : Nat) : State :=
  let c := s.upd.refreshClusters.toNat
  let ds := ((s.upd.tensors.filter (fun t => t.group == gi)).map (fun t => t.die.val)).dedup
  let s1 := ds.foldl (fun u d => (List.range c).foldl (fun v i => spoilUnits v (1024 * d + 1023 - i)) u) s
  let b := s.upd.refreshBase.toNat
  let n := 4 * c * 20 * 2 ^ 20
  let s2 := cowRange s1 b n
  useFresh { s2 with mem := s2.mem.spoilStack b (b + n) s2.fresh } 1

/-- A refresh of a K group computed in its inactive slot (R192). -/
def refreshGroup (s : State) (gi : Nat) (g : Group) (slot : Bool) : State :=
  (s.upd.tensors.filter (fun t => t.group == gi)).foldl (fun u t => (List.range t.panels).foldl (fun v p =>
    let d := t.panelDim p
    let l := invRoot4 (rdK v t p (.lr slot)) d.1 g.keps.toNat g.kiter.toNat
    let r := invRoot4 (rdK v t p (.rr slot)) d.2 g.keps.toNat g.kiter.toNat
    wrK (wrK v t p (.lr slot) l) t p (.rr slot) r) u) (spoilRefresh s gi)

/-- A running refresh is cancelled (R193, R373): its output is discarded, and what it used stays undefined. -/
def cancelRefresh (s : State) (gi : Nat) : State :=
  if s.upd.refreshing.contains gi then
    spoilRefresh { s with upd := { s.upd with refreshing := s.upd.refreshing.filter (· != gi) } } gi
  else s

end Sys2Proof.Machine
end

