-- ==== Sys2Proof/Machine/ReadOut.lean ====
section
/-! DEFINITION. The read-out port (R122, R97 to R102, R135): READ and FLUSH, and the array's grants (R72). -/

namespace Sys2Proof.Machine

/-- ENT of READ and FLUSH (R118). -/
def Issued.roEnt (i : Issued) : Nat := i.f 2 18 10

/-- N of READ and FLUSH (R118). -/
def Issued.roN (i : Issued) : Nat := i.f 2 9 0

/-- An instruction of the read-out queue is a READ. -/
def isRead (i : Issued) : Bool := insOp i.w == 2

/-- The clusters whose accumulation store a READ or FLUSH of cluster `n` acts on: its own, or each south member of the
group that it leads (R122). -/
def roTargets (s : State) (n : Nat) : List Nat :=
  match (cluster s n).fused with
  | some .s128x64 => [n + 32]
  | some .s64x128 => [n, n + 1]
  | some .s128x128 => [n + 32, n + 33]
  | none => [n]

/-- The columns that a READ reads (R99). -/
def Issued.roCols (i : Issued) : List Nat :=
  if i.f 0 16 16 = 1 then (List.range 32).map (2 * ·) else List.range 64

/-- A pass of an array that has not ended (R135): it still issues slots, or one has not committed; a cut pass has ended. -/
def passIn (a : ArrayUnit) (c : Ctx) (n : Nat) : Bool :=
  (match a.feeder with
   | some f => f.c == c && f.ins.n == n
   | none => false) || a.flight.any (fun q => !q.cut && q.c == c && q.passId == n)

/-- An earlier pass of its own context that commits into the entries of a READ or FLUSH keeps it waiting (R135). -/
def ownHolds (a : ArrayUnit) (c : Ctx) (i : Issued) : Bool :=
  let mine := fun (d : Ctx) (n e m : Nat) => d == c && decide (n < i.n) && entsMeet e m i.roEnt i.roN
  a.queue.any (fun q => !q.isLoad && mine q.c q.ins.n q.ins.passEnt q.ins.passM) ||
  (match a.feeder with
   | some f => mine f.c f.ins.n f.ins.passEnt f.ins.passM
   | none => false) ||
  a.flight.any (fun q => !q.cut && mine q.c q.passId q.passEnt q.passM)

/-- The passes of an array, of any context, that have issued a slot into the entries of a READ or FLUSH and have not ended
(R135). -/
def issuedInto (a : ArrayUnit) (i : Issued) : List (Ctx × Nat) :=
  (match a.feeder with
   | some f => if entsMeet f.ins.passEnt f.slots i.roEnt i.roN then [(f.c, f.ins.n)] else []
   | none => []) ++
  (a.flight.filter (fun q => !q.cut && entsMeet q.passEnt q.passM i.roEnt i.roN &&
    (match a.feeder with
     | some f => !(f.c == q.c && f.ins.n == q.passId)
     | none => true))).map (fun q => (q.c, q.passId))

/-- The passes that a READ or FLUSH waits for, were it to reach its grant now, by array (R135). -/
def roWaitSet (s : State) (n : Nat) (i : Issued) : List (Nat × Ctx × Nat) :=
  (cluster s n).arrays.toList.zipIdx.flatMap (fun p => (issuedInto p.1 i).map (fun q => (p.2, q)))

/-- Passes hold a READ or FLUSH: its own context's earlier ones, and of those that had issued into its entries when it reached its
grant any that has not ended; a pass that issued its first slot later is not waited for (R135). -/
def passHolds (s : State) (n : Nat) (c : Ctx) (i : Issued) : Bool :=
  let k := cluster s n
  k.arrays.toList.any (fun a => ownHolds a c i) ||
  ((stream s n c).roPasses.getD (roWaitSet s n i)).any (fun p => passIn (vgetD k.arrays p.1 ArrayUnit.reset) p.2.1 p.2.2)

/-- A commit of the step has been accepted and not completed (R149). -/
def commitPending (s : State) : Bool :=
  (findLong s (fun k => match k with
    | .stepCommit _ => true
    | _ => false)).isSome

/-- A conversion into a tracked tensor is not granted while a commit is pending (R149). -/
def trackedHeld (s : State) (tid : Nat) : Bool :=
  commitPending s && (match trackingOf s tid with
    | .tracked _ _ => true
    | _ => false)

/-- A drain with queued slots holds the bank of an entry of a READ or FLUSH (R64, R122). -/
def drainHolds (a : ArrayUnit) (i : Issued) : Bool :=
  a.flight.any (fun q => q.queued && (List.range (min i.roN 4)).any (fun e => (i.roEnt + e) % 4 == q.entry % 4))

/-- A READ or FLUSH must wait (R64, R135, R149). -/
def roWaits (s : State) (n : Nat) (c : Ctx) (i : Issued) : Bool :=
  passHolds s n c i || (cluster s n).arrays.toList.any (fun a => drainHolds a i) ||
  (isRead i && (match readTD s n (i.xr (i.f 0 3 0)) with
    | some t => trackedHeld s t.tid
    | none => false))

/-- The tracking checks of a conversion of rows `m0` to `m1` and elements `k0` to `k1 − 1` into a destination
(R144, R147). The bounds of R147 are those of an override record: an FP32 or BF16 destination, whose entry is COUNT, uses none and
is not held to OV_BLOCKS and OV_ROWS (DESIGN CHOICE, log entry 83). -/
def trackOk (s : State) (t : TD) (trackedSrc : Bool) (m1 k1 : Nat) : Bool :=
  match trackingOf s t.tid with
  | .reserved => false
  | .untracked => !trackedSrc
  | .tracked _ c => pairingOk c t.fmt t.s8 && (!t.fmt.isBlock || recordOk c m1 (k1 - 1))

/-- The checks of a READ or FLUSH at grant (R122, R91, R124, R147). -/
def roOk (s : State) (n : Nat) (i : Issued) : Bool :=
  decide (1 ≤ i.roN) && decide (i.roN ≤ 512) && decide (i.roEnt + i.roN ≤ 512) &&
  (!isRead i || (winOk i.w10 &&
    (match readTD s n (i.xr (i.f 0 3 0)) with
     | none => false
     | some t =>
       let k0 := i.f 1 23 0
       let k1 := k0 + i.roCols.length
       let m1 := i.xr (i.f 0 7 4) + i.roN - 1
       (t.fmt == .fp32 || t.fmt == .bf16 || t.fmt == .f4b || t.fmt == .i8b) &&
       (!t.fmt.isBlock || aligned k0 32) &&
       trackOk s t (i.f 0 18 18 == 1) m1 k1 && t.rowOk m1 k0 k1)))

/-- The draws of a row of lanes, in order (R106, R107). -/
def drawLanes (sr : Bool) (cl : Nat) : List Nat → Assoc W128 → List (Option Nat) × Assoc W128
  | [], g => ([], g)
  | l :: r, g =>
    let p := drawIf sr g cl l
    let q := drawLanes sr cl r p.2
    (p.1 :: q.1, q.2)

/-- A block of a destination row converted and written, and what the guard records of it (R100 to R102, R150, R154). -/
def putConverted (s : State) (cl : Nat) (t : TD) (trackedSrc : Bool) (m k : Nat) (ys : List (Fv × Option Nat)) :
    State × Counts :=
  let tr := trackingOf s t.tid
  let vs := ys.map (·.1)
  let sc := blockScale s tr t.fmt t.s8 trackedSrc vs m k
  let o := convertBlock ys t.fmt sc.1 sc.2
  (recordBlock (t.putBlock s cl m (k / 32) o.codes o.scale) tr m k vs o, o.counts)

/-- The elements of one entry written to an FP32 or BF16 row (R97, R98, R102). -/
def putPlain (s : State) (cl : Nat) (t : TD) (m k : Nat) (ys : List (Fv × Option Nat)) : State × Counts :=
  let mb := if t.fmt = .bf16 then 7 else 23
  let cs := ys.map (fun p => (p.1, encodeReadout mb p.1 p.2))
  let dec := fun c => if t.fmt = .bf16 then bf16 c else f32 c
  let n := cs.foldl (fun (a : Counts) p =>
    a.add ⟨1, b2n (p.1.isFin && (dec p.2).isZero), 0, b2n (!p.1.isFin || !(dec p.2).isFin), 0⟩) Counts.none
  let s1 := cs.zipIdx.foldl (fun u p => t.putElem u cl m (k + p.2) p.1.2) s
  (addCounts s1 (trackingOf s t.tid) n (amaxOf (ys.map (·.1))) 0, n)

/-- One entry of a READ (R97 to R102, R122): its columns in order, each rounded once. -/
def readEntry (s : State) (cl : Nat) (i : Issued) (t : TD) (e : Nat) : State × Counts :=
  let cols := i.roCols
  let sr := i.f 0 19 19 == 1
  let sigma := i.xr (i.f 0 11 8) % 2 ^ 32
  let d := drawLanes sr cl (cols.map (64 + ·)) (cluster s cl).gens
  let s1 := modCluster s cl (fun k => { k with gens := d.2 })
  let ys := (cols.map (fun j => readoutValue (accGet s cl (i.roEnt + e) j) i.w10 sigma)).zip d.1
  let s2 := if i.f 0 15 15 = 1 then (List.range 64).foldl (fun u j => accPut u cl (i.roEnt + e) j 0) s1 else s1
  let m := i.xr (i.f 0 7 4) + e
  let k0 := i.f 1 23 0
  if t.fmt.isBlock then
    (chunks 32 3 ys).zipIdx.foldl (fun (a : State × Counts) g =>
      let r := putConverted a.1 cl t (i.f 0 18 18 == 1) m (k0 + 32 * g.2) g.1
      (r.1, a.2.add r.2)) (s2, Counts.none)
  else putPlain s2 cl t m k0 ys

/-- A READ performed (R122). -/
def performRead (s : State) (n : Nat) (c : Ctx) (i : Issued) (t : TD) : State :=
  let r := (roTargets s n).foldl (fun (a : State × Counts) cl =>
    (List.range i.roN).foldl (fun (b : State × Counts) e =>
      let q := readEntry b.1 cl i t e
      (q.1, b.2.add q.2)) a) (s, Counts.none)
  modStream r.1 n c (fun u => u.noteCounts r.2)

/-- A FLUSH performed (R122): its entries are 0 in every column. -/
def performFlush (s : State) (n : Nat) (i : Issued) : State :=
  (roTargets s n).foldl (fun t cl =>
    (List.range i.roN).foldl (fun u e => (List.range 64).foldl (fun v j => accPut v cl (i.roEnt + e) j 0) u) t) s

/-- A READ or FLUSH at its grant: it runs to completion, or faults before it touches anything (R122). -/
def performRo (s : State) (n : Nat) (c : Ctx) (i : Issued) : State :=
  if !roOk s n i then noteFault s n c (keptWhole i) .badParam false
  else if isRead i then
    match readTD s n (i.xr (i.f 0 3 0)) with
    | some t => performRead s n c i t
    | none => s
  else performFlush s n i

/-- The first READ or FLUSH of a context in the queue. -/
def nextRo (s : State) (n : Nat) (c : Ctx) : Option Issued := ((cluster s n).readq.find? (fun p => p.1 == c)).map (fun p => p.2)

/-- The first READ or FLUSH of a context in the queue that may be granted. -/
def readyRo (s : State) (n : Nat) (c : Ctx) : Option Issued :=
  match nextRo s n c with
  | some i => if takesGrants s n c && !roWaits s n c i then some i else none
  | none => none

/-- The next READ or FLUSH of a context reaches its grant: the passes that it waits for are now fixed (R135). -/
def reachRo (n : Nat) (s : State) (c : Ctx) : State :=
  match nextRo s n c with
  | some i =>
    if takesGrants s n c && (stream s n c).roPasses.isNone then
      modStream s n c (fun t => { t with roPasses := some (roWaitSet s n i) })
    else s
  | none => s

/-- The turn of a context's next READ or FLUSH at the read-out port ends with its grant. -/
def leaveRo (s : State) (n : Nat) (c : Ctx) : State := modStream s n c (fun t => { t with roPasses := none })

/-- The read-out port grants the next READ or FLUSH in rotation (R72); of the others each that is the next of its context has reached
its grant (R135). -/
def grantReadout (s : State) (n : Nat) : State :=
  let k := cluster s n
  if !clusterLive s n || memberHeld s n then s else
  let s1 := [Ctx.fwd, .bin, .bwt, .svc].foldl (reachRo n) s
  match (rotation k.lastRead).findSome? (fun c => (readyRo s1 n c).map (fun i => (c, i))) with
  | none => s1
  | some (c, i) =>
    performRo (leaveRo (modCluster s1 n (fun k => { k with
      readq := k.readq.filter (fun p => p ≠ (c, i)), lastRead := c })) n c) n c i

/-- ARRAY_GRANT (R72): the feeder or the load path of an array, or the read-out port, grants the next ready work. -/
def execArrayGrant (n : Nat) (p : GrantPort) (s : State) : Host.Outcome State Fault Refusal :=
  .next (match p with
    | .feeder a => grantFeeder s n a
    | .load a => grantLoad s n a
    | .readout => grantReadout s n)

/-- A READ or FLUSH enters the read-out queue of 4 (R113); with nothing to wait for, it is granted at once. -/
def enqueueRo (n : Nat) (c : Ctx) (s : State) (i : Issued) (_ : Option Kept) : Issue :=
  let k := cluster s n
  if memberHeld s n || decide (4 ≤ (k.readq.filter (fun p => p.1 == c)).length) then .hold
  else if k.readq.isEmpty && !roWaits s n c i then
    .done (performRo (modCluster s n (fun k => { k with lastRead := c })) n c i)
  else .done (reachRo n (modCluster s n (fun k => { k with readq := k.readq ++ [(c, i)] })) c)

/-- ARR_READ (R122). -/
def execArrRead (n : Nat) (c : Ctx) (s : State) : Host.Outcome State Fault Refusal :=
  .next (issue s n c 0 2 (enqueueRo n c))

/-- ARR_FLUSH (R122). -/
def execArrFlush (n : Nat) (c : Ctx) (s : State) : Host.Outcome State Fault Refusal :=
  .next (issue s n c 0 3 (enqueueRo n c))

end Sys2Proof.Machine
end

