-- ==== Sys2Proof/Machine/Vector.lean ====
section
/-! DEFINITION. The vector unit (R125 to R129, R466) and its queue (R113): the faults of a VEC instruction are found after issue
(R117). -/

namespace Sys2Proof.Machine

/-- VD and VA of a VEC instruction (R125). -/
def Issued.vd (i : Issued) : Nat := i.f 0 19 16
def Issued.va (i : Issued) : Nat := i.f 0 15 12
/-- IMM, SSRC and RND of a VEC instruction (R125). -/
def Issued.imm (i : Issued) : Nat := i.f 1 31 0
def Issued.ssrc (i : Issued) : Bool := i.f 2 13 13 == 1
def Issued.sr (i : Issued) : Bool := i.f 2 12 12 == 1
/-- XI, XE and XA of a VEC instruction (R125). -/
def Issued.xi (i : Issued) : Nat := i.f 2 11 8
def Issued.xe (i : Issued) : Nat := i.f 2 7 4
def Issued.xa (i : Issued) : Nat := i.f 2 3 0

/-- What a VEC operation does in a cluster and context: none is a fault that changed nothing. -/
abbrev VecAct := State → Nat → Ctx → Issued → VTyp → Option State

/-- No operand range passes V15 (R126); IMM in place of VB needs no register. -/
def vrangesOk (i : Issued) : Bool :=
  (vecUses (insOp i.w)).all (fun u => (u == .b && i.immb) || decide (i.vfirst u + i.regs ≤ 16))

/-- The types that a VEC operation takes (R126). -/
def vecTypes (op : Nat) : List VTyp :=
  if op ≤ 0x05 then [.fp32, .bf16, .int32]
  else if op = 0x0F ∨ op = 0x10 ∨ (0x11 ≤ op ∧ op ≤ 0x14) then [.fp32]
  else [.fp32, .bf16]

/-- The lane of an operand as a number: a register, or IMM in place of VB (R126). -/
def Issued.lane (i : Issued) (t : Stream) (ty : VTyp) (u : VUse) (r l : Nat) : Nat :=
  if u = .b ∧ i.immb then (if ty = .bf16 then i.imm % 2 ^ 16 else i.imm)
  else (vgetD (t.vr (i.vfirst u + r)) l 0).toNat

/-- A vector register written from lanes. -/
def mkReg (f : Nat → Nat) : Vector W32 64 := Vector.ofFn (fun l => BitVec.ofNat 32 (f l.val))

/-- An operation lane by lane: every operand is read as the instruction found it (R113), and every register of the
destination is written in increasing order. -/
def mapLanes (s : State) (n : Nat) (c : Ctx) (i : Issued) (f : Stream → Nat → Nat → Nat) : State :=
  modStream s n c (fun t => (List.range i.regs).foldl (fun u r => u.setV (i.vd + r) (mkReg (f t r))) t)

/-- A floating-point operation of two or three operands in the type of the instruction, one rounding (R127). -/
def fpLane (ty : VTyp) (f : Fv → Fv → Fv → Fv) (a b c : Nat) : Nat :=
  match ty with
  | .bf16 => toBf16 (f (bf16 a) (bf16 b) (bf16 c))
  | _ => toF32 (f (f32 a) (f32 b) (f32 c))

/-- An arithmetic operation: floating point by value, or INT32 by its own function (R126). -/
def vecArith (f : Fv → Fv → Fv → Fv) (g : Nat → Nat → Nat → Nat) : VecAct := fun t n c i ty =>
  some (mapLanes t n c i (fun u r l =>
    let x := i.lane u ty .a r l
    let y := i.lane u ty .b r l
    let z := i.lane u ty .c r l
    if ty = .int32 then g x y z % 2 ^ 32 else fpLane ty f x y z))

/-- An operation without an INT32 form (R126). -/
def vecFp (f : Fv → Fv → Fv) : VecAct := vecArith (fun a b _ => f a b) (fun _ _ _ => 0)

/-- ADD (R126). -/
def vecAdd : VecAct := vecArith (fun a b _ => a.add b) (fun a b _ => a + b)

/-- SUB (R126). -/
def vecSub : VecAct := vecArith (fun a b _ => a.add b.negate) (fun a b _ => a + 2 ^ 32 - b)

/-- MUL (R126). -/
def vecMul : VecAct := vecArith (fun a b _ => a.mul b) (fun a b _ => a * b)

/-- FMA (R126): one rounding; INT32 wraps as ADD and MUL do (log entry 78). -/
def vecFma : VecAct := vecArith (fun a b d => (a.mul b).add d) (fun a b d => a * b + d)

/-- MAX (R126). -/
def vecMax : VecAct := vecArith (fun a b _ => Fv.max a b) (fun a b _ => if sext 32 a < sext 32 b then b else a)

/-- MIN (R126). -/
def vecMin : VecAct := vecArith (fun a b _ => Fv.min a b) (fun a b _ => if sext 32 b < sext 32 a then b else a)

/-- DIV (R126). -/
def vecDiv : VecAct := vecFp (fun a b => a.div b)

/-- RCP (R126). -/
def vecRcp : VecAct := vecFp (fun a _ => (Fv.ofInt 1).div a)

/-- RSQRT (R126). -/
def vecRsqrt : VecAct := vecFp (fun a _ => a.rsqrt)

/-- EXP2 (R126). -/
def vecExp2 : VecAct := vecFp (fun a _ => a.exp2)

/-- LOG2 (R126). -/
def vecLog2 : VecAct := vecFp (fun a _ => a.log2)

/-- The lane of DOT2 (R126, R127): two BF16 products and an FP32 addend, one rounding to FP32. -/
def dot2Lane (a b c : Nat) : Nat :=
  toF32 ((((bf16 a).mul (bf16 b)).add ((bf16 (a / 65536)).mul (bf16 (b / 65536)))).add (f32 c))

/-- DOT2 (R126, R127). -/
def vecDot2 : VecAct := fun t n c i ty =>
  some (mapLanes t n c i (fun u r l => dot2Lane (i.lane u ty .a r l) (i.lane u ty .b r l) (i.lane u ty .c r l)))

/-! ### LD and ST (R466) -/

/-- Bytes of a lane in memory (R466). -/
def laneBytes (ty : VTyp) : Nat := if ty = .bf16 then 2 else 4

/-- The address of lane `l` of register `r` (R466). -/
def Issued.laneAddr (i : Issued) (r l : Nat) : Nat := (i.xr i.xa + i.imm + (64 * r + l) * i.f 3 21 0) % 2 ^ 64

/-- Every byte of every lane lies in the own store (R466). -/
def lanesInStore (i : Issued) (ty : VTyp) : Bool :=
  (List.range i.regs).all (fun r => (List.range 64).all (fun l => inStore (i.laneAddr r l) (laneBytes ty)))

/-- LD (R466). -/
def vecLd : VecAct := fun t n c i ty =>
  if lanesInStore i ty then some (mapLanes t n c i (fun _ r l => stNat t n (i.laneAddr r l) (laneBytes ty)))
  else none

/-- ST (R466): lanes in increasing r, then l, so that the later lane's bytes remain. -/
def vecSt : VecAct := fun t n c i ty =>
  if lanesInStore i ty then
    some ((List.range i.regs).foldl (fun u r => (List.range 64).foldl (fun v l =>
      stPut v n (i.laneAddr r l) (leBytes (laneBytes ty) (i.lane (stream v n c) ty .a r l))) u) t)
  else none

/-! ### Conversions (R126, R129, R87) -/

/-- The draws of the 64 vector lanes under SR (R129). -/
def drawVector (s : State) (n : Nat) (sr : Bool) : List (Option Nat) × State :=
  let d := drawLanes sr n (List.range 64) (cluster s n).gens
  (d.1, modCluster s n (fun k => { k with gens := d.2 }))

/-- CVT (R126, R129): FP32 to BF16 under RND, or BF16 to FP32, which is exact and draws nothing. -/
def vecCvt : VecAct := fun t n c i ty =>
  some (if ty = .bf16 then mapLanes t n c i (fun u r l => toF32 (bf16 (i.lane u ty .a r l)))
  else (List.range i.regs).foldl (fun u r =>
    let d := drawVector u n i.sr
    modStream d.2 n c (fun x => x.setV (i.vd + r) (mkReg (fun l =>
      encodeFp 7 (f32 (i.lane (stream t n c) ty .a r l)) (d.1.getD l none))))) t)

/-- The checks of CVTB (R126, R129, R122, R144, R147). -/
def cvtbOk (s : State) (i : Issued) (t : TD) : Bool :=
  let k1 := i.imm + 64 * i.regs
  (t.fmt == .f4b || t.fmt == .i8b) && aligned i.imm 32 &&
  trackOk s t i.ssrc (i.xr i.xi) k1 && t.rowOk (i.xr i.xi) i.imm k1

/-- CVTB performed (R100 to R102, R129): two blocks for each register. -/
def performCvtb (s : State) (n : Nat) (c : Ctx) (i : Issued) (t : TD) : State :=
  let r := (List.range i.regs).foldl (fun (a : State × Counts) r =>
    let d := drawVector a.1 n i.sr
    let v := (stream a.1 n c).vr (i.va + r)
    let ys := (v.toList.map (fun w => f32 w.toNat)).zip d.1
    (chunks 32 3 ys).zipIdx.foldl (fun (b : State × Counts) g =>
      let q := putConverted b.1 n t i.ssrc (i.xr i.xi) (i.imm + 64 * r + 32 * g.2) g.1
      (q.1, b.2.add q.2)) (d.2, a.2)) (s, Counts.none)
  modStream r.1 n c (fun u => u.noteCounts r.2)

/-- CVTB (R129). -/
def vecCvtb : VecAct := fun t n c i _ =>
  match readTD t n (i.xr i.xa) with
  | some d => if cvtbOk t i d then some (performCvtb t n c i d) else none
  | none => none

/-- An FP8 code as a value (R123). -/
def fp8Val (f : TFmt) (c : Nat) : Fv := if f = .e4m3 then e4m3 c else e5m2 c

/-- The checks of CVT8 (R126, R129, R144, R147). -/
def cvt8Ok (s : State) (i : Issued) (a d : TD) : Bool :=
  let m := i.xr i.xi
  (a.fmt == .e4m3 || a.fmt == .e5m2) && d.fmt == .i8b && a.k == d.k && decide (m < a.rows) && decide (m < d.rows) &&
  !i.ssrc && !tidReserved s a.tid && trackOk s d false m d.k && a.rowOk m 0 a.k && d.rowOk m 0 (roundUp d.k 32)

/-- One block of CVT8 (R87, R88, R129): its elements below K; the rest of the block is code 0. -/
def cvt8Block (s : State) (n : Nat) (i : Issued) (a d : TD) (b : Nat) : State × Counts :=
  let m := i.xr i.xi
  let cnt := min 32 (a.k - 32 * b)
  let g := drawLanes i.sr n ((List.range cnt).map (fun k => 32 * (b % 2) + k)) (cluster s n).gens
  let s1 := modCluster s n (fun k => { k with gens := g.2 })
  let ys := ((List.range cnt).map (fun k => fp8Val a.fmt (a.getCode s n m (32 * b + k)))).zip g.1
  let tr := trackingOf s1 d.tid
  let vs := ys.map (·.1)
  let sc := selectScale (amaxOf vs) .i8b (!d.s8)
  let o := convertBlock ys .i8b sc false
  let lossy := ((vs.zip o.codes).filter (fun p => p.1.isFin &&
    !(match p.1, elementValue .i8b p.2 sc with
      | .fin g x y, .fin h z w => x * w == z * y && (g == h || x == 0)
      | _, _ => false))).length
  let o' := { o with counts := { o.counts with lossy := lossy } }
  (recordBlock (d.putBlock s1 n m b (o.codes ++ List.replicate (32 - cnt) 0) sc) tr m (32 * b) vs o', o'.counts)

/-- CVT8 (R87, R126). -/
def vecCvt8 : VecAct := fun t n c i _ =>
  match readTD t n (i.xr i.xa), readTD t n (i.xr i.xe) with
  | some a, some d =>
    if cvt8Ok t i a d then
      let r := (List.range (ceilDiv a.k 32)).foldl (fun (x : State × Counts) b =>
        let q := cvt8Block x.1 n i a d b
        (q.1, x.2.add q.2)) (t, Counts.none)
      some (modStream r.1 n c (fun u => u.noteCounts r.2))
    else none
  | _, _ => none

/-! ### Reductions (R128) -/

/-- The lanes of the reduced registers. -/
def Issued.redRegs (i : Issued) (t : Stream) : List (List Nat) :=
  (List.range i.regs).map (fun r => (t.vr (i.va + r)).toList.map BitVec.toNat)

/-- The tree of REDSUM: six levels (R128). -/
def redTree : Nat → List Nat → Nat
  | 0, l => l.getD 0 0
  | f + 1, l => redTree f ((List.range (l.length / 2)).map (fun j => fadd (l.getD j 0) (l.getD (j + l.length / 2) 0)))

/-- REDSUM and REDSQ (R128). -/
def redSum (square : Bool) (rs : List (List Nat)) : Nat :=
  match rs with
  | [] => 0
  | v :: r =>
    let a := v.map (fun x => if square then fmul x x else x)
    redTree 6 (r.foldl (fun a w => (a.zip w).map (fun p => if square then ffma p.2 p.2 p.1 else fadd p.1 p.2)) a)

/-- REDMAX and REDMIN (R128): the winner and its index; ties keep the lowest. -/
def redPick (better : Nat → Nat → Bool) (rs : List (List Nat)) : Nat × Nat :=
  match rs.flatten.zipIdx with
  | [] => (0, 0)
  | p :: r => r.foldl (fun b q => if better q.1 b.1 then q else b) p

/-- A reduction writes X[XE] (R128). -/
def redInto (f : Issued → Stream → Nat) : VecAct := fun t n c i _ =>
  some (modStream t n c (fun u => u.setX i.xe (f i u)))

/-- REDSUM (R128). -/
def vecRedsum : VecAct := redInto (fun i t => redSum false (i.redRegs t))

/-- REDSQ (R128). -/
def vecRedsq : VecAct := redInto (fun i t => redSum true (i.redRegs t))

/-- Value and index of a winner in one scalar (R128). -/
def redWord (i : Issued) (p : Nat × Nat) : Nat := p.1 + 2 ^ 32 * ((i.xr i.xi + p.2) % 2 ^ 32)

/-- REDMAX (R128). -/
def vecRedmax : VecAct := redInto (fun i t => redWord i (redPick aboveMax (i.redRegs t)))

/-- REDMIN (R128). -/
def vecRedmin : VecAct := redInto (fun i t => redWord i (redPick belowMin (i.redRegs t)))

/-- BCAST (R126): X[XE] as it stood at issue. -/
def vecBcast : VecAct := fun t n c i _ => some (mapLanes t n c i (fun _ _ _ => i.xr i.xe % 2 ^ 32))

/-- XFER (R126). -/
def vecXfer : VecAct := fun t n c i _ =>
  some (modStream t n c (fun u => u.setX i.xe (vgetD (u.vr i.va) (i.imm % 64) 0).toNat))

/-! ### The vector unit's queue (R113) -/

/-- The operation of a code (R126). -/
def vecAct (op : Nat) : VecAct :=
  match op with
  | 0x00 => vecAdd
  | 0x01 => vecSub
  | 0x02 => vecMul
  | 0x03 => vecFma
  | 0x04 => vecMax
  | 0x05 => vecMin
  | 0x06 => vecDiv
  | 0x07 => vecRcp
  | 0x08 => vecRsqrt
  | 0x09 => vecExp2
  | 0x0A => vecLog2
  | 0x0B => vecDot2
  | 0x0C => vecLd
  | 0x0D => vecSt
  | 0x0E => vecCvt
  | 0x0F => vecCvtb
  | 0x10 => vecCvt8
  | 0x11 => vecRedsum
  | 0x12 => vecRedsq
  | 0x13 => vecRedmax
  | 0x14 => vecRedmin
  | 0x15 => vecBcast
  | _ => vecXfer

/-- A VEC instruction performed (R126): its type and its register ranges are checked, then it acts; a fault of it is found after
issue and has changed nothing (R117). -/
def performVec (s : State) (n : Nat) (c : Ctx) (i : Issued) : State :=
  let op := insOp i.w
  let bad := noteFault s n c (keptWhole i) .badParam false
  match vtypOf (i.f 0 21 20) with
  | none => bad
  | some ty =>
    if !(vecTypes op).contains ty || !vrangesOk i then bad else
    match vecAct op s n c i ty with
    | some u => u
    | none => bad

/-- A conversion into a tracked tensor waits for a pending commit (R149). -/
def vecHeld (s : State) (n : Nat) (i : Issued) : Bool :=
  let held := fun x => match readTD s n (i.xr x) with
    | some t => trackedHeld s t.tid
    | none => false
  match insOp i.w with
  | 0x0F => held i.xa
  | 0x10 => held i.xe
  | _ => false

/-- The vector unit takes what it can from its queue, in order: entries of a context with a fault wait to be returned (R117), and
a conversion that is held keeps every later entry waiting. -/
def runVec : Nat → State → Nat → State
  | 0, s, _ => s
  | f + 1, s, n =>
    if !clusterLive s n then s else
    match (cluster s n).vecq.find? (fun p => (stream s n p.1).fault.isNone) with
    | none => s
    | some p =>
      if vecHeld s n p.2 then s else
      runVec f (performVec (modCluster s n (fun k => { k with vecq := k.vecq.filter (· ≠ p) })) n p.1 p.2) n

/-- One issue of a VEC instruction (R113): it enters the vector unit's queue of 8 and, with nothing to wait for, is performed at
once. -/
def vecIssue (n : Nat) (c : Ctx) (op : Nat) (s : State) : State :=
  issue s n c 1 op (fun t i _ =>
    if 8 ≤ (cluster t n).vecq.length then .hold
    else .done (runVec 9 (modCluster t n (fun k => { k with vecq := k.vecq ++ [(c, i)] })) n))

/-- The conversions that a commit has held go on (R149). -/
def resumeVec (s : State) : State := s.clusters.foldl (fun t e => runVec 9 t e.1) s

/-! ### The rows (R126) -/

/-- VEC_ADD: `vecAdd`. -/
def execVecAdd (n : Nat) (c : Ctx) (s : State) : Host.Outcome State Fault Refusal := .next (vecIssue n c 0x00 s)

/-- VEC_SUB: `vecSub`. -/
def execVecSub (n : Nat) (c : Ctx) (s : State) : Host.Outcome State Fault Refusal := .next (vecIssue n c 0x01 s)

/-- VEC_MUL: `vecMul`. -/
def execVecMul (n : Nat) (c : Ctx) (s : State) : Host.Outcome State Fault Refusal := .next (vecIssue n c 0x02 s)

/-- VEC_FMA: `vecFma`. -/
def execVecFma (n : Nat) (c : Ctx) (s : State) : Host.Outcome State Fault Refusal := .next (vecIssue n c 0x03 s)

/-- VEC_MAX: `vecMax`. -/
def execVecMax (n : Nat) (c : Ctx) (s : State) : Host.Outcome State Fault Refusal := .next (vecIssue n c 0x04 s)

/-- VEC_MIN: `vecMin`. -/
def execVecMin (n : Nat) (c : Ctx) (s : State) : Host.Outcome State Fault Refusal := .next (vecIssue n c 0x05 s)

/-- VEC_DIV: `vecDiv`. -/
def execVecDiv (n : Nat) (c : Ctx) (s : State) : Host.Outcome State Fault Refusal := .next (vecIssue n c 0x06 s)

/-- VEC_RCP: `vecRcp`. -/
def execVecRcp (n : Nat) (c : Ctx) (s : State) : Host.Outcome State Fault Refusal := .next (vecIssue n c 0x07 s)

/-- VEC_RSQRT: `vecRsqrt`. -/
def execVecRsqrt (n : Nat) (c : Ctx) (s : State) : Host.Outcome State Fault Refusal := .next (vecIssue n c 0x08 s)

/-- VEC_EXP2: `vecExp2`. -/
def execVecExp2 (n : Nat) (c : Ctx) (s : State) : Host.Outcome State Fault Refusal := .next (vecIssue n c 0x09 s)

/-- VEC_LOG2: `vecLog2`. -/
def execVecLog2 (n : Nat) (c : Ctx) (s : State) : Host.Outcome State Fault Refusal := .next (vecIssue n c 0x0A s)

/-- VEC_DOT2: `vecDot2`. -/
def execVecDot2 (n : Nat) (c : Ctx) (s : State) : Host.Outcome State Fault Refusal := .next (vecIssue n c 0x0B s)

/-- VEC_LD: `vecLd`. -/
def execVecLd (n : Nat) (c : Ctx) (s : State) : Host.Outcome State Fault Refusal := .next (vecIssue n c 0x0C s)

/-- VEC_ST: `vecSt`. -/
def execVecSt (n : Nat) (c : Ctx) (s : State) : Host.Outcome State Fault Refusal := .next (vecIssue n c 0x0D s)

/-- VEC_CVT: `vecCvt`. -/
def execVecCvt (n : Nat) (c : Ctx) (s : State) : Host.Outcome State Fault Refusal := .next (vecIssue n c 0x0E s)

/-- VEC_CVTB: `vecCvtb`. -/
def execVecCvtb (n : Nat) (c : Ctx) (s : State) : Host.Outcome State Fault Refusal := .next (vecIssue n c 0x0F s)

/-- VEC_CVT8: `vecCvt8`. -/
def execVecCvt8 (n : Nat) (c : Ctx) (s : State) : Host.Outcome State Fault Refusal := .next (vecIssue n c 0x10 s)

/-- VEC_REDSUM: `vecRedsum`. -/
def execVecRedsum (n : Nat) (c : Ctx) (s : State) : Host.Outcome State Fault Refusal := .next (vecIssue n c 0x11 s)

/-- VEC_REDSQ: `vecRedsq`. -/
def execVecRedsq (n : Nat) (c : Ctx) (s : State) : Host.Outcome State Fault Refusal := .next (vecIssue n c 0x12 s)

/-- VEC_REDMAX: `vecRedmax`. -/
def execVecRedmax (n : Nat) (c : Ctx) (s : State) : Host.Outcome State Fault Refusal := .next (vecIssue n c 0x13 s)

/-- VEC_REDMIN: `vecRedmin`. -/
def execVecRedmin (n : Nat) (c : Ctx) (s : State) : Host.Outcome State Fault Refusal := .next (vecIssue n c 0x14 s)

/-- VEC_BCAST: `vecBcast`. -/
def execVecBcast (n : Nat) (c : Ctx) (s : State) : Host.Outcome State Fault Refusal := .next (vecIssue n c 0x15 s)

/-- VEC_XFER: `vecXfer`. -/
def execVecXfer (n : Nat) (c : Ctx) (s : State) : Host.Outcome State Fault Refusal := .next (vecIssue n c 0x16 s)

end Sys2Proof.Machine
end

