-- ==== Sys2Proof/Machine/StepCmd.lean ====
section
/-! DEFINITION. The training step (R203): latching tables (R179), the commit of a step (R195, R255, R369), and preconditioner
refreshes (R191 to R193). -/

namespace Sys2Proof.Machine

/-- The update block changed. -/
def modUpd (s : State) (f : Upd → Upd) : State := { s with upd := f s.upd }

/-- The memory block changed. -/
def modMem (s : State) (f : MemBlk → MemBlk) : State := { s with memblk := f s.memblk }

/-! ### The latch of the update tables (R174, R176, R179) -/

/-- A curve of a group: 16 B aligned, in the stack linear view outside the stack reserve (R245), with 1 to 256 points (R176, R179). -/
def curveOk (a n : Nat) : Bool :=
  aligned a 16 && decide (1 ≤ n) && decide (n ≤ 256) && decide (a + 16 * n ≤ linearEnd) && !meetsReserve a (16 * n)

/-- The words of a group entry that its rule does not use (R176). -/
def unusedWords (r : URule) : List Nat :=
  match r with
  | .m => [2, 3, 4, 5, 6, 7]
  | .a => [4, 5, 6, 7]
  | .o => [2, 3, 5, 6, 7]
  | .k => [2, 3]

/-- A VALID group entry from its words; none when the latch rejects it (R176, R179). DESIGN CHOICE (log entry 47): a word that the rule
does not use and that is not 0 counts as a reserved value. -/
def parseGroup (w : Nat → Nat) : Option Group :=
  let r : URule := match bits (w 0) 29 28 with
    | 0 => .m
    | 1 => .a
    | 2 => .o
    | _ => .k
  let g : Group := {
    rule := r, clipx := bit (w 0) 27, tracked := bit (w 0) 26, b1 := BitVec.ofNat 32 (w 1), b2 := BitVec.ofNat 32 (w 2),
    eps := BitVec.ofNat 32 (w 3), gain := BitVec.ofNat 32 (w 4), kbeta := BitVec.ofNat 32 (w 5),
    keps := BitVec.ofNat 32 (w 6), kperiod := BitVec.ofNat 16 (w 7 / 65536), kiter := BitVec.ofNat 8 (w 7),
    lrCurve := w 8 + 2 ^ 32 * w 9, wdCurve := w 10 + 2 ^ 32 * w 11, lrPoints := bits (w 12) 8 0,
    wdPoints := bits (w 12) 24 16 }
  if (unusedWords r).all (fun i => w i == 0) && curveOk g.lrCurve g.lrPoints && curveOk g.wdCurve g.wdPoints &&
      (r != .k || (decide (1 ≤ g.kiter.toNat) && decide (g.kiter.toNat ≤ 32))) then some g else none

/-- A VALID tensor entry from its words; none when the latch rejects it (R174, R179). Without a VALID group its rule is
unknown, and only what no rule decides is checked. DESIGN CHOICE (log entry 47): beside what R179 lists, a REGION that is misaligned,
outside the view of DIE or in the stack reserve, a misaligned mask, and a KSTATE that is misaligned or outside the stacks are
rejected; a KSTATE in another die's stacks, which R25 and R179 leave open, is accepted, and panel service works there. -/
def parseTensor (s : State) (idx : Nat) (w : Nat → Nat) (g : Option Group) : Option Tensor :=
  let rule := g.map (fun x => x.rule)
  let t : Tensor := {
    idx := idx, group := bits (w 0) 27 16, die := Fin.ofNat 4 (w 0), kb := bits (w 1) 15 0, nb := bits (w 1) 31 16,
    pkt := bits (w 2) 9 5 + 1, pnt := bits (w 2) 4 0 + 1, region := w 3 + 2 ^ 32 * w 4, freeze := w 5 + 2 ^ 32 * w 6,
    kstate := w 7 + 2 ^ 32 * w 8, tid := BitVec.ofNat 16 (w 9) }
  let view := viewBase + t.die.val * viewStride
  let tidOk := match trackingOf s t.tid.toNat with
    | .reserved => false
    | .untracked => true
    | .tracked _ c => cfgFmt c == some .f4b && !cfgS8 c
  if t.kb != 0 && t.nb != 0 && aligned t.region 16384 && decide (view ≤ t.region) &&
      decide (t.region + (match rule with
        | some r => 4 * shareLen r t.t0
        | none => 1) ≤ view + 0x5FF0000000) &&
      (t.freeze == 0 || (aligned t.freeze 8 && decide (t.freeze + 4 * t.tiles ≤ linearEnd) && !meetsReserve t.freeze (4 * t.tiles))) &&
      (rule != some .k || (aligned t.kstate 4096 && (place t.kstate).isStack && !meetsReserve t.kstate (t.recAt t.panels - t.kstate))) &&
      tidOk then some t else none

/-- The images of a GROUP_TABLE_LOAD copied to the working area at UPD_AREA_BASE (R179): the group table at its base and the
tensor list 512 KiB above it (log entry 47). -/
def copyTables (s : State) (ga ta : W64) (n : W32) : State :=
  let b := s.upd.areaBase.toNat
  wrBytes (wrBytes s b (rdBytes s ga.toNat 0x80000)) (b + 0x80000) (rdBytes s ta.toNat (64 * n.toNat))

/-- The refresh of a group that the new table does not hold as a VALID K group is cancelled at the latch. DESIGN CHOICE (log
entry 58): R191 and R192 give such a refresh no end. -/
def cancelDropped (s : State) (groups : Assoc Group) : State :=
  (s.upd.refreshing.filter (fun gi => match look groups gi with
    | some g => g.rule != .k
    | none => true)).foldl cancelRefresh s

/-- The latch of a pending GROUP_TABLE_LOAD at STEP_BEGIN (R179); whether it changed the tables. A rejected entry is counted
also when its group is not VALID. -/
def latchTables (s : State) : State × Bool :=
  match s.upd.load with
  | none => (s, false)
  | some (ga, ta, n) =>
    let gw := fun (i k : Nat) => rdNat s (ga.toNat + 128 * i + 4 * k) 4
    let tw := fun (i k : Nat) => rdNat s (ta.toNat + 64 * i + 4 * k) 4
    let gv := (List.range 4096).filter (fun i => bit (gw i 0) 31)
    let groups := gv.filterMap (fun i => (parseGroup (gw i)).map (fun g => (i, g)))
    let tv := (List.range n.toNat).filter (fun i => bit (tw i 0) 31)
    let ok := tv.filterMap (fun i => parseTensor s i (tw i) (look groups (bits (tw i 0) 27 16)))
    let tensors := ok.filter (fun t => (look groups t.group).isSome)
    let rej := (gv.length - groups.length) + (tv.length - ok.length)
    let fresh := groups.filter (fun e => (look s.upd.groups e.1).isNone)
    let gst := (s.upd.gstate.filter (fun e => (look groups e.1).isSome))
    (modUpd (copyTables (cancelDropped s groups) ga ta n) (fun u => { u with
      load := none
      groups := groups
      tensors := tensors
      rejected := rej
      gstate := fresh.foldl (fun a e => put a e.1 GState.start) gst
      kNew := (u.kNew.filter (fun i => (look groups i).isSome)) ++ (fresh.filter (fun e => e.2.rule == .k)).map (·.1) }),
     groups != s.upd.groups || tensors != s.upd.tensors)

/-! ### The commit (R195, R191, R255) -/

/-- A pass that ended DONE and was not skipped awaits the commit. -/
def passToCommit (s : State) : Option Pass :=
  match s.upd.pass with
  | some p => if s.upd.phase = 4 ∧ !p.skipped then some p else none
  | none => none

/-- What a commit of epoch `e` writes for one group (R177, R191, R195). -/
def commitGroup (s : State) (e : Nat) (p : Pass) (gi : Nat) (g : Group) : State :=
  let st := groupState s gi
  match look p.scalars gi with
  | none => s
  | some sc =>
    let isNew := s.upd.kNew.contains gi
    let n := nextGState g st sc isNew e
    let s1 := wrBytes (modUpd s (fun u => { u with gstate := del u.gstate gi })) (gstateAt s gi) (gstateBytes n)
    if switchesAt g st isNew e then
      modUpd (copyStats s1 gi (!n.rootSlot)) (fun u => { u with
        kNew := u.kNew.filter (· != gi)
        refreshing := insertNat u.refreshing gi })
    else s1

/-- The update part of a commit of epoch `e` after a pass (R195): group states, the compute-copy flip, the switches and
the digest registers. -/
def commitUpdate (s : State) (e : Nat) (p : Pass) : State :=
  let s1 := s.upd.groups.foldl (fun t x => commitGroup t e p x.1 x.2) s
  modUpd s1 (fun u => { u with
    ccActive := !u.ccActive
    digestLo := p.digest.extractLsb' 0 64
    digestHi := p.digest.extractLsb' 64 64
    digestEpoch := BitVec.ofNat 64 e })

/-- A group whose running refresh the commit of epoch `e` must wait for (R191). -/
def waitsRefresh (s : State) (e : Nat) : Bool :=
  (passToCommit s).isSome && s.upd.groups.any (fun x =>
    s.upd.refreshing.contains x.1 && !s.upd.kNew.contains x.1 &&
    switchesAt x.2 (groupState s x.1) false e)

/-- The digest that the step in progress commits: 0 for a skipped pass or a step without one (R194, R357). -/
def stepDigest (s : State) : W128 :=
  match passToCommit s with
  | some p => p.digest
  | none => 0

/-- Held exchange records whose epoch is below the new epoch in progress are dropped and counted, as R236 drops one that
arrives (log entry 52). -/
def dropBelow (s : State) : State :=
  let old := s.exch.early.filter (fun p => decide (p.1.epoch.toNat < (s.memblk.epoch + 1).toNat))
  { s with exch := { s.exch with
    cntStale := satAdd s.exch.cntStale old.length
    early := s.exch.early.filter (fun p => !decide (p.1.epoch.toNat < (s.memblk.epoch + 1).toNat)) } }

/-- The logs keep the last four committed steps (R239, R370). -/
def trimLogs (s : State) : State :=
  { modTwin s (fun t => { t with log := t.log.take 4 }) with exch := { s.exch with log := s.exch.log.take 4 } }

/-- The commit instant of a step (R255), and the end of its STEP_COMMIT; the conversions that it held go on (R149). -/
def commitNow (s : State) (o : LongOp) : State :=
  let e := s.memblk.epoch.toNat + 1
  let d := stepDigest s
  let s1 := match passToCommit s with
    | some p => commitUpdate s e p
    | none => s
  let s2 := guardCommit s1 e
  let s3 := modUpd (modMem s2 (fun m => { m with epoch := BitVec.ofNat 64 e, hold := false, stepOn := false }))
    (fun u => { u with phase := 0, pass := none, passHad := false,
                       history := ((BitVec.ofNat 64 e, d) :: u.history).take 4 })
  let s4 := { modTwin (trimLogs (dropBelow s3)) (fun t => { t with own := none, held := none, waitFrom := none }) with
    dies := s3.dies.map (fun k => { k with due := k.due ++ k.pending, pending := [] }) }
  resumeVec (endLong s4 o .done (leBytes 8 e ++ leBytes 16 d.toNat))

/-- A STEP_COMMIT meets a different digest of the twin (R369). -/
def commitMismatch (s : State) (o : LongOp) : State :=
  let s1 := modMem s (fun m => { m with failed := true, hold := false })
  let s2 := setTwin (modTwin s1 (fun t => { t with cntMismatch := satAdd t.cntMismatch 1, waitFrom := none })) 3 0
  resumeVec (endLong s2 o .digestMismatch [])

/-- The twin's digest for the epoch being built, if Solder holds it (R369). -/
def heldDigest (s : State) : Option W128 :=
  match s.twin.held with
  | some (e, d) => if e = s.memblk.epoch + 1 then some d else none
  | none => none

/-- An accepted STEP_COMMIT completes as soon as nothing keeps it: the comparison in PAIRED (R369), then a running refresh
of a switching group (R191). -/
def tryCommit (s : State) : State :=
  match findLong s (fun k => match k with
    | .stepCommit _ => true
    | _ => false) with
  | none => s
  | some o =>
    let go := fun (t : State) => if waitsRefresh t (t.memblk.epoch.toNat + 1) then t else commitNow t o
    if s.twin.st = 2 then
      match heldDigest s with
      | none => if s.twin.waitFrom.isSome then s else modTwin s (fun t => { t with waitFrom := some s.inv.clk })
      | some d =>
        let own := stepDigest s
        let s1 := modTwin s (fun t => { t with orig := own, peer := d, epoch := s.memblk.epoch + 1 })
        if d ≠ own then commitMismatch s1 o
        else if waitsRefresh s1 (s1.memblk.epoch.toNat + 1) then s1
        else commitNow (modTwin s1 (fun t => { t with cntMatch := satAdd t.cntMatch 1 })) o
    else go s

/-! ### STEP_BEGIN, STEP_COMMIT (R357) -/

/-- The exchange log opens a step (R239). -/
def exchLogBegin (s : State) : State :=
  { s with exch := { s.exch with
    log := { epoch := s.memblk.epoch + 1, records := [], bytes := 0, logged := s.exch.logSize != 0 } :: s.exch.log.take 4 } }

/-- The effects of an accepted STEP_BEGIN: the latches of phase 1 of R203, the account of R264 and the logs. -/
def beginStep (s : State) : State :=
  let r := latchTables (guardLatch s)
  let s1 := modMem r.1 (fun m => { m with stepOn := true })
  let s2 := { s1 with dies := Vector.ofFn (fun (k : Fin 4) => { s1.dies[k] with acctGather := BitVec.ofNat 64 (acctFree s1 k.val) }) }
  exchLogBegin (logBegin s2 (if r.2 then s.upd.load else none))

/-- STEP_BEGIN (R357, R146, R179, R264, R381). -/
def doStepBegin (h : CmdHdr) (epoch : W64) (s : State) : State :=
  if epoch ≠ s.memblk.epoch ∨ s.memblk.stepOn then answer s h 0x0401 .badParam
  else if s.memblk.failed then answer s h 0x0401 .degraded
  else if anyFenced s then answer s h 0x0401 .dieLost
  else answer (beginStep s) h 0x0401 .done

/-- STEP_BEGIN (R357). -/
def execStepBegin (h : CmdHdr) (epoch : W64) (s : State) : Host.Outcome State Fault Refusal :=
  .next (cmdStart (.stepBegin h epoch) h 0x0401 (doStepBegin h epoch) s)

/-- The status that turns a STEP_COMMIT away (R357, R196, R197, R258, R366); none: accepted. A second one while one is
pending is BUSY. -/
def commitRefused (s : State) (epoch : W64) : Option Status :=
  if epoch ≠ s.memblk.epoch + 1 ∨ !s.memblk.stepOn then some .badParam
  else if passRuns s || commitPending s || s.twin.st == 1 || s.ckpt.replaying.isSome then some .busy
  else if anyFenced s then some .dieLost
  else if s.memblk.failed || s.twin.st == 3 then some .degraded
  else none

/-- An accepted STEP_COMMIT: without a pass Solder sends a DIGEST of 0 (R369); it is a long operation only while something
keeps it. -/
def acceptCommit (h : CmdHdr) (epoch : W64) (s : State) : State :=
  let s1 := startLong (if s.upd.pass.isSome then s else sendSolder s 1 epoch 0) h 0x0402 (.stepCommit epoch)
  let s2 := tryCommit s1
  if commitPending s2 then reply s2 h 0x0402 .inProgress [] else s2

/-- STEP_COMMIT (R357). -/
def doStepCommit (h : CmdHdr) (epoch : W64) (s : State) : State :=
  match commitRefused s epoch with
  | some st => answer s h 0x0402 st
  | none => acceptCommit h epoch s

/-- STEP_COMMIT (R357). -/
def execStepCommit (h : CmdHdr) (epoch : W64) (s : State) : Host.Outcome State Fault Refusal :=
  .next (cmdStart (.stepCommit h epoch) h 0x0402 (doStepCommit h epoch) s)

/-! ### Tables and refreshes -/

/-- An image of a table lies in stack memory. -/
def stackImage (a n : Nat) : Bool := (pages a n).all (fun p => (place p).isStack)

/-- GROUP_TABLE_LOAD (R179, R357): images in the stack reserve are DENIED (R245). -/
def doGroupTableLoad (h : CmdHdr) (groups tensors : W64) (n : W32) (s : State) : State :=
  if 65535 < n.toNat ∨ !stackImage groups.toNat 0x80000 ∨ !stackImage tensors.toNat (64 * n.toNat) then
    answer s h 0x0406 .badParam
  else if meetsReserve groups.toNat 0x80000 ∨ meetsReserve tensors.toNat (64 * n.toNat) then
    answer (noteAccess s .denied) h 0x0406 .denied
  else answer (modUpd s (fun u => { u with load := some (groups, tensors, n) })) h 0x0406 .done

/-- GROUP_TABLE_LOAD (R179). -/
def execGroupTableLoad (h : CmdHdr) (groups tensors : W64) (tcount : W32) (s : State) : Host.Outcome State Fault Refusal :=
  .next (cmdStart (.groupTableLoad h groups tensors tcount) h 0x0406 (doGroupTableLoad h groups tensors tcount) s)

/-- PRECOND_REFRESH (R193): a running refresh is discarded, the committed statistics are copied into the inactive root
slot, a refresh starts on them, and NEXT_SWITCH is the epoch named. -/
def doPrecondRefresh (h : CmdHdr) (group : W16) (e : W64) (s : State) : State :=
  let gi := group.toNat
  match look s.upd.groups gi with
  | some g =>
    if g.rule ≠ .k ∨ s.memblk.stepOn ∨ e.toNat ≤ s.memblk.epoch.toNat then answer s h 0x0407 .badParam else
    let st := groupState s gi
    answer (modUpd (copyStats (cancelRefresh s gi) gi (!st.rootSlot)) (fun u => { u with
      refreshing := insertNat u.refreshing gi
      gstate := put u.gstate gi { st with nextSwitch := e } })) h 0x0407 .done
  | none => answer s h 0x0407 .badParam

/-- PRECOND_REFRESH (R193). -/
def execPrecondRefresh (h : CmdHdr) (group : W16) (e : W64) (s : State) : Host.Outcome State Fault Refusal :=
  .next (cmdStart (.precondRefresh h group e) h 0x0407 (doPrecondRefresh h group e) s)

/-- A group's refresh stands still: a cluster that it runs on has a live stream (R192), or UPD_REFRESH_CLUSTERS gives it none, so that it
never completes and a commit that waits for it stays IN_PROGRESS (DESIGN CHOICE, log entry 94). -/
def refreshHeld (s : State) (gi : Nat) : Bool :=
  s.upd.refreshClusters = 0 ||
  anyStream s (fun n t => streamRuns t && decide (1024 - s.upd.refreshClusters.toNat ≤ n % 1024) &&
    s.upd.tensors.any (fun x => x.group == gi && x.die.val == n / 1024))

/-- PRECOND_REFRESH_DONE (R192): a running refresh ends, with the roots in the inactive slot; a commit that waited for it
goes on (R191). -/
def execPrecondRefreshDone (group : Nat) (s : State) : Host.Outcome State Fault Refusal :=
  .next (match look s.upd.groups group with
    | some g =>
      if s.upd.refreshing.contains group && clocksOn s && !refreshHeld s group then
        let slot := !(groupState s group).rootSlot
        tryCommit (modUpd (refreshGroup s group g slot) (fun u => { u with refreshing := u.refreshing.filter (· != group) }))
      else s
    | none => s)

end Sys2Proof.Machine
end

