-- ==== Sys2Proof/Machine/Syn.lean ====
section
/-! DEFINITION. SYN instructions (R132), waiting (R322), monitors (R324), orphans (R328, R329) and barriers within the
package (R285, R330). -/

namespace Sys2Proof.Machine

/-! ### Results of SYN operations (R132) -/

/-- XS and TOL of a SYN instruction (R132, R116). -/
def Issued.xs (i : Issued) : Nat := i.f 0 11 8
def Issued.tol (i : Issued) : Bool := i.f 0 22 22 == 1
/-- The operand X[XV] + IMM of a SYN instruction (R132). -/
def Issued.synOp (i : Issued) : Nat := wrap 64 ((i.xr (i.f 0 7 4) : Nat) + sext 32 (i.f 1 31 0))

/-- A SYN operation completes (R132): the observed value and C, a tolerated error, or a fault of the instruction. -/
def synResult (s : State) (n : Nat) (c : Ctx) (i : Issued) (st : Status) (v : Nat) : State :=
  match st with
  | .done => modStream s n c (fun t => { t with c := true }.setX i.xs (v % 2 ^ 63))
  | .retry => modStream s n c (fun t => { t with c := false }.setX i.xs (v % 2 ^ 63))
  | e =>
    if i.tol then modStream s n c (fun t => { t with c := false }.setX i.xs (statusCode e))
    else noteFault s n c (keptWhole i) e false

/-- The SYN operation in progress of a context ends. -/
def synEnd (s : State) (n : Nat) (c : Ctx) (st : Status) (v : Nat) : State :=
  match (stream s n c).blocked with
  | none => s
  | some i =>
    synResult (dropWaits (modStream s n c (fun t => { t with block := .none, blocked := none })) n c) n c i st v

/-- A SYN instruction of a context is in progress and waits: for its word, its channel, or the answer of another package. -/
def blockOn (s : State) (n : Nat) (c : Ctx) (i : Issued) (b : Block) : State :=
  modStream s n c (fun t => { t with block := b, blocked := some i })

/-! ### Addresses (R32, R132) -/

/-- Where a SYN operation goes: a local address, or another package. -/
inductive SynTarget where
  | here (a : Nat)
  | away (pkg : Nat) (a : Nat)
  deriving DecidableEq, Repr

/-- The word that a SYN instruction names. -/
def synTarget (s : State) (i : Issued) : SynTarget :=
  let x := i.xr (i.f 0 3 0)
  if i.f 2 31 31 = 1 then .here x else
  match localOf s (BitVec.ofNat 64 x) with
  | some a => .here a
  | none => .away (x / 2 ^ 48) (x % 2 ^ 48)

/-- The 16 bytes of a SYNC request (R321). -/
def syncPayload (sop n : Nat) (notify : W64) : List Byte :=
  wordsBytes [n % 2 ^ 32, fieldAt sop 4 28 + n / 2 ^ 32 % 2 ^ 16] ++ leBytes 8 notify.toNat

/-- The SYN requests of a context whose answers it no longer awaits: their answers are dropped (R322). -/
def forgetSyn (s : State) (n : Nat) (c : Ctx) : State :=
  let drop := fun (w : TxnFor) => if w = .syn n c then TxnFor.add else w
  { s with fab := { s.fab with
    txns := s.fab.txns.map (fun t => { t with what := drop t.what })
    waitq := s.fab.waitq.map (fun t => { t with what := drop t.what }) } }

/-- A SYNC request to another package leaves, and its context blocks for the answer (R322). A local notification word
travels as the global address of this package. -/
def synAway (s : State) (n : Nat) (c : Ctx) (i : Issued) (pkg a sop v : Nat) (notify : Bool × W64) : State :=
  let g : W64 := if notify.1 then s.pkgId ++ notify.2.setWidth 48 else notify.2
  blockOn (sendReq (forgetSyn s n c) (mkReq (BitVec.ofNat 16 pkg) 0 2 a 16 (syncPayload sop v g)) (.syn n c)) n c i .remote

/-- A SYN operation other than WAIT and BAR begins: its operand is checked first (R320). -/
def synPerform (s : State) (n : Nat) (c : Ctx) (i : Issued) (sop v : Nat) (notify : Bool × W64) : State :=
  if 2 ^ 48 ≤ v then synResult s n c i .badParam 0 else
  match synTarget s i with
  | .here a =>
    let r := ownSync s n a sop v notify
    synResult r.1 n c i r.2.1 r.2.2
  | .away p a => synAway s n c i p a sop v notify

/-- A WAIT on a word of the package that does not hold registers in the word's watch table, or polls when the table is
full (R322). -/
def synWaitHere (s : State) (n : Nat) (c : Ctx) (i : Issued) (a : Nat) : State :=
  let r := ownSync s n a 3 i.synOp (false, 0)
  if r.2.1 ≠ .retry then synResult r.1 n c i r.2.1 r.2.2 else
  let aw : Addr48 := BitVec.ofNat 48 a
  let nw : Addr48 := BitVec.ofNat 48 i.synOp
  if watchUsed r.1 a < watchSize a then
    blockOn { r.1 with sync := { r.1.sync with waiters := r.1.sync.waiters ++ [{ addr := aw, n := nw, cl := n, c := c }] } }
      n c i (.wait aw nw)
  else blockOn r.1 n c i (.poll aw nw)

/-- A barrier channel. -/
def barrier (s : State) (ch : Nat) : Barrier := vgetD s.sync.barriers ch Barrier.reset

/-- The state with a channel changed. -/
def modBarrier (s : State) (ch : Nat) (f : Barrier → Barrier) : State :=
  { s with sync := { s.sync with barriers := vmod s.sync.barriers ch f } }

/-- ADD (R132, R320). -/
def synAdd (s : State) (n : Nat) (c : Ctx) (i : Issued) : State := synPerform s n c i 0 i.synOp (false, 0)

/-- DEC (R132, R320). -/
def synDec (s : State) (n : Nat) (c : Ctx) (i : Issued) : State := synPerform s n c i 1 i.synOp (false, 0)

/-- TAKE (R320, R323): it takes no operand. -/
def synTake (s : State) (n : Nat) (c : Ctx) (i : Issued) : State := synPerform s n c i 2 0 (false, 0)

/-- WAIT (R132, R322). -/
def synWait (s : State) (n : Nat) (c : Ctx) (i : Issued) : State :=
  if 2 ^ 48 ≤ i.synOp then synResult s n c i .badParam 0 else
  match synTarget s i with
  | .here a => synWaitHere s n c i a
  | .away p a => synAway s n c i p a 3 i.synOp (false, 0)

/-- MONITOR (R324, R132): it notifies X[XN]. -/
def synMonitor (s : State) (n : Nat) (c : Ctx) (i : Issued) : State :=
  synPerform s n c i 4 i.synOp (i.f 2 31 31 == 1, BitVec.ofNat 64 (i.xr (i.f 2 3 0)))

/-- BAR (R330): the cluster's tap arrives, and the context blocks until the channel releases. -/
def synBar (s : State) (n : Nat) (c : Ctx) (i : Issued) : State :=
  let ch := i.f 0 15 12
  blockOn (modBarrier s ch (fun b => { b with arrived := insertNat b.arrived n, waiting := b.waiting ++ [(n, c)] }))
    n c i (.bar (Fin.ofNat 16 ch))

/-- A SYN instruction begins (R132). -/
def synBegin (s : State) (n : Nat) (c : Ctx) (i : Issued) : State :=
  match insOp i.w with
  | 0 => synAdd s n c i
  | 1 => synDec s n c i
  | 2 => synTake s n c i
  | 3 => synWait s n c i
  | 4 => synMonitor s n c i
  | _ => synBar s n c i

/-- A SYN instruction waits for an edge that trains on the way to its word (R276). -/
def synHeld (s : State) (n : Nat) (i : Issued) : Bool :=
  insOp i.w != 5 && (match synTarget s i with
    | .here a => trainHolds s n a 8
    | .away _ _ => false)

/-- The sync unit takes the next instructions of a context's queue, in order, while none of them waits and none has faulted
(R113). -/
def synRun : Nat → State → Nat → Ctx → State
  | 0, s, _, _ => s
  | f + 1, s, n, c =>
    let t := stream s n c
    match t.block, t.fault, t.synq with
    | .none, none, i :: r =>
      if synHeld s n i then s else synRun f (synBegin (modStream s n c (fun u => { u with synq := r })) n c i) n c
    | _, _, _ => s

/-- The SYN operation in progress of a context ends, and the next of its queue begin. -/
def unblock (s : State) (n : Nat) (c : Ctx) (st : Status) (v : Nat) : State := synRun 5 (synEnd s n c st v) n c

/-- The sync units take up what waited for an edge (R276). -/
def resumeSyn (s : State) : State :=
  (s.clusters.map (·.1)).foldl (fun t n => [Ctx.fwd, .bin, .bwt, .svc].foldl (fun u c => synRun 5 u n c) t) s

/-- One issue of a SYN instruction (R113): it enters the sync unit's queue of 4 and, with none before it, begins at once. -/
def synIssue (n : Nat) (c : Ctx) (op : Nat) (s : State) : State :=
  issue s n c 3 op (fun t i _ =>
    if 4 ≤ (stream t n c).synq.length then .hold
    else .done (synRun 5 (modStream t n c (fun u => { u with synq := u.synq ++ [i] })) n c))

/-- SYN_ADD: `synAdd`. -/
def execSynAdd (n : Nat) (c : Ctx) (s : State) : Host.Outcome State Fault Refusal := .next (synIssue n c 0 s)

/-- SYN_DEC: `synDec`. -/
def execSynDec (n : Nat) (c : Ctx) (s : State) : Host.Outcome State Fault Refusal := .next (synIssue n c 1 s)

/-- SYN_TAKE: `synTake`. -/
def execSynTake (n : Nat) (c : Ctx) (s : State) : Host.Outcome State Fault Refusal := .next (synIssue n c 2 s)

/-- SYN_WAIT: `synWait`. -/
def execSynWait (n : Nat) (c : Ctx) (s : State) : Host.Outcome State Fault Refusal := .next (synIssue n c 3 s)

/-- SYN_MONITOR: `synMonitor`. -/
def execSynMonitor (n : Nat) (c : Ctx) (s : State) : Host.Outcome State Fault Refusal := .next (synIssue n c 4 s)

/-- SYN_BAR: `synBar`. -/
def execSynBar (n : Nat) (c : Ctx) (s : State) : Host.Outcome State Fault Refusal := .next (synIssue n c 5 s)

/-- The answer of another package to a SYNC request of a context (R322, R329): a WAIT below its threshold is asked again
after SYNC_POLL_NS. An answer to a WAIT that was abandoned is dropped. -/
def synAnswered (s : State) (n : Nat) (c : Ctx) (st : Status) (v : Nat) : State :=
  let t := stream s n c
  match t.block, t.blocked with
  | .remote, some i =>
    if insOp i.w = 3 ∧ (st = .retry ∨ (st = .done ∧ v < i.synOp)) then
      modStream s n c (fun t => { t with block := .remotePoll (s.inv.clk + s.sync.pollNs.setWidth 64) })
    else unblock s n c st v
  | _, _ => s

/-! ### Waking (R322, R329) -/

/-- What a waiter observes of its word: DONE at its threshold, an error that releases it, or RETRY. -/
def observe (s : State) (n a v : Nat) : Status × Nat :=
  let st := accessStatus s n a 8 .atomic
  if st ≠ .done then (st, 0)
  else if poisoned s a 8 then (.degraded, 0)
  else
    let w := rdNat s a 8
    if wordOrphan? w then (.ownerLost, 0)
    else (if v ≤ wordValue w then .done else .retry, wordValue w)

/-- A blocked waiter reads its word again (R322). A WAIT is the last of its context's queue, since the context issues nothing past it
(R132), so nothing begins behind it. -/
def wakeOne (s : State) (n : Nat) (c : Ctx) (a v : Nat) : State :=
  let r := observe s n a v
  if r.1 = .retry then s else synEnd (noteAccess s r.1) n c r.1 r.2

/-- Every registered waiter of a word reads it again (R322). -/
def wakeWord (s : State) (a : Nat) : State :=
  (s.sync.waiters.filter (fun w => sameWord w.addr.toNat a)).foldl
    (fun t w => wakeOne t w.cl w.c w.addr.toNat w.n.toNat) s

/-- Sync words of a line that became poisoned: their monitors are to fire and their waiters read again (R320, R324). -/
def wakeLine (s : State) (l : Nat) : State :=
  let inLine := fun (a : Addr48) => lineOf a.toNat == some l
  let s1 := ((s.sync.monitors.filter (fun m => inLine m.addr)).map (·.addr.toNat)).foldl markAllMonitors s
  ((s1.sync.waiters.filter (fun w => inLine w.addr)).map (·.addr.toNat)).dedup.foldl wakeWord s1

/-- The lines that a range touches become poisoned (R249), which their sync words show at once (R320, R324). -/
def spoilRange (s : State) (a n : Nat) : State :=
  ((linesOf a n).filter (fun l => !s.poison.contains l)).foldl wakeLine (poisonRange s a n)

/-- SYNC_WAIT_WAKE (R322): a change of a word wakes its waiters, whose clusters run. -/
def execSyncWaitWake (a : Addr48) (s : State) : Host.Outcome State Fault Refusal :=
  .next (if clocksOn s then wakeWord s a.toNat else s)

/-- SYNC_WATCH_POLL (R322): a waiter that found the watch table full reads the word again. A sync unit that no word keeps waiting takes
its next instruction. -/
def execSyncWatchPoll (n : Nat) (c : Ctx) (s : State) : Host.Outcome State Fault Refusal :=
  .next (if !clusterLive s n then s else
    match (stream s n c).block with
    | .poll a v => if trainHolds s n a.toNat 8 then s else wakeOne s n c a.toNat v.toNat
    | .none => synRun 5 s n c
    | _ => s)

/-- SYNC_REMOTE_POLL (R322): a remote WAIT is asked again once SYNC_POLL_NS has passed, as a new transaction. -/
def execSyncRemotePoll (n : Nat) (c : Ctx) (s : State) : Host.Outcome State Fault Refusal :=
  .next (if !clusterLive s n then s else
    match (stream s n c).block, (stream s n c).blocked with
    | .remotePoll due, some i =>
      if clk s < due.toNat then s else
      match synTarget s i with
      | .away p a => synAway s n c i p a 3 i.synOp (false, 0)
      | .here a => synWaitHere (modStream s n c (fun t => { t with block := .none, blocked := none })) n c i a
    | _, _ => s)

/-- The notification of a monitor (R324): an ADD of 1 under the master that armed it; refused, it is discarded. -/
def notifyMonitor (s : State) (m : Monitor) : State :=
  if m.notifyLocal then (ownAdd s m.master.toNat m.notify.toNat 1).1
  else (globalAdd s m.master.toNat m.notify 1 .add).1

/-- The monitors of some words that are due make their ADDs and are disarmed (R324). -/
def fireMonitors (s : State) (p : Addr48 → Bool) : State :=
  (s.sync.monitors.filter (fun m => m.due && p m.addr)).foldl notifyMonitor
    { s with sync := { s.sync with monitors := s.sync.monitors.filter (fun m => !(m.due && p m.addr)) } }

/-- MONITOR_FIRE (R324): every monitor of a word that is due makes its ADD and is disarmed. -/
def execMonitorFire (a : Addr48) (s : State) : Host.Outcome State Fault Refusal :=
  .next (fireMonitors s (fun x => sameWord x.toNat a.toNat))

/-- A word of a lost owner takes ORPHAN (R328): its waiters and monitors see it; a word that is unreachable, poisoned or orphaned
already is left. -/
def orphanWord (s : State) (a : Addr48) : State :=
  if !s.sync.orphans.contains a then s else
  let s1 := { s with sync := { s.sync with orphans := s.sync.orphans.filter (· ≠ a) } }
  let x := a.toNat
  if placeLost s none (place x) || poisoned s x 8 then s1 else
  let w := rdNat s1 x 8
  if wordOrphan? w then s1 else
  let s2 := wrNat s1 x 8 (w + 2 ^ 63)
  let s3 := { s2 with sync := { s2.sync with cntOrphan := satAdd s2.sync.cntOrphan 1 } }
  wakeWord (markAllMonitors s3 x) x

/-- WORD_ORPHAN (R328, R329): an indexed word of an owner met by an orphaning event gets ORPHAN, with OWNER and VALUE
kept; its waiters are released with OWNER_LOST and its monitors are to fire. A word on a fenced die is not orphaned. -/
def execWordOrphan (a : Addr48) (s : State) : Host.Outcome State Fault Refusal := .next (orphanWord s a)

/-! ### Barriers (R285, R330) -/

/-- Every tap of a die with its BAR_MASK bit set has arrived; a fenced die is cut from the AND (R285, R287). -/
def dieArrived (s : State) (ch d : Nat) : Bool :=
  dieFenced s d ||
  (die s d).barMask.all (fun e => e.1 / 16 != ch ||
    (List.range 64).all (fun i => !e.2.getLsbD i ||
      (barrier s ch).arrived.contains (1024 * d + 64 * (e.1 % 16) + i)))

/-- The local condition of a channel (R285): the AND is 1 and a tap has arrived since the last toggle. -/
def localCond (s : State) (ch : Nat) : Bool :=
  !(barrier s ch).arrived.isEmpty && (List.range 4).all (dieArrived s ch)

/-- The release phase of a channel toggles: its arrivals clear, its contexts are released with a status, and an armed
channel counts an episode (R285, R333). -/
def toggleBarrier (s : State) (ch : Nat) (st : Status) : State :=
  let ws := (barrier s ch).waiting
  let s1 := modBarrier s ch (fun b => { b with
    phase := !b.phase, arrived := [], waiting := [], collectiveDone := false
    armed := b.armed.map (fun p => (p.1, p.2 + 1)) })
  ws.foldl (fun t w => synEnd t w.1 w.2 st 0)
    { s1 with sync := { s1.sync with cntRelease := satAdd s1.sync.cntRelease 1 } }

/-- A disarm takes effect, and a deferred arm is applied (R332, R333). -/
def settleDisarm (s : State) (ch : Nat) : State :=
  let b := barrier s ch
  if !b.disarming || b.collective then s else
  let s1 := modBarrier s ch (fun b => { b with disarming := false, armed := none, deferred := none, collectiveDone := false })
  match b.deferred with
  | none => s1
  | some (h, g) =>
    if b.arrived.isEmpty then reply (modBarrier s1 ch (fun b => { b with armed := some (g, 0) })) h 0x0503 .done []
    else reply s1 h 0x0503 .busy []

/-- BARRIER_RELEASE (R285, R331): a channel whose local condition holds toggles; an armed one only once its collective has
completed. -/
def execBarrierRelease (ch : Fin 16) (s : State) : Host.Outcome State Fault Refusal :=
  .next (
    let b := barrier s ch.val
    if b.armed.isSome then
      (if b.collectiveDone then settleDisarm (toggleBarrier s ch.val .done) ch.val else s)
    else if localCond s ch.val then toggleBarrier s ch.val .done else s)

end Sys2Proof.Machine
end

