-- ==== Sys2Proof/Machine/Exchange.lean ====
section
/-! DEFINITION. The exchange and collective engines (R220 to R239): groups, compression, reduction, records and the life of
an operation. -/

namespace Sys2Proof.Machine

/-- The exchange block changed. -/
def modExch (s : State) (f : Exch → Exch) : State := { s with exch := f s.exch }

/-! ### Groups (R220) -/

/-- A group entry as an operation keeps it. -/
structure GroupEntry where
  line : Bool
  rank : Nat
  members : List W16
  portNeg : Byte
  portPos : Byte
  deriving DecidableEq, Repr

/-- The group entry of a number, when it passes the checks of R220. -/
def readGroup (s : State) (g : Nat) : Option GroupEntry :=
  let b := s.exch.groupBase.toNat + 8192 * g
  let w := fun i => rdNat s (b + 4 * i) 4
  let n := bits (w 0) 12 0
  let e : GroupEntry := {
    line := bit (w 0) 30, rank := bits (w 1) 12 0, portNeg := BitVec.ofNat 8 (w 2 / 256), portPos := BitVec.ofNat 8 (w 2)
    members := (List.range n).map (fun r => BitVec.ofNat 16 (rdNat s (b + 64 + 2 * r) 2)) }
  let portOk := fun (p : Byte) => decide (4 ≤ p.toNat) && decide (p.toNat ≤ 21)
  if bit (w 0) 31 && decide (1 ≤ n) && decide (n ≤ 4064) && decide (e.rank < n) && e.members[e.rank]? == some s.pkgId &&
      decide e.members.Nodup && (!e.line || (portOk e.portNeg && portOk e.portPos)) then some e else none

/-- The epoch that records carry: the one that the step in progress, or the next one, builds. -/
def exEpoch (s : State) : W64 := s.memblk.epoch + 1

/-! ### Compression (R224) and records (R229) -/

/-- The modes of a gradient operation (R223). -/
inductive ExMode where
  | exact32 | exact16 | topk (k : Nat) | sign
  deriving DecidableEq, Repr

/-- Mode of an operation, from MODE, ETYPE and K. -/
def exMode (mode etype : Nat) (k : Nat) : ExMode :=
  match mode with
  | 0 => if etype = 0 then .exact32 else .exact16
  | 1 => .topk k
  | _ => .sign

/-- The place of an FP32 code in the order of R224: NaN above every number, then by magnitude. -/
def topKey (c : Nat) : Nat := if f32 c = .nan then 2 ^ 31 else c % 2 ^ 31

/-- BF16 of an FP32 code. -/
def toB16 (c : Nat) : Nat := toBf16 (f32 c)

/-- The K highest elements (R224): those that fewer than K others precede. -/
def topSet (v : List Nat) (k : Nat) : List Nat :=
  let keyed := v.zipIdx.map (fun p => (topKey p.1, p.2))
  (keyed.filter (fun p => decide ((keyed.filter (fun q =>
    decide (p.1 < q.1) || (q.1 == p.1 && decide (q.2 < p.2)))).length < k))).map (·.2)

/-- The body of a TOPK record: 26 bits an entry, padded to a multiple of 4 bytes (R229). -/
def packTop (es : List (Nat × Nat)) : List Byte :=
  leBytes (4 * ceilDiv (26 * es.length) 32) (es.zipIdx.foldl (fun a e => a + (e.1.1 + 1024 * e.1.2) <<< (26 * e.2)) 0)

/-- The scale of a SIGN block (R224): the mean magnitude, rounded once to BF16. -/
def signScale (b : List Nat) : Nat :=
  if b.any (fun c => !isFinite32 c) then canonNan 7 else
  toBf16 ((b.foldl (fun a c => a.add (.fin false (f32 c).mag.1 (f32 c).mag.2)) Fv.zero).mul (.fin false 1 32))

/-- An element counts as negative: below 0 (R224). -/
def signBit (c : Nat) : Bool := bit c 31 && !(f32 c).isZero && f32 c != .nan

/-- A compressed tile: for each record its PART, N and body; and the decoded values (R224, R229). -/
def encodeTile (m : ExMode) (v : List Nat) : List (Nat × Nat × List Byte) × List Nat :=
  match m with
  | .exact32 => ((List.range 4).map (fun i => (i, 0, bytesOf ((v.drop (256 * i)).take 256))), v)
  | .exact16 =>
    let h := v.map toB16
    ((List.range 4).map (fun i => (i, 0, ((h.drop (256 * i)).take 256).flatMap (leBytes 2))), h.map (· * 65536))
  | .topk k =>
    let set := topSet v k
    let dec := v.zipIdx.map (fun p => if set.contains p.2 then toB16 p.1 * 65536 else 0)
    let es := (dec.zipIdx.filter (fun p => p.1 % 2 ^ 31 != 0)).map (fun p => (p.2, p.1 / 65536))
    ([(0, es.length, packTop es)], dec)
  | .sign =>
    let bs := chunks 32 33 v
    let sc := bs.map signScale
    let w := bs.map (fun b => b.zipIdx.foldl (fun a p => a + b2n (signBit p.1) * 2 ^ p.2) 0)
    let dec := (bs.zip sc).flatMap (fun p => p.1.map (fun c => (p.2 + (if signBit c then 32768 else 0)) * 65536))
    ([(0, 0, wordsBytes w ++ sc.flatMap (leBytes 2))], dec)

/-- The elements that a record body holds: its first element and the FP32 values (R224, R229). -/
def decodeRecord (m : ExMode) (r : ExRec) : Nat × List Nat :=
  match m with
  | .exact32 => (256 * r.part.toNat, words32 256 r.body)
  | .exact16 => (256 * r.part.toNat, (List.range 256).map (fun i => leAt r.body (2 * i) 2 * 65536))
  | .topk _ =>
    let x := leNat r.body
    let es := (List.range r.n.toNat).map (fun e => (bits x (26 * e + 9) (26 * e), bits x (26 * e + 25) (26 * e + 10)))
    (0, (List.range 1024).map (fun i => match es.find? (fun e => e.1 == i) with
      | some e => e.2 * 65536
      | none => 0))
  | .sign =>
    (0, (List.range 1024).map (fun i =>
      let sc := leAt r.body (128 + 2 * (i / 32)) 2
      (if bit (leAt r.body (4 * (i / 32)) 4) (i % 32) then (sc + 32768) % 65536 else sc) * 65536))

/-- One element of a new residual (R224), as stored in the format: EF_FMT 1 is FP32. -/
def residualOf (wide : Bool) (v d : Nat) : Nat :=
  if !isFinite32 v then 0 else if wide then fsub v d else toB16 (fsub v d)

/-- Residual elements from and to bytes (R228). -/
def rdResidual (wide : Bool) (b : List Byte) : List Nat :=
  if wide then words b else (List.range (b.length / 2)).map (fun i => leAt b (2 * i) 2 * 65536)
def wrResidual (wide : Bool) (l : List Nat) : List Byte := l.flatMap (leBytes (if wide then 4 else 2))

/-- A record in wire form: its header and body (R229). -/
def recordWire (r : ExRec) : List Byte :=
  leBytes 4 r.tile.toNat ++ leBytes 4 (fieldAt r.tensor.toNat 16 16 + fieldAt r.part.toNat 2 14 + r.n.toNat) ++ r.body

/-- The exchange header and one record as payload (R229). -/
def exPayload (h : ExHdr) (r : ExRec) : List Byte :=
  wordsBytes [fieldAt h.kind.toNat 4 28 + fieldAt h.mode.toNat 2 26 + fieldAt (b2n h.etype) 1 25 + fieldAt h.km1.toNat 8 16 +
      h.rank.toNat, h.layout.toNat, h.opId.toNat, 1] ++ leBytes 8 h.epoch.toNat ++ List.replicate 8 0 ++
    recordWire r

/-- Bytes of a record in wire form, as the exchange log keeps it (R239). -/
def recordBytesOf (r : ExRec) : Nat := 8 + r.body.length

/-! ### Where a tile's gradients and residuals lie -/

/-- A VALID tensor of the latched list with its group. -/
def tensorOf (s : State) (n : Nat) : Option (Tensor × Group) := (liveTensors s).find? (fun p => p.1.idx == n)

/-- EF_FMT is FP32, and EF_ADDR and OWN_ADDR, of a tensor (R228). -/
def efEntry (s : State) (n : Nat) : Bool × Nat × Nat :=
  let b := s.exch.tensorBase.toNat + 32 * n
  (bit (rdNat s b 4) 0, rdNat s (b + 8) 8, rdNat s (b + 16) 8)

/-- The runs of the local residual of a tile (R228). -/
def localResidual (s : State) (n tile : Nat) : List (Nat × Nat) :=
  let e := efEntry s n
  let z := if e.1 then 4096 else 2048
  shareRuns e.2.1 (tile % 4) (z * (tile / 4)) z

/-- The runs of the owner residual of a tile among R members (R221, R228): its owned tiles are every R-th. -/
def ownerResidual (s : State) (n tile r : Nat) : List (Nat × Nat) :=
  let e := efEntry s n
  let z := if e.1 then 4096 else 2048
  [(e.2.2 + z * (tile / r), z)]

/-- Bytes of a list of runs. -/
def rdRuns (s : State) (l : List (Nat × Nat)) : List Byte := l.flatMap (fun p => rdBytes s p.1 p.2)

/-- Bytes written over a list of runs. -/
def wrRuns (s : State) (l : List (Nat × Nat)) (bs : List Byte) : State :=
  (l.foldl (fun (p : State × List Byte) q => (wrBytes p.1 q.1 (p.2.take q.2), p.2.drop q.2)) (s, bs)).1

/-- A list of runs touches a poisoned line. -/
def runsBad (s : State) (l : List (Nat × Nat)) : Bool := l.any (fun p => poisoned s p.1 p.2)

/-- Values compressed with error feedback (R225, R226): the values with the residual added, their records, and the residual
written back. EXACT has no residual. -/
def feedback (s : State) (m : ExMode) (n : Nat) (runs : List (Nat × Nat)) (v : List Nat) :
    State × List Nat × (List (Nat × Nat × List Byte) × List Nat) :=
  match m with
  | .exact32 => (s, v, encodeTile m v)
  | .exact16 => (s, v, encodeTile m v)
  | _ =>
    let wide := (efEntry s n).1
    let e := rdResidual wide (rdRuns s runs)
    let w := (v.zip e).map (fun p => fadd p.1 p.2)
    let c := encodeTile m w
    (wrRuns s runs (wrResidual wide ((w.zip c.2).map (fun p => residualOf wide p.1 p.2))), w, c)

/-! ### Sending (R226, R310) -/

/-- A line multicast of an exchange payload through a port (R310): one transaction that awaits every member passed, which waits
for a slot and for the window as any request does (R303, R304). -/
def sendLine (s : State) (p : Nat) (dsts : List W16) (payload : List Byte) : State :=
  match dsts.getLast? with
  | none => s
  | some dst => launch s {
      pkt := { mkReq dst 2 0 0 payload.length payload with mc := true, mcHops := BitVec.ofNat 8 dsts.length }
      what := .exch
      line := some (p, dsts) }

/-- The header of a record of an operation. -/
def exHdr (s : State) (x : ExOp) (result : Bool) : ExHdr :=
  { kind := BitVec.ofNat 4 ((if x.isGrad then 0 else 2) + b2n result), mode := BitVec.ofNat 2 (if x.isGrad then x.p.mode.toNat else 0),
    etype := x.isGrad && x.p.etype == 1, km1 := if x.isGrad && x.p.mode == 1 then BitVec.ofNat 8 (x.p.k.toNat - 1) else 0,
    rank := BitVec.ofNat 13 x.rank, layout := s.exch.layout, opId := x.p.opId, epoch := exEpoch s }

/-- A payload counted as sent (R241). -/
def countTx (s : State) (n : Nat) : State := modExch s (fun e => { e with cntTx := satAdd e.cntTx n })

/-- An operation changed. -/
def modOp (s : State) (id : W32) (f : ExOp → ExOp) : State :=
  modExch s (fun e => { e with ops := e.ops.map (fun x => if x.p.opId = id then f x else x) })

/-- An incomplete operation. -/
def exOp (s : State) (id : W32) : Option ExOp := s.exch.ops.find? (fun x => x.p.opId == id)

/-- A record goes to one member. -/
def sendRecord (s : State) (x : ExOp) (r : Nat) (h : ExHdr) (rc : ExRec) : State :=
  match x.members[r]? with
  | some dst =>
    let pl := exPayload h rc
    modOp (countTx (sendReq s (mkReq dst 2 0 0 pl.length pl) .exch) pl.length) x.p.opId (fun y => { y with sent := y.sent + 1 })
  | none => s

/-- A result record goes to every other member, by line multicast where the group has LINE (R226, R232). -/
def sendResult (s : State) (x : ExOp) (h : ExHdr) (rc : ExRec) : State :=
  if x.line then
    let pl := exPayload h rc
    let neg := (x.members.take x.rank).reverse
    let pos := x.members.drop (x.rank + 1)
    let s1 := sendLine (sendLine s x.portNeg.toNat neg pl) x.portPos.toNat pos pl
    let k := b2n (!neg.isEmpty) + b2n (!pos.isEmpty)
    modOp (countTx s1 (k * pl.length)) x.p.opId (fun y => { y with sent := y.sent + k })
  else (List.range x.members.length).foldl (fun t r => if r = x.rank then t else sendRecord t x r h rc) s

/-! ### Combining (R226, R230) -/

/-- The fixed tree over ranks (R226). -/
def treeSum : Nat → List (List Nat) → List Nat
  | 0, _ => []
  | f + 1, l =>
    match l with
    | [] => []
    | [a] => a
    | _ =>
      let mid := 2 ^ (ceilLog2 l.length - 1)
      ((treeSum f (l.take mid)).zip (treeSum f (l.drop mid))).map (fun p => fadd p.1 p.2)

/-- Better of two elements of MAXIDX or MINIDX (R230): by the order of R128, ties to the lower index, then the lower rank. -/
def pickIdx (max : Bool) (a b : Nat) : Nat :=
  let va := a % 2 ^ 32
  let vb := b % 2 ^ 32
  let above := if max then aboveMax vb va else belowMin vb va
  let below := if max then aboveMax va vb else belowMin va vb
  if above then b else if below then a else if b / 2 ^ 32 < a / 2 ^ 32 then b else a

/-- Words of 64 bits of bytes. -/
def words64 (l : List Byte) : List Nat := (chunks 8 (l.length + 1) l).map leNat

/-- The contributions to a unit combined in rank order (R230): KIND 1 SUM_F32, 2 and 6 sums of uint64, 3 MAXIDX,
4 MINIDX. -/
def combine (kind : Nat) (bs : List (List Byte)) : List Byte :=
  let zipAll := fun (f : Nat → Nat → Nat) =>
    match bs.map words64 with
    | [] => []
    | a :: r => (r.foldl (fun x y => (x.zip y).map (fun p => f p.1 p.2)) a).flatMap (leBytes 8)
  match kind with
  | 1 => bytesOf (treeSum 14 (bs.map words))
  | 3 => zipAll (pickIdx true)
  | 4 => zipAll (pickIdx false)
  | _ => zipAll (fun a b => (a + b) % 2 ^ 64)

/-! ### Records taken (R226, R227, R236) -/

/-- The rank that owns a record: of a tile, or of a unit (R221, R231). -/
def ownerOf (x : ExOp) (rc : ExRec) : Nat :=
  (if x.isGrad then rc.tensor.toNat + rc.tile.toNat else rc.tile.toNat) % x.members.length

/-- Where the records of an epoch begin in the exchange log: fifth e mod 5 of it (log entry 38). -/
def exLogAt (s : State) (e : Nat) : Nat := s.exch.logBase.toNat + e % 5 * (s.exch.logSize.toNat / 5)

/-- A result record kept in the exchange log (R239): results of gradient operations of the step in progress, in wire form behind
those before it. -/
def logResult (s : State) (x : ExOp) (h : ExHdr) (rc : ExRec) : State :=
  if !x.isGrad then s else
  match s.exch.log with
  | l :: r =>
    if l.epoch ≠ x.epoch then s else
    let n := l.bytes + recordBytesOf rc
    let fits := l.logged && decide (5 * n ≤ s.exch.logSize.toNat)
    let s1 := if fits then wrBytes s (exLogAt s l.epoch.toNat + l.bytes) (recordWire rc) else s
    modExch s1 (fun e => { e with log := { l with records := l.records ++ [(h, rc)], bytes := n, logged := fits } :: r })
  | [] => s

/-- The values of a result record written into G (R227). -/
def applyToG (s : State) (m : ExMode) (rc : ExRec) : State :=
  match tensorOf s rc.tensor.toNat with
  | some (t, g) =>
    let d := decodeRecord m rc
    wrTile s g.rule t .g rc.tile.toNat (4 * d.1) (bytesOf d.2)
  | none => s

/-- The mode that a record header names (R229). -/
def hdrMode (h : ExHdr) : ExMode := exMode h.mode.toNat (b2n h.etype) (h.km1.toNat + 1)

/-- The cursor of an EXCHANGE_START: the result records applied (R235). -/
def exCursor (s : State) (id : W32) (n : Nat) : State :=
  { s with cmd := { s.cmd with longs := s.cmd.longs.map (fun o => if o.kind = .exchange id then
      { o with cursor := BitVec.ofNat 64 n } else o) } }

/-- A result record is applied (R227, R231): into G, at DST as far as LEN goes, or kept for the package's own use. -/
def applyResult (s : State) (x : ExOp) (h : ExHdr) (rc : ExRec) : State :=
  let s1 := if x.isGrad then logResult (applyToG s (hdrMode h) rc) x h rc
    else if x.own ∨ x.p.kind = 6 then modOp s x.p.opId (fun y => { y with contribs := y.contribs ++ [(h, rc)] })
    else wrBytes s (x.p.dst.toNat + 2048 * rc.tile.toNat) (rc.body.take (x.p.len.toNat - 2048 * rc.tile.toNat))
  let s2 := modOp s1 x.p.opId (fun y => { y with applied := y.applied + 1 })
  match exOp s2 x.p.opId with
  | some y => if y.own then s2 else exCursor s2 x.p.opId y.applied
  | none => s2

/-- The contributions of every rank to one record's place, in rank order, once all have arrived. -/
def allContribs (x : ExOp) (rc : ExRec) : Option (List (ExHdr × ExRec)) :=
  let here := x.contribs.filter (fun c => (c.1.kind == 0 || c.1.kind == 2) && c.2.tensor == rc.tensor && c.2.tile == rc.tile &&
    c.2.part == rc.part)
  let l := (List.range x.members.length).filterMap (fun r => here.find? (fun c => c.1.rank.toNat == r))
  if l.length = x.members.length then some l else none

/-- An operation leaves the block; the records that it took stay known while its epoch is in progress (R236). -/
def dropOp (s : State) (x : ExOp) : State :=
  modExch s (fun e => { e with
    ops := e.ops.filter (fun y => y.p.opId ≠ x.p.opId)
    past := { opId := x.p.opId, epoch := exEpoch s, taken := x.taken } ::
      e.past.filter (fun p => exEpoch s == p.epoch && p.opId != x.p.opId) })

/-- An operation ends: it leaves the block, and a command of the controller receives its final reply (R235). -/
def endOp (s : State) (x : ExOp) (st : Status) : State :=
  endLongs (dropOp s x) (fun k => k == .exchange x.p.opId) st
    (leBytes 8 x.nonfin ++ leBytes 8 x.sent ++ leBytes 8 x.received)

/-- The owner reduces a tile or unit whose contributions have all arrived, sends the result and applies it (R226, R230); a
poisoned residual ends the operation with DEGRADED (R250). -/
def reduce (s : State) (id : W32) (rc : ExRec) : State :=
  match exOp s id with
  | none => s
  | some x =>
    match allContribs x rc with
    | none => s
    | some cs =>
      let h := exHdr s x true
      let done := fun (t : State) (recs : List ExRec) => recs.foldl (fun u r =>
        match exOp u id with
        | some y => applyResult (sendResult (modOp u id (fun z => { z with owed := z.owed - 1 })) y h r) y h r
        | none => u) t
      if x.isGrad then
        let m := hdrMode h
        let sum := treeSum 14 (cs.map (fun c => (decodeRecord m c.2).2))
        match m with
        | .exact32 => done s [{ rc with body := bytesOf sum }]
        | .exact16 => done s [{ rc with body := sum.flatMap (fun v => leBytes 2 (toB16 v)) }]
        | _ =>
          let runs := ownerResidual s rc.tensor.toNat rc.tile.toNat x.members.length
          if runsBad s runs then endOp s x .degraded else
          let f := feedback s m rc.tensor.toNat runs sum
          done f.1 (f.2.2.1.map (fun e => { rc with part := BitVec.ofNat 2 e.1, n := BitVec.ofNat 9 e.2.1, body := e.2.2 }))
      else done s [{ rc with body := combine x.p.kind.toNat (cs.map (fun c => c.2.body)) }]

/-- A record used by its operation (R236): each one once. -/
def useRecord (s : State) (h : ExHdr) (rc : ExRec) : State :=
  match exOp s h.opId with
  | none => s
  | some x =>
    let key := (h.kind, rc.tensor, rc.tile, rc.part, h.rank)
    if x.taken.contains key then modExch s (fun e => { e with cntDup := satAdd e.cntDup 1 }) else
    let s1 := modOp s h.opId (fun y => { y with taken := y.taken ++ [key] })
    if h.kind = 0 ∨ h.kind = 2 then
      reduce (modOp s1 h.opId (fun y => { y with contribs := y.contribs ++ [(h, rc)] })) h.opId rc
    else applyResult s1 x h rc

/-- A record of another member counted as received by its operation. -/
def receiveRecord (s : State) (h : ExHdr) (rc : ExRec) : State :=
  useRecord (modOp s h.opId (fun y => { y with received := y.received + 1 })) h rc

/-- Bytes of the early records held in EX_BUF (R236). -/
def earlyBytes (s : State) : Nat := (s.exch.early.map (fun p => 32 + recordBytesOf p.2)).sum

/-- What a record is known by (R236): KIND, TENSOR, TILE, PART and RANK. -/
def recordKey (h : ExHdr) (rc : ExRec) : BitVec 4 × W16 × W32 × BitVec 2 × BitVec 13 := (h.kind, rc.tensor, rc.tile, rc.part, h.rank)

/-- A record is among those held, or was taken by an operation of its epoch that has completed (R236). -/
def knownRecord (s : State) (h : ExHdr) (rc : ExRec) : Bool :=
  s.exch.early.any (fun p => p.1.opId == h.opId && p.1.epoch == h.epoch && recordKey p.1 p.2 == recordKey h rc) ||
  s.exch.past.any (fun p => p.opId == h.opId && p.epoch == h.epoch && p.taken.contains (recordKey h rc))

/-- A record held in EX_BUF (R236): of at most 16 OP_IDs, and as far as EX_BUF has room. -/
def holdRecord (s : State) (h : ExHdr) (rc : ExRec) : State × Bool :=
  if knownRecord s h rc then (modExch s (fun e => { e with cntDup := satAdd e.cntDup 1 }), true)
  else if ((earlyIds s).contains h.opId ∨ (earlyIds s).length < 16) ∧
      earlyBytes s + 32 + recordBytesOf rc ≤ s.exch.bufSize.toNat then
    (modExch s (fun e => { e with early := e.early ++ [(h, rc)] }), true)
  else (s, false)

/-- An arriving record (R236): whether it was taken; when not, credit is withheld on the flow. A record of an incomplete
operation whose epoch is above the epoch in progress is held until that epoch is (log entry 52). -/
def recordArrives (s : State) (h : ExHdr) (rc : ExRec) : State × Bool :=
  let stale := (modExch s (fun e => { e with cntStale := satAdd e.cntStale 1 }), true)
  if h.layout ≠ s.exch.layout then stale
  else if h.epoch.toNat < (exEpoch s).toNat then stale
  else if (exOp s h.opId).isSome && h.epoch == exEpoch s then (receiveRecord s h rc, true)
  else holdRecord s h rc

/-- Exchange engines run: the IOD domain is on, and the array clocks, since Hold pauses an operation (R418). -/
def exchRuns (s : State) : Bool := iodOn s && s.power.st == 0

/-- EXCH_RECORD_ARRIVAL (R236): a record's payload bytes are counted when it is taken. -/
def execExchRecordArrival (h : ExHdr) (r : ExRec) (s : State) : Host.Outcome State Fault Refusal :=
  .next (if !exchRuns s then s else
    let q := recordArrives s h r
    if q.2 then modExch q.1 (fun e => { e with cntRx := satAdd e.cntRx (exPayload h r).length }) else s)

/-! ### Starting an operation (R225, R231, R234) -/

/-- One tile contributed (R225): its records go to the owner. A poisoned read ends the operation with DEGRADED (R250). -/
def contributeTile (s : State) (id : W32) (t : Tensor) (g : Group) (tile : Nat) : State :=
  match exOp s id with
  | none => s
  | some x =>
    let h := exHdr s x false
    let m := hdrMode h
    let v := words (rdTile s g.rule t .g tile 0 4096)
    let f := feedback s m t.idx (localResidual s t.idx tile) v
    let nf := (f.2.1.filter (fun c => !isFinite32 c)).length
    let s1 := modOp (modExch f.1 (fun e => { e with cntNonfin := satAdd e.cntNonfin nf })) id
      (fun y => { y with nonfin := y.nonfin + nf })
    f.2.2.1.foldl (fun u e =>
      let rc : ExRec := { tile := BitVec.ofNat 32 tile, tensor := BitVec.ofNat 16 t.idx, part := BitVec.ofNat 2 e.1,
                           n := BitVec.ofNat 9 e.2.1, body := e.2.2 }
      let o := ownerOf x rc
      if o = x.rank then useRecord u h rc else sendRecord u x o h rc) s1

/-- The bytes of a unit that a member contributes (R231); a record always holds 2,048 B (R229), a short unit followed by zeros
(log entry 52). -/
def unitBytes (s : State) (x : ExOp) (bytes : List Byte) (u : Nat) : List Byte :=
  let b := if x.own then (bytes.drop (2048 * u)).take 2048
    else rdBytes s (x.p.src.toNat + 2048 * u) (min 2048 (x.p.len.toNat - 2048 * u))
  b ++ List.replicate (2048 - b.length) 0

/-- Units of a collective (R231). -/
def unitCount (p : ExParams) : Nat := ceilDiv p.len.toNat 2048

/-- One unit contributed to its owner, or, under BCAST, sent by ROOT to every member (R231, R232). -/
def contributeUnit (s : State) (id : W32) (bytes : List Byte) (u : Nat) : State :=
  match exOp s id with
  | none => s
  | some x =>
    let rc : ExRec := { tile := BitVec.ofNat 32 u, tensor := 0, part := 0, n := 0, body := unitBytes s x bytes u }
    if x.p.kind = 5 then (if x.rank = x.p.root.toNat then sendResult s x (exHdr s x true) rc else s) else
    let h := exHdr s x false
    let o := ownerOf x rc
    if o = x.rank then useRecord s h rc else sendRecord s x o h rc

/-- The tensors that a gradient operation covers. -/
def coveredTensors (s : State) (p : ExParams) : List (Option (Tensor × Group)) :=
  (List.range p.tcount.toNat).map (fun i => tensorOf s (p.tfirst.toNat + i))

/-- Records of a tile in a mode: four parts in EXACT. -/
def partsOf (p : ExParams) : Nat := if p.mode = 0 then 4 else 1

/-- Result records that a member expects, and own results that it owes (R235). -/
def opCounts (s : State) (p : ExParams) (g : GroupEntry) : Nat × Nat :=
  let n := g.members.length
  if p.kind = 0 then
    (coveredTensors s p).foldl (fun a q => match q with
      | some (t, _) =>
        (a.1 + partsOf p * t.tiles,
         a.2 + partsOf p * ((List.range t.tiles).filter (fun i => (t.idx + i) % n == g.rank)).length)
      | none => a) (0, 0)
  else if p.kind = 5 then (if g.rank = p.root.toNat then 0 else unitCount p, 0)
  else (unitCount p, ((List.range (unitCount p)).filter (fun u => u % n == g.rank)).length)

/-- The records held for an incomplete operation are used once their epoch is the one in progress (R236). -/
def useEarly (s : State) (id : W32) : State :=
  let e := exEpoch s
  let mine := s.exch.early.filter (fun p => p.1.opId == id && p.1.epoch == e)
  mine.foldl (fun t p => receiveRecord t p.1 p.2)
    (modExch s (fun x => { x with early := x.early.filter (fun p => !(p.1.opId == id && p.1.epoch == e)) }))

/-- A member whose bytes from SRC a collective sends: every one, or ROOT under BCAST (R230). -/
def sendsSource (p : ExParams) (rank : Nat) : Bool :=
  p.kind != 0 && (p.kind != 5 || rank == p.root.toNat)

/-- The read of the source of a collective waits for the commit instant (R257). -/
def sourceWaits (s : State) (p : ExParams) (rank : Nat) : Bool :=
  sendsSource p rank && observerStatus s p.src.toNat p.len.toNat == .busy

/-- Every unit of a collective contributed. -/
def contributeUnits (s : State) (id : W32) (p : ExParams) (bytes : List Byte) : State :=
  (List.range (unitCount p)).foldl (fun t u => contributeUnit t id bytes u) s

/-- An operation begins: it contributes everything, unless the read of its source waits, then uses the records that arrived
early. -/
def beginOp (s : State) (h : CmdHdr) (p : ExParams) (g : GroupEntry) (own : Bool) (bytes : List Byte) : State :=
  let c := opCounts s p g
  let x : ExOp := {
    hdr := h, p := p, line := g.line, rank := g.rank, members := g.members, portNeg := g.portNeg, portPos := g.portPos,
    epoch := exEpoch s, taken := [], contribs := [], applied := 0, sent := 0, received := 0, nonfin := 0, expect := c.1,
    owed := c.2, own := own, waits := !own && sourceWaits s p g.rank }
  let s1 := modExch s (fun e => { e with ops := e.ops ++ [x], past := e.past.filter (fun q => q.opId != p.opId) })
  let s2 := if p.kind = 0 then
      (coveredTensors s p).foldl (fun t q => match q with
        | some (tn, gr) => (List.range tn.tiles).foldl (fun u i => contributeTile u p.opId tn gr i) t
        | none => t) s1
    else if x.waits then countHeld s1
    else contributeUnits s1 p.opId p bytes
  useEarly s2 p.opId

/-- Whether an operation reads a poisoned line (R250), or bytes of a state range that hold no epoch (R258), at its start. -/
def opReadsPoison (s : State) (p : ExParams) (rank : Nat) : Bool :=
  if p.kind = 0 then
    (coveredTensors s p).any (fun q => match q with
      | some (t, g) => (List.range t.tiles).any (fun i => tileBad s g.rule t .g i 0 4096 ||
          (p.mode != 0 && runsBad s (localResidual s t.idx i)))
      | none => false)
  else sendsSource p rank &&
    (poisoned s p.src.toNat p.len.toNat || observerStatus s p.src.toNat p.len.toNat == .degraded)

/-- Bytes of an element of a collective (R230). -/
def elemBytes (kind : Nat) : Nat :=
  match kind with
  | 1 => 4
  | 5 => 1
  | _ => 8

/-- A field that the KIND does not use is not 0 (R357). COUNT takes its uint64 from SRC and adds the sum to CADDR: it uses neither
DST nor CVAL (log entry 52). -/
def exUnused (p : ExParams) : Bool :=
  let coll := p.mode != 0 || p.etype != 0 || p.k != 0 || p.tfirst != 0 || p.tcount != 0
  if p.kind = 0 then p.src != 0 || p.dst != 0 || p.len != 0 || p.root != 0
  else coll || (p.kind != 5 && p.root != 0) || (p.kind == 6 && (p.dst != 0 || p.cval != 0))

/-- The pages of SRC and DST of a collective; COUNT writes at no DST. -/
def exPages (p : ExParams) : List Nat :=
  pages p.src.toNat p.len.toNat ++ (if p.kind = 6 then [] else pages p.dst.toNat p.len.toNat)

/-- The first condition of R235. -/
def exBadParam (s : State) (p : ExParams) : Bool :=
  exUnused p || decide (6 < p.kind.toNat) || decide (0xFFFF0000 ≤ p.opId.toNat) || (readGroup s p.group.toNat).isNone ||
  (if p.kind = 0 then
     decide (2 < p.mode.toNat) || (p.mode == 0 && decide (1 < p.etype.toNat)) ||
     (p.mode == 1 && (p.k == 0 || decide (256 < p.k.toNat))) || !s.memblk.stepOn ||
     (coveredTensors s p).any (fun q => match q with
       | some (t, _) => p.mode != 0 && !exTensorValid s t.idx
       | none => true)
   else p.len.toNat % elemBytes p.kind.toNat != 0 || decide (2 ^ 32 < p.len.toNat) ||
     (p.kind == 6 && p.len != 8) || !(exPages p).all (fun a => (place a).isMem) ||
     (p.kind == 5 && (match readGroup s p.group.toNat with
       | some g => !g.line || decide (g.members.length ≤ p.root.toNat)
       | none => true)))

/-- The dies that own what an operation covers. -/
def exDies (s : State) (p : ExParams) : List Nat :=
  if p.kind = 0 then (coveredTensors s p).filterMap (fun q => q.map (fun t => t.1.die.val))
  else (exPages p).filterMap (fun a => (place a).die)

/-- An operation is already incomplete in a way that makes a start BUSY (R235). -/
def exBusy (s : State) (p : ExParams) : Bool :=
  decide (64 ≤ s.exch.ops.length) || s.exch.ops.any (fun x => x.p.opId == p.opId) ||
  (p.kind == 0 && (passRuns s || s.exch.ops.any (fun x => x.isGrad &&
    spansMeet x.p.tfirst.toNat x.p.tcount.toNat p.tfirst.toNat p.tcount.toNat)))

/-- SRC or DST of a collective touches the stack reserve (R245). -/
def exReserve (p : ExParams) : Bool := p.kind != 0 && (exPages p).any (fun a => inReserve (place a))

/-- The status that turns an EXCHANGE_START away, in the order of R235; an access to the stack reserve is DENIED (R245). -/
def exRefused (s : State) (p : ExParams) : Option Status :=
  if exBadParam s p then some .badParam
  else if p.layout ≠ s.exch.layout then some .staleLayout
  else if (exDies s p).any (dieFenced s) then some .dieLost
  else if exBusy s p then some .busy
  else if exReserve p then some .denied
  else none

/-- An accepted EXCHANGE_START: a long operation (R235), unless it has ended by then on a poisoned residual (R250). -/
def acceptExchange (h : CmdHdr) (p : ExParams) (s : State) : State :=
  let s1 := startLong s h 0x0405 (.exchange p.opId)
  match readGroup s p.group.toNat with
  | none => s
  | some g =>
    if opReadsPoison s p g.rank then endLongs s1 (fun k => k == .exchange p.opId) .degraded (List.replicate 24 0)
    else
      let s2 := beginOp s1 h p g false []
      match exOp s2 p.opId with
      | some x => replyFull s2 h 0x0405 .inProgress [] x.applied s2.memblk.epoch
      | none => s2

/-- EXCHANGE_START (R234, R235). -/
def doExchangeStart (h : CmdHdr) (p : ExParams) (s : State) : State :=
  match exRefused s p with
  | some st => answer (noteAccess s st) h 0x0405 st
  | none => acceptExchange h p s

/-- EXCHANGE_START (R234, R235). -/
def execExchangeStart (h : CmdHdr) (p : ExParams) (s : State) : Host.Outcome State Fault Refusal :=
  .next (cmdStart (.exchangeStart h p) h 0x0405 (doExchangeStart h p) s)

/-- A slice of a long operation whose read of its source waited: it goes on once the hold is over (R257, R258). -/
def resumeOp (s : State) (id : W32) : State :=
  match exOp s id with
  | some x =>
    if !x.waits || !exchRuns s || sourceWaits s x.p x.rank then s
    else if opReadsPoison s x.p x.rank then endOp s x .degraded
    else contributeUnits (modOp s id (fun y => { y with waits := false })) id x.p []
  | none => s

/-! ### Completion (R235, R233, R180, R331) -/

/-- The OP_ID of the norm sum (R231). -/
def normOpId : W32 := 0xFFFF0001

/-- An operation has applied every result and sent every record it owes (R235). -/
def ExOp.finished (x : ExOp) : Bool := x.applied == x.expect && x.owed == 0 && !x.waits

/-- A record of an operation still waits for a slot or a window: it is owed, not sent (R235). -/
def recordWaits (s : State) (x : ExOp) : Bool :=
  s.fab.waitq.any (fun w => w.what == .exch && leAt w.pkt.payload 8 4 == x.p.opId.toNat)

/-- The result bytes that an operation kept, by unit. -/
def keptResult (x : ExOp) : List Byte := (x.contribs.filter (fun c => c.1.kind == 3)).flatMap (fun c => c.2.body)

/-- The norm sum has come back (R180): the limbs with their carries, and the count of non-finite gradients. -/
def normReturned (s : State) (x : ExOp) : State :=
  let w := words64 (keptResult x)
  let sum := ((w.take 20).zipIdx.map (fun p => p.1 * 2 ^ (32 * p.2))).sum
  modUpd s (fun u => { u with pass := u.pass.map (fun p => { p with s := sum, nf1 := BitVec.ofNat 64 (w.getD 20 0), normIn := true }) })

/-- The channel whose episode an OP_ID belongs to (R331). -/
def channelOf (id : W32) : Nat := (id.toNat - 0xFFFF8000) / 2048

/-- The completion ADD of an operation (R233, R235): CVAL to CADDR, or the group's sum for COUNT. An ADD that is not made ends
the operation with its status (R319, R320). -/
def completionAdd (s : State) (x : ExOp) : State × Status :=
  if x.p.caddr = 0 then (s, .done) else
  ownAdd s x.hdr.master.toNat x.p.caddr.toNat (if x.p.kind = 6 then leAt (keptResult x) 0 8 else x.p.cval.toNat)

/-- An operation that the package began for itself ends without its result: the norm sum, or the COUNT of a barrier's episode, on
whose end a disarm may wait (R332). -/
def dropOwn (s : State) (x : ExOp) : State :=
  let s1 := dropOp s x
  let ch := channelOf x.p.opId
  if x.p.opId = normOpId then s1 else settleDisarm (modBarrier s1 ch (fun b => { b with collective := false })) ch

/-- A finished operation completes (R235). -/
def completeOp (s : State) (x : ExOp) : State :=
  if x.own then
    let s1 := dropOp s x
    if x.p.opId = normOpId then normReturned s1 x
    else
      let ch := channelOf x.p.opId
      modBarrier s1 ch (fun b => { b with collective := false, collectiveDone := b.armed.isSome })
  else
    let r := completionAdd s x
    endOp r.1 x r.2

/-- EXCHANGE_COMPLETE (R235). -/
def execExchangeComplete (opId : W32) (s : State) : Host.Outcome State Fault Refusal :=
  .next (if !exchRuns s then s else
    let t := useEarly s opId
    match exOp t opId with
    | some x => if x.finished && !recordWaits t x then completeOp t x else t
    | none => s)

/-- BARRIER_EPISODE_COLLECTIVE (R331, R333): an armed channel whose local condition holds starts its COUNT collective. -/
def execBarrierEpisodeCollective (ch : Fin 16) (s : State) : Host.Outcome State Fault Refusal :=
  .next (
    let b := barrier s ch.val
    match b.armed with
    | some (g, ep) =>
      if b.collective || b.collectiveDone || b.disarming || !localCond s ch.val || !exchRuns s ||
          decide (64 ≤ s.exch.ops.length) then s else
      match readGroup s g.toNat with
      | none => s
      | some e =>
        let id : W32 := BitVec.ofNat 32 (0xFFFF8000 + 2048 * ch.val + ep % 2048)
        let p : ExParams := {
          opId := id, kind := 6, group := g, mode := 0, etype := 0, k := 0, root := 0, layout := s.exch.layout, tfirst := 0,
          tcount := 0, src := 0, dst := 0, len := 8, caddr := 0, cval := 1 }
        let h : CmdHdr := { session := 0, master := 0, stream := 0xFFFF, seq := 0, stamp := s.inv.ft, wake := false,
                            port := .fabric s.pkgId 0, posted := none, occurrence := none }
        beginOp (modBarrier s ch.val (fun b => { b with collective := true })) h p e true (leBytes 8 1)
    | none => s)

end Sys2Proof.Machine
end

