-- ==== Sys2Proof/Machine/UpdateRun.lean ====
section
/-! DEFINITION. The life of an update pass (R168, R169, R180 to R186, R190, R194, R196): its acceptance, its joins, its panels
and its end. -/

namespace Sys2Proof.Machine

/-! ### Serving clusters (R190) -/

/-- What a pass with rule O or K leaves of a serving cluster (R190): its SVC context HALTED, and what the service used
undefined. -/
def spoilCluster (s : State) (n : Nat) : State :=
  let f := s.fresh
  useFresh (modStream (spoilUnits (useFresh s 2) n) n .svc (fun t => { t with
    st := .halted
    record := { StopRec.reset with pc := BitVec.ofNat 22 (Config.freeNat f), haltCode := Config.free32 (f + 1)
                                   ftStop := s.inv.ft } })) 1

/-- Every serving cluster as the end of a pass with rule O or K leaves it (R190); the streams of a fenced die are lost (R114). -/
def spoilServing (s : State) : State :=
  if hasService s then ((List.range 4096).filter (fun n => isServing s n && !dieFenced s (n / 1024))).foldl spoilCluster s else s

/-! ### Cursor and end of a pass -/

/-- The cursor of the pass: UPD_PHASE and the tiles finished (R168, R357). -/
def passCursor (s : State) : W64 :=
  BitVec.ofNat 64 (s.upd.phase.toNat * 2 ^ 56 + (match s.upd.pass with
    | some p => p.tiles
    | none => 0))

/-- The long operation of the pass takes the pass's cursor. -/
def showCursor (s : State) : State :=
  { s with cmd := { s.cmd with longs := s.cmd.longs.map (fun o => if o.kind = .updateRun then
      { o with cursor := passCursor s } else o) } }

/-- The pass changed. -/
def modPass (s : State) (f : Pass → Pass) : State := modUpd s (fun u => { u with pass := u.pass.map f })

/-- UPD_PHASE changed. -/
def setPhase (s : State) (n : Nat) : State := showCursor (modUpd s (fun u => { u with phase := BitVec.ofNat 4 n }))

/-- Bytes that the update moves are counted in UPD_CNT_BYTES (R198, R200). -/
def countBytes (s : State) (n : Nat) : State := modUpd s (fun u => { u with cntBytes := satAdd u.cntBytes n })

/-- Bytes that the engines or the panel service of a die move, counted in its UPD_ENG_BYTES too (R201). -/
def countDie (s : State) (d n : Nat) : State :=
  modDie (countBytes s n) d (fun x => { x with engBytes := satAdd x.engBytes n })

/-- Blocks of a die that the capture in progress has yet to read or copy. -/
def uncapturedOn (s : State) (d : Nat) : Nat :=
  match s.ckpt.capture with
  | some c => (c.blocks.filter (fun e => e.1 / 2 ^ 32 == d && e.2 == .uncaptured)).length
  | none => 0

/-- Bytes that the first pass reads of a tensor: 4 for each unfrozen parameter, and its mask (R198, log entry 47). -/
def passOneBytes (s : State) (t : Tensor) : Nat :=
  ((List.range t.tiles).map (fun i => 128 * (liveBlocks s t i).length + maskBytes t)).sum

/-- Bytes that rule K moves for a panel beyond those counted with its tiles (R198): the gradients of its unfrozen blocks (R183)
and its statistics and roots. -/
def panelBytes (s : State) (t : Tensor) (g : Group) (p : Nat) : Nat :=
  let d := t.panelDim p
  if g.rule = .k then
    ((panelTiles t p).map (fun i => 128 * (liveBlocks s t i).length)).sum + 12 * (d.1 * d.1 + d.2 * d.2)
  else 0

/-- The blocks that a capture had copied for the pass between two states add to B (R196, R198), each on its die: 64 KiB read,
64 KiB written (R262). -/
def countCow (s0 s : State) : State :=
  (List.range 4).foldl (fun u d => countDie u d (131072 * (uncapturedOn s0 d - uncapturedOn s d))) s

/-- The results of UPDATE_RUN (R357). -/
def passResults (p : Pass) : List Byte :=
  leBytes 16 p.digest.toNat ++ leBytes 4 p.gnorm.toNat ++ leBytes 4 p.clip.toNat ++ leBytes 8 (b2n p.skipped) ++
    leBytes 8 p.nf1.toNat ++ leBytes 8 p.nf2.toNat

/-- A pass ends with DONE (R168, R181): UPD_PHASE 4, its record in the replay log, its DIGEST to the twin (R369). -/
def passDone (s : State) (p : Pass) : State :=
  let e := s.memblk.epoch + 1
  let s1 := setPhase (modUpd (spoilServing s) (fun u => { u with
    pass := some p
    passHad := true
    norm := p.clip ++ p.gnorm
    cntSkipped := if p.skipped then satAdd u.cntSkipped 1 else u.cntSkipped
    cntDone := if p.skipped then u.cntDone else satAdd u.cntDone 1 })) 4
  let s2 := modTwin (logPass s1 p) (fun t => { t with own := some (e, p.digest) })
  endLongs (sendSolder s2 1 e p.digest) (fun k => k == .updateRun) .done (passResults p)

/-- Bytes that a stopped pass leaves, each old or new by a free choice (R258). -/
def mixBytes (f : Nat) (old new : List Byte) : List Byte :=
  (old.zip new).zipIdx.map (fun p => if Config.freeBool (f + p.2) then p.1.2 else p.1.1)

/-- The arrays that a pass writes. -/
def writtenArrays (s : State) (r : URule) : List UArr :=
  (arraysOf r).filter (fun x => x ≠ .g ∧ x ≠ ccArr s.upd.ccActive)

/-- Everything that a pass writes, had it run to its end, except the group scalars: used only to say what a stopped pass may
leave. -/
def wholePass (s : State) (p : Pass) : State :=
  (liveTensors s).foldl (fun u q =>
    let t := q.1
    let g := q.2
    let st := groupState s t.group
    let sc := lookD p.scalars t.group (groupScalars s g st one32)
    let u1 := if g.rule = .o ∨ g.rule = .k then
        (List.range t.panels).foldl (fun v i =>
          let v1 := if p.posted.contains (t.idx, i) then v else phaseA v t g p.gscale.toNat sc.clip.toNat i
          if p.served.contains (t.idx, i) then v1 else servicePanel v1 t g st p.gscale.toNat sc.clip.toNat i) u
      else u
    (List.range t.tiles).foldl (fun v i => (passTwoTile v t g sc p.gscale.toNat (s.memblk.epoch.toNat + 1) i).s) u1) s

/-- The K records of a tensor, as runs of addresses. -/
def kRuns (t : Tensor) : List (Nat × Nat) := (List.range t.panels).map (fun i => (t.recAt i, t.recLen i))

/-- The state that a pass stopped in its second half leaves: each byte that it writes, and the guard's step accumulators, old
or new by a free choice (R258, R197; log entry 3). -/
def stoppedPass (s : State) (p : Pass) : State :=
  let w := wholePass s p
  let s1 := if Config.freeBool s.fresh then { s with guard := w.guard } else s
  (liveTensors s).foldl (fun u q =>
    let t := q.1
    let u1 := (List.range t.tiles).foldl (fun v i => (writtenArrays s q.2.rule).foldl (fun x a =>
      useFresh (wrTile x q.2.rule t a i 0 (mixBytes x.fresh (rdTile s q.2.rule t a i 0 a.size) (rdTile w q.2.rule t a i 0 a.size)))
        a.size) v) u
    if q.2.rule = .k then
      (kRuns t).foldl (fun v r =>
        useFresh (wrBytes v r.1 (mixBytes v.fresh (rdBytes s r.1 r.2) (rdBytes w r.1 r.2))) r.2) u1
    else u1) (useFresh s1 1)

/-- The most that the engines and the panel service of a die move in the half of a pass that runs (R198). -/
def halfBytes (s : State) (d : Nat) : Nat :=
  (((liveTensors s).filter (fun q => q.1.die.val == d)).map (fun q =>
    if s.upd.phase = 1 then (if q.2.clipx then 0 else passOneBytes s q.1)
    else if s.upd.phase = 3 then
      ((List.range q.1.tiles).map (fun i => passTwoBytes q.2.rule q.1 (liveBlocks s q.1 i).length true)).sum +
        ((List.range q.1.panels).map (panelBytes s q.1 q.2)).sum
    else 0)).sum

/-- The bytes that the stopped half of a pass moved on each die: a free number of those it would have moved (R198; log entries 3
and 47). -/
def countStopped (s0 s : State) : State :=
  (List.range 4).foldl (fun u d => useFresh (countDie u d (Config.freeNat u.fresh % (halfBytes s0 d + 1))) 1) s

/-- The record of a pass that fails (R370): its CLIP is a free value where the norm was not reached, and so are its NF2 and its
digest, of which no rule speaks (log entries 3 and 38). -/
def failedPass (s : State) (p : Pass) : Pass :=
  { p with clip := if s.upd.phase = 3 then p.clip else Config.free32 s.fresh
           nf2 := Config.free64 (s.fresh + 1)
           digest := Config.free64 (s.fresh + 2) ++ Config.free64 (s.fresh + 3) }

/-- A pass ends with DIE_LOST or DEGRADED (R197, R250, R258): UPD_PHASE 5, MEM_FAILED set, the hold at its end. Its record enters
the replay log (R370). Its norm sum goes on for the other members (R238). -/
def failPass (s : State) (st : Status) : State :=
  match s.upd.pass with
  | none => s
  | some p =>
    if !passRuns s then s else
    let s0 := useFresh (logPass s (failedPass s p)) 4
    let s1 := spoilServing (countStopped s (if s.upd.phase = 3 then stoppedPass s0 p else s0))
    let s2 := setPhase s1 5
    let s3 := modMem s2 (fun m => { m with failed := true, hold := false })
    endLongs s3 (fun k => k == .updateRun) st []

/-- Tiles finished since the last report: a free number of those left (R168; log entries 3 and 47). The second pass counts from
0 again. -/
def advanceTiles (s : State) (total : Nat) : State :=
  showCursor (useFresh (modPass s (fun p => { p with
    tiles := p.tiles + Config.freeNat s.fresh % (total - p.tiles + 1) })) 1)

/-! ### UPDATE_RUN (R168, R169) -/

/-- A stream of a serving cluster is neither IDLE nor HALTED (R169). -/
def servingBusy (s : State) : Bool :=
  anyStream s (fun n t => isServing s n && !(t.st == .idle || t.st == .halted))

/-- The status that turns an UPDATE_RUN away (R169, R357). Of the exchange engine's operations only GRAD ones hold it: collective
operations do not (R235). An active REPLAY runs passes of its own (R373): another pass is in progress. While a STEP_COMMIT is
pending no conversion into a tracked tensor is granted (R149): a pass, which converts (R185), is BUSY then (log entry 47). -/
def updateRefused (s : State) (normScope ngroup : Byte) : Option Status :=
  if !s.memblk.stepOn || decide (1 < normScope.toNat) || (normScope == 1 && (readGroup s ngroup.toNat).isNone) then
    some .badParam
  else if passRuns s then some .busy
  else if s.upd.passHad then some .badParam
  else if s.exch.ops.any (fun x => x.isGrad) || servingBusy s || s.ckpt.replaying.isSome || commitPending s then some .busy
  else none

/-- A pass as it starts. -/
def newPass (h : CmdHdr) (gscale tau : W32) (normScope ngroup : Byte) : Pass := {
  hdr := h, gscale := gscale, tau := tau, normScope := normScope, ngroup := ngroup, s := 0, nf1 := 0, nf2 := 0, gnorm := 0,
  clip := 0, skipped := false, digest := 0, scalars := [], posted := [], served := [], normIn := false, tiles := 0 }

/-- Bytes of the latched tables that a pass reads: its VALID entries (R198, log entry 47). -/
def tableBytes (s : State) : Nat := 128 * s.upd.groups.length + 64 * (liveTensors s).length

/-- The bytes of the tables counted on the die that holds them, at UPD_AREA_BASE (R201, log entry 47). -/
def countTables (s : State) : State := countDie s (((place s.upd.areaBase.toNat).die).getD 0) (tableBytes s)

/-- UPDATE_RUN (R168, R169): a long operation whose first pass begins. -/
def doUpdateRun (h : CmdHdr) (gscale tau : W32) (normScope ngroup : Byte) (s : State) : State :=
  match updateRefused s normScope ngroup with
  | some st => answer s h 0x0403 st
  | none =>
    let s1 := startLong s h 0x0403 .updateRun
    let s2 := setPhase (countTables (modUpd s1 (fun u => { u with pass := some (newPass h gscale tau normScope ngroup) }))) 1
    replyFull s2 h 0x0403 .inProgress [] (passCursor s2).toNat s2.memblk.epoch

/-- UPDATE_RUN (R168, R169). -/
def execUpdateRun (h : CmdHdr) (gscale tau : W32) (normScope ngroup : Byte) (s : State) : Host.Outcome State Fault Refusal :=
  .next (cmdStart (.updateRun h gscale tau normScope ngroup) h 0x0403 (doUpdateRun h gscale tau normScope ngroup) s)

/-! ### First pass and norm join (R180 to R182) -/

/-- The update engines run: the array clocks are on and the IOD is up (R418). -/
def engineRuns (s : State) : Bool := clocksOn s && iodOn s

/-- A VALID tensor lies on a fenced die (R197). -/
def passLost (s : State) : Bool := (liveTensors s).any (fun p => dieFenced s p.1.die.val)

/-- The 21 words that a package contributes to the norm sum (R180): 20 limbs of 32 bits, then the non-finite count. -/
def normWords (p : Pass) : List Byte :=
  (List.range 20).flatMap (fun i => leBytes 8 (p.s >>> (32 * i) % 2 ^ 32)) ++ leBytes 8 p.nf1.toNat

/-- The norm sum over the collective group starts (R180): the package's own sum of 21 words. -/
def startNormSum (s : State) (p : Pass) (g : GroupEntry) : State :=
  let q : ExParams := {
    opId := normOpId, kind := 2, group := p.ngroup, mode := 0, etype := 0, k := 0, root := 0, layout := s.exch.layout,
    tfirst := 0, tcount := 0, src := 0, dst := 0, len := 168, caddr := 0, cval := 0 }
  beginOp s p.hdr q g true (normWords p)

/-- The bytes of the first pass counted: no gradient of a CLIPX group is read (R198). -/
def countPassOne (s : State) : State :=
  ((liveTensors s).filter (fun p => !p.2.clipx)).foldl (fun u p => countDie u p.1.die.val (passOneBytes s p.1)) s

/-- Tiles of a pass. -/
def passTiles (s : State) : Nat := ((liveTensors s).map (fun p => p.1.tiles)).sum

/-- The end of the first pass (R180). A norm sum waits while 64 operations are incomplete (R241, log entry 52). -/
def endPassOne (s : State) (p : Pass) : State :=
  if passLost s then failPass s .dieLost
  else if p.normScope = 1 ∧ 64 ≤ s.exch.ops.length then s
  else if passOneBad s then failPass s .degraded
  else
    let r := passOneSum s p.gscale.toNat
    let q := { p with s := r.1, nf1 := BitVec.ofNat 64 r.2, normIn := p.normScope != 1, tiles := passTiles s }
    let s1 := setPhase (countPassOne (modUpd s (fun u => { u with pass := some q }))) 2
    if p.normScope = 1 then
      match readGroup s p.ngroup.toNat with
      | some g => startNormSum s1 q g
      | none => s
    else s1

/-- UPDATE_PASS1_END (R180): the exact sum of squares and the non-finite count are formed. -/
def execUpdatePass1End (s : State) : Host.Outcome State Fault Refusal :=
  .next (match s.upd.pass with
    | some p => if s.upd.phase = 1 ∧ engineRuns s then endPassOne s p else s
    | none => s)

/-- The scalars of every VALID group for a clip factor (R182). -/
def allScalars (s : State) (clip : Nat) : Assoc GScalars :=
  s.upd.groups.map (fun x => (x.1, groupScalars s x.2 (groupState s x.1) clip))

/-- The norm join (R181, R182): with a non-finite gradient the pass ends skipped, its GNORM and CLIP unstated: free values
(log entry 3); a poisoned group state or curve ends it DEGRADED (R250); else the second pass begins, and with it the hold
(R256). -/
def joinNorm (s : State) (p : Pass) : State :=
  if scalarsBad s ∧ p.nf1 = 0 then failPass s .degraded
  else if p.nf1 ≠ 0 then
    passDone (useFresh s 2) { p with skipped := true, gnorm := Config.free32 s.fresh, clip := Config.free32 (s.fresh + 1) }
  else
    let c := normClip p.s p.tau.toNat
    let q := { p with gnorm := BitVec.ofNat 32 c.1, clip := BitVec.ofNat 32 c.2, scalars := allScalars s c.2, tiles := 0 }
    modMem (setPhase (modUpd s (fun u => { u with pass := some q, norm := q.clip ++ q.gnorm })) 3) (fun m => { m with hold := true })

/-- NORM_JOIN (R182). -/
def execNormJoin (s : State) : Host.Outcome State Fault Refusal :=
  .next (match s.upd.pass with
    | some p => if s.upd.phase = 2 ∧ p.normIn ∧ engineRuns s then joinNorm s p else s
    | none => s)

/-! ### Panels (R186, R187, R189) -/

/-- A panel of a VALID tensor under rule O or K. -/
def panelOf (s : State) (tensor panel : Nat) : Option (Tensor × Group) :=
  match tensorOf s tensor with
  | some (t, g) => if (g.rule = .o ∨ g.rule = .k) ∧ panel < t.panels then some (t, g) else none
  | none => none

/-- Clip factor of a group in the pass. -/
def passClip (p : Pass) (gi : Nat) : Nat :=
  match look p.scalars gi with
  | some sc => sc.clip.toNat
  | none => one32

/-- Phase a of a panel reads a poisoned line. -/
def phaseABad (s : State) (t : Tensor) (g : Group) (p : Nat) : Bool :=
  (panelTiles t p).any (fun tile => freezeBad s t tile || (liveBlocks s t tile).any (fun j =>
    tileBad s g.rule t .g tile (128 * j) 128 || tileBad s g.rule t .mom1 tile (128 * j) 128))

/-- A matrix of a panel's record touches a poisoned line. -/
def kBad (s : State) (t : Tensor) (p : Nat) (x : KMat) : Bool :=
  let d := t.panelDim p
  let q := x.place d.1 d.2
  poisoned s (t.recAt p + q.1) (4 * q.2 * q.2)

/-- The service of a panel reads a poisoned line: of a K record it reads the statistics and the roots of ROOT_SLOT (R189). -/
def serviceBad (s : State) (t : Tensor) (g : Group) (p : Nat) : Bool :=
  let slot := (groupState s t.group).rootSlot
  (panelTiles t p).any (fun tile => freezeBad s t tile || (liveBlocks s t tile).any (fun j =>
    tileBad s g.rule t .mom1 tile (128 * j) 128 || (g.rule == .k && tileBad s g.rule t .g tile (128 * j) 128))) ||
  (g.rule == .k && [KMat.lst, .rst, .lr slot, .rr slot].any (kBad s t p))

/-- PANEL_SERVICE_POST (R186): phase a has ended for the panel on all four engines. -/
def execPanelServicePost (tensor panel : Nat) (s : State) : Host.Outcome State Fault Refusal :=
  .next (match s.upd.pass, panelOf s tensor panel with
    | some p, some (t, g) =>
      if s.upd.phase ≠ 3 ∨ !engineRuns s ∨ p.posted.contains (tensor, panel) then s
      else if phaseABad s t g panel then failPass s .degraded
      else countCow s (modPass (phaseA s t g p.gscale.toNat (passClip p t.group) panel)
        (fun q => { q with posted := q.posted ++ [(tensor, panel)] }))
    | _, _ => s)

/-- PANEL_SERVICE_DONE (R187, R189): DIR of the panel is written. -/
def execPanelServiceDone (tensor panel : Nat) (s : State) : Host.Outcome State Fault Refusal :=
  .next (match s.upd.pass, panelOf s tensor panel with
    | some p, some (t, g) =>
      if s.upd.phase ≠ 3 ∨ !engineRuns s ∨ !p.posted.contains (tensor, panel) ∨ p.served.contains (tensor, panel) then s
      else if serviceBad s t g panel then failPass s .degraded
      else countCow s (countDie (modPass (servicePanel s t g (groupState s t.group) p.gscale.toNat
          (passClip p t.group) panel) (fun q => { q with served := q.served ++ [(tensor, panel)] })) t.die.val
          (panelBytes s t g panel))
    | _, _ => s)

/-! ### Second pass (R183 to R186, R194) -/

/-- Every panel of rule O or K has its DIR. -/
def panelsServed (s : State) (p : Pass) : Bool :=
  (liveTensors s).all (fun q => !(q.2.rule == .o || q.2.rule == .k) ||
    (List.range q.1.panels).all (fun i => p.served.contains (q.1.idx, i)))

/-- The second pass over one tensor: the state and what its tiles add to the pass. -/
def passTwoTensor (s : State) (p : Pass) (t : Tensor) (g : Group) : State :=
  match look p.scalars t.group with
  | none => s
  | some sc => (List.range t.tiles).foldl (fun u i =>
      let o := passTwoTile u t g sc p.gscale.toNat (s.memblk.epoch.toNat + 1) i
      countDie (modPass o.s (fun q => { q with
        nf2 := satAdd q.nf2 o.nf, digest := q.digest + BitVec.ofNat 128 o.digest })) t.die.val o.bytes) s

/-- The digest of the group states that the step will commit (R194). -/
def groupsDigest (s : State) (p : Pass) : W128 :=
  let e := s.memblk.epoch.toNat + 1
  (s.upd.groups.filterMap (fun x => (look p.scalars x.1).map (fun sc =>
    BitVec.ofNat 128 (groupDigest x.1 e (nextGState x.2 (groupState s x.1) sc (s.upd.kNew.contains x.1) e))))).foldl
    (· + ·) 0

/-- The second pass reads a poisoned line. -/
def passTwoAnyBad (s : State) : Bool :=
  (liveTensors s).any (fun q => (List.range q.1.tiles).any (fun i => passTwoBad s q.1 q.2 i))

/-- Every tile of the second pass, and the digest of the groups. -/
def passTwoAll (s : State) (p : Pass) : State :=
  let s1 := (liveTensors s).foldl (fun u q => passTwoTensor u p q.1 q.2) s
  countCow s (modPass s1 (fun q => { q with digest := q.digest + groupsDigest s p, tiles := passTiles s }))

/-- UPDATE_PASS2_END (R183, R194): every tile is updated; the digest is formed and the pass ends DONE. -/
def execUpdatePass2End (s : State) : Host.Outcome State Fault Refusal :=
  .next (match s.upd.pass with
    | some p =>
      if s.upd.phase ≠ 3 ∨ !engineRuns s ∨ !panelsServed s p then s
      else if passTwoAnyBad s then failPass s .degraded
      else
        let s1 := passTwoAll s p
        match s1.upd.pass with
        | some q => passDone s1 q
        | none => s1
    | none => s)

end Sys2Proof.Machine
end

