-- ==== Sys2Proof/Machine/Fence.lean ====
section
/-! DEFINITION. Fencing of a die (R277, R278) or a stack (R254): what ends with it. -/

namespace Sys2Proof.Machine

/-- Every incomplete GRAD operation ends (R238). -/
def endGradOps (s : State) (st : Status) : State :=
  (s.exch.ops.filter (fun x => x.isGrad)).foldl (fun t x => endOp t x st) s

/-- Every incomplete collective of the controller whose SRC or DST passes a test ends (R238). -/
def endCollectives (s : State) (st : Status) (p : Nat → Bool) : State :=
  (s.exch.ops.filter (fun x => !x.isGrad && !x.own &&
    (exPages x.p).any p)).foldl (fun t x => endOp t x st) s

/-- An accepted STEP_COMMIT ends without a commit (R381); the conversions that it held go on (R149). -/
def endCommit (s : State) (st : Status) : State :=
  if !commitPending s then s else
  resumeVec <| modTwin (endLongs s (fun k => match k with
    | .stepCommit _ => true
    | _ => false) st []) (fun t => { t with waitFrom := none })

/-- A REPLAY that runs ends; MEM_FAILED stays as it was or is set (R258), and its hold ends. -/
def endReplay (s : State) (st : Status) : State :=
  if s.ckpt.replaying.isNone then s else
  let s1 := { s with ckpt := { s.ckpt with replaying := none, lastStatus := BitVec.ofNat 8 (statusCode st) } }
  endLongs (modMem s1 (fun m => { m with failed := true, hold := false })) (fun k => k == .replay) st []

/-- A capture ends otherwise than DONE: the base stays (R377). -/
def endCapture (s : State) (st : Status) : State :=
  match s.ckpt.capture with
  | none => s
  | some c =>
    endLongs { s with ckpt := { s.ckpt with capture := none, lastStatus := BitVec.ofNat 8 (statusCode st) } }
      (fun k => k == .capture) st (leBytes 8 c.bytes ++ leBytes 8 c.cow)

/-- What every fencing ends in the package (R381, R197, R238), with the word to the twin (R368) and the DIE event (R351). -/
def fenceTail (s : State) (code : Byte) (detail : List Byte) : State :=
  let s1 := endGradOps (endReplay (endCommit (failPass s .dieLost) .dieLost) .dieLost) .dieLost
  let s2 := sendSolder s1 3 0 0
  let s3 := endLongs s2 (fun k => match k with
    | .twinJoin _ _ => true
    | _ => false) .dieLost []
  raise (setTwin s3 0 5) evDie code detail

/-- A stream of a fenced die (R114): FAULTED with cause DIE_LOST, every other field of its record 0, FLAGS among them, nothing
kept. -/
def lostStream (t : Stream) : Stream :=
  { t with
    st := .faulted
    kept := []
    record := { StopRec.reset with cause := BitVec.ofNat 8 (statusCode .dieLost) }
    block := .none
    blocked := none
    synq := []
    fault := none
    roPasses := none
    nfs := false
    sat := false
    nfe := false
    deferred := none }

/-- A start held DEFERRED on a stream of a lost die is answered DIE_LOST. -/
def refuseDeferred (s : State) (n : Nat) (c : Ctx) : State :=
  match (stream s n c).deferred with
  | some p => reply s p.hdr 0x0302 .dieLost []
  | none => s

/-- Every stream of a die is lost (R114), and what the command processors wait for with it. -/
def loseStreams (s : State) (k : Nat) : State :=
  let mine := (s.clusters.filter (fun e => e.1 / 1024 == k)).map (·.1)
  let s1 := mine.foldl (fun t n => [Ctx.fwd, .bin, .bwt, .svc].foldl (fun u c => refuseDeferred u n c) t) s
  let s2 := (List.range 1024).foldl (fun t i => modCluster t (1024 * k + i) (fun c =>
    { c with streams := c.streams.map lostStream, readq := [], vecq := [], mover := [], change := none })) s1
  let s3 := { s2 with sync := { s2.sync with
    waiters := s2.sync.waiters.filter (fun w => w.cl / 1024 != k)
    barriers := s2.sync.barriers.map (fun b => { b with
      arrived := b.arrived.filter (fun n => n / 1024 != k)
      waiting := b.waiting.filter (fun w => w.1 / 1024 != k) }) } }
  endLongs s3 (fun o => match o with
    | .streamStop n => n / 4096 == k
    | _ => false) .dieLost []

/-- Waiters of live dies on words that a fencing has made unreachable complete with DIE_LOST (R278, R31). -/
def releaseLost (s : State) : State :=
  (s.sync.waiters.filter (fun w => placeLost s (masterDie w.cl) (place w.addr.toNat))).foldl
    (fun t w => synEnd t w.cl w.c .dieLost 0) s

/-- The barriers of a fenced die (R287): its BAR_MASK is 0, and every channel with a live arrival toggles with the fence
mark. -/
def fenceBarriers (s : State) (k : Nat) : State :=
  (List.range 16).foldl (fun t ch => if (barrier t ch).arrived.isEmpty then t else toggleBarrier t ch .dieLost)
    (modDie s k (fun d => { d with barMask := [] }))

/-- Words owned by the streams and engines of a die are to be orphaned (R328). -/
def orphanDie (s : State) (k : Nat) : State :=
  orphanOwners s (fun c => (streamCode c && c / 4096 == k) || (engineCode c && masterDie (engineMaster c) == some k))

/-- A packet at an end whose way on leads to or through a die that is lost; one that has begun to leave goes on. -/
def waitLost (s : State) (e : EdgeEnd) (x : MeshPkt × Nat) : Bool := x.2 == 0 && pathLost s (nearDie e) (meshTarget x.1)

/-- The mesh packets that touch or cross a fenced die (R278): those waiting at it, those that wait at its edges, those that wait
at other edges to go to it or through it, and the requests in flight to it or through it, or with a reply through it. Each completes
its request with DIE_LOST. -/
def dropMesh (s : State) (k : Nat) : State :=
  let gone := fun (r : MeshReq) => r.src == some (Fin.ofNat 4 k) || meshTarget r.pkt == some k ||
    pathLost s (r.src.map (·.val)) (meshTarget r.pkt)
  let open_ := fun (q : MeshPkt) =>
    let m := masterDie q.master.toNat
    meshTarget q == some k || pathLost s m (meshTarget q) || pathLost s (meshTarget q) m
  let mine := (edgesOf k).flatMap (fun e => (edge s e).1.txWait ++ (edge s e).2.txWait)
  let ends := allEnds.filter (fun e => !(edgesOf k).contains e.edge.val)
  let far := ends.flatMap (fun e => (linkEnd s e).txWait.filter (waitLost s e))
  let s1 := ends.foldl (fun t e => modEnd t e (fun l => { l with txWait := l.txWait.filter (fun x => !waitLost s e x) })) s
  loseMesh { s1 with waitingReqs := s1.waitingReqs.filter (fun r => !gone r) }
    ((s.waitingReqs.filter gone).map (·.pkt) ++ (mine ++ far).map (·.1) ++ s.openReqs.filter open_)

/-- A LINK_RETRAIN or EDGE_PRBS of an edge ends (R363, R456): its width, or the bit errors found. -/
def endEdgeOps (s : State) (e : Nat) (st : Status) : State :=
  let here := fun (test : Bool) (k : LongKind) => match k with
    | .edge i t => i == Fin.ofNat 8 e && t.isSome == test
    | _ => false
  let ex := (edge s e).1.exclude ||| (edge s e).2.exclude
  let errs := (List.range 32).flatMap (fun i =>
    if ex.getLsbD i then [0xFF, 0xFF, 0xFF, 0xFF] else leBytes 4 (Config.free32 (s.fresh + i)).toNat)
  if (findLong s (fun k => here false k || here true k)).isNone then s else
  endLongs (endLongs (useFresh s 32) (here false) st [BitVec.ofNat 8 (edgeWidth s e)])
    (here true) .done errs

/-- An edge of a fenced die is FENCED at both ends (R278): one that was UP is reported (R351), and what ran on it ends. -/
def fenceEdge (s : State) (e : Nat) : State :=
  let was := decide (edgeState s e = 1 ∨ edgeState s e = 2)
  let s1 := modEdge s e closeEnd
  endEdgeOps (if was then edgeEvent s1 e false else s1) e .dieLost

/-- CDk is fenced (R278); what waited for one of its edges goes on, and finds it lost. -/
def fenceDie (s : State) (k : Nat) : State :=
  if (die s k).st = .fenced then s else
  let s1 := modDie s k (fun d => { d with st := .fenced, rspSeen := [] })
  let s2 := (List.range 4).foldl (fun t i => modStack t (4 * k + i) (fun u => { u with st := .fenced })) s1
  let s3 := (edgesOf k).foldl fenceEdge (dropMesh s2 k)
  let s4 := fenceBarriers (releaseLost (loseStreams s3 k)) k
  let s5 := endCollectives (orphanDie s4 k) .dieLost (fun a => (place a).die == some k)
  fenceTail (resumeSyn (releaseHeld s5)) (Config.eventCode evDie 1) [BitVec.ofNat 8 k]

/-- A stack is fenced (R254): the die's own state does not change. -/
def fenceStack (s : State) (k : Nat) : State :=
  if (stackUnit s k).st = .fenced then s else
  let s1 := releaseLost (modStack s k (fun u => { u with st := .fenced }))
  let s2 := endCollectives s1 .dieLost (fun a => match place a with
    | .stack j _ => j == k
    | _ => false)
  fenceTail s2 (Config.eventCode evDie 2) [BitVec.ofNat 8 k]

/-- DIE_FENCE (R278): a die in service is fenced. -/
def execDieFence (k : Fin 4) (s : State) : Host.Outcome State Fault Refusal :=
  .next (if (die s k.val).on then fenceDie s k.val else s)

end Sys2Proof.Machine
end

