-- ==== Sys2Proof/Machine/Image.lean ====
section
/-! DEFINITION. Checkpoint images (R375, R376): manifests, headers, hash tables, and reading and writing an image wherever it
lies. -/

namespace Sys2Proof.Machine

/-- The checkpoint block changed. -/
def modCkpt (s : State) (f : Ckpt → Ckpt) : State := { s with ckpt := f s.ckpt }

/-! ### Manifests (R375) -/

/-- The region of a manifest entry; none when the entry breaks a rule of R375. -/
def parseRegion (addr len off kind : Nat) : Option Region :=
  let r : Region := { addr := addr, len := len, offset := off, record := kind == 1 }
  match kind with
  | 0 => if aligned addr 65536 && len % 65536 == 0 && off % 4096 == 0 && decide (0x1000000 ≤ off) &&
      (pages addr len).all (fun p => (place p).isStack && !inReserve (place p)) then some r else none
  | 1 => if addr = 0 ∧ len = 0 ∧ off = 0 then some r else none
  | _ => none

/-- No two regions overlap in the image. -/
def regionsApart : List Region → Bool
  | [] => true
  | r :: l => l.all (fun q => r.record || q.record || !spansMeet r.offset r.len q.offset q.len) && regionsApart l

/-- The regions of a manifest; none when it breaks the rules of R375. -/
def readManifest (s : State) (a n : Nat) : Option (List Region) :=
  if n < 1 ∨ 4096 < n ∨ !mapped a (32 * n) then none else
  let l := (List.range n).filterMap (fun i =>
    let b := a + 32 * i
    parseRegion (rdNat s b 8) (rdNat s (b + 8) 8) (rdNat s (b + 16) 8) (rdNat s (b + 24) 1))
  if l.length = n ∧ regionsApart l then some l else none

/-- The regions that hold bytes. -/
def dataRegions (l : List Region) : List Region := l.filter (fun r => !r.record)

/-- The manifest holds a RECORD. -/
def hasRecord (l : List Region) : Bool := l.any (fun r => r.record)

/-- Bytes of an image, from its base. -/
def imageLen (l : List Region) : Nat :=
  (dataRegions l).foldl (fun m r => max m (r.offset + r.len))
    (max (0x1000 + 32 * (dataRegions l).length) (if hasRecord l then 0x840000 else 0x1000))

/-- A region lies on a fenced die or stack. -/
def regionsLost (s : State) (l : List Region) : Bool :=
  (dataRegions l).any (fun r => (pages r.addr r.len).any (fun p => placeLost s none (place p)))

/-- The blocks of the interleaved views that a manifest covers (R260). -/
def regionBlocks (l : List Region) : List Nat := ((dataRegions l).flatMap (fun r => blocksOf r.addr r.len)).dedup

/-- The pool check (R261): every die that a region lies on has a pool, which no region overlaps. -/
def poolsOk (s : State) (l : List Region) : Bool :=
  let ks := regionBlocks l
  ks.all (fun k => (die s (k / 2 ^ 32)).cowSize != 0) &&
    (List.range 4).all (fun d => ks.all (fun k =>
      let lo := (die s d).cowBase.toNat
      let a := blockAddr (k / 2 ^ 32) (k % 2 ^ 32)
      !spansMeet lo ((die s d).cowSize.toNat * 65536) a 65536))

/-! ### Headers and hashes (R376) -/

/-- The committed digest of the committed epoch: the newest of the history, or 0 before any commit. -/
def committedDigest (s : State) : W128 :=
  match s.upd.history with
  | (_, d) :: _ => d
  | [] => 0

/-- The header of an image, 4 KiB (R376). -/
def imageHeader (s : State) (l : List Region) : List Byte :=
  slice (leBytes 4 0x43504B54 ++ leBytes 2 1 ++ leBytes 2 0x0416 ++ leBytes 8 s.memblk.epoch.toNat ++
    leBytes 16 (committedDigest s).toNat ++ leBytes 4 s.exch.layout.toNat ++
    leBytes 4 (b2n s.upd.ccActive + 2 * b2n (hasRecord l)) ++ leBytes 8 s.pkgId.toNat ++ leBytes 8 s.inv.ft.toNat ++
    leBytes 4 (dataRegions l).length) 0 4096

/-- HASH of a region (R376). -/
def regionHash (r : Region) (bs : List Byte) : List Byte := (shake128 (leBytes 8 r.offset ++ leBytes 8 r.len ++ bs) 16).take 16

/-- The generator states of an image: 128 of 16 B for each logical cluster (R376). -/
def genBytes (l : List (Nat × Nat × W128)) : List Byte :=
  (List.range 4096).flatMap (fun cl => (List.range 128).flatMap (fun lane => leBytes 16 (snapGen l cl lane).toNat))

/-- The generator states that an image holds. -/
def parseGens (b : List Byte) : List (Nat × Nat × W128) :=
  (List.range 4096).flatMap (fun cl => (List.range 128).map (fun lane =>
    (cl, lane, BitVec.ofNat 128 (leAt b (16 * (128 * cl + lane)) 16))))

/-! ### Reading an image -/

/-- Bytes of an image: in memory of the package, or as they were fetched. -/
def imageBytes (s : State) (x : XAddr) (off n : Nat) : List Byte :=
  match xPlace s x off with
  | .here a => rdBytes s a n
  | _ => (List.range n).map (fun i => Memory.read s.ckpt.fetched (off + i))

/-- An image lies in memory of the package. -/
def imageHere (s : State) (x : XAddr) : Bool :=
  match xPlace s x 0 with
  | .here _ => true
  | _ => false

/-- A part of an image in memory of the package is poisoned. -/
def imageBad (s : State) (x : XAddr) (off n : Nat) : Bool :=
  match xPlace s x off with
  | .here a => poisoned s a n
  | _ => false

/-- A part of an image that lies outside the package is asked for. -/
def fetchImage (s : State) (x : XAddr) (off n op : Nat) : State :=
  match xPlace s x off with
  | .there id a => readThere s id a n (fun o => .restore (off + o))
  | .storage p qp o => readStorage s p qp o n op
  | _ => s

/-- Nothing asked for of an image is outstanding. -/
def fetchQuiet (s : State) (op : Nat) : Bool :=
  !(s.fab.txns.any (fun t => match t.what with
    | .restore _ => true
    | _ => false)) &&
  !(s.fab.waitq.any (fun t => match t.what with
    | .restore _ => true
    | _ => false)) &&
  !(s.fab.eth.any (fun x => x.op == op))

/-- Every region is asked for, and the generator states. -/
def fetchRegions (s : State) (x : XAddr) (l : List Region) (op : Nat) : State :=
  let s1 := (dataRegions l).foldl (fun t r => fetchImage t x r.offset r.len op) s
  if hasRecord l then fetchImage s1 x 0x40000 0x800000 op else s1

/-- A page of memory that a region covers: its place in the image. -/
def regionAt (l : List Region) (p : Nat) : Option Nat :=
  (dataRegions l).findSome? (fun r => ((pages r.addr r.len).find? (fun q => keyOf q / 4096 == keyOf p / 4096)).map
    (fun q => r.offset + (q - r.addr) + p % 4096))

/-- Every page of a range is covered by a region. -/
def coversRange (l : List Region) (a n : Nat) : Bool := (pages a n).all (fun p => (regionAt l p).isSome)

/-- A range of memory restored from an image, where its manifest covers it. -/
def restoreRange (s : State) (x : XAddr) (l : List Region) (a n : Nat) : State :=
  (pagePieces a n).foldl (fun t p => match regionAt l p.1 with
    | some o => wrBytes t p.1 (imageBytes t x o p.2)
    | none => t) s

end Sys2Proof.Machine
end

