-- ==== Sys2Proof/Machine/Ckpt.lean ====
section
/-! DEFINITION. Checkpoints: CKPT_CAPTURE with its blocks under copy-on-write (R377, R260 to R262) and CKPT_RESTORE (R378). -/

namespace Sys2Proof.Machine

/-- A capture, a restore or a REPLAY is active (R377). -/
def ckptBusy (s : State) : Bool := s.ckpt.capture.isSome || s.ckpt.restore.isSome || s.ckpt.replaying.isSome

/-! ### CKPT_CAPTURE (R377) -/

/-- The decisions on a manifest's regions and the image at their targets, with the session's master ID (R353). -/
def ckptAccess (s : State) (mid : Nat) (l : List Region) (x : XAddr) (need img : Perm) : Status :=
  firstBad (xStatus s mid x (imageLen l) img ::
    (dataRegions l).map (fun r => cmdAccess s mid r.addr r.len need))

/-- The status that turns a CKPT_CAPTURE away (R377); none: accepted. -/
def captureRefused (s : State) (mid : Nat) (epoch : W64) (dest : XAddr) (manifest : W64) (n : W32) :
    Status ⊕ List Region :=
  match readManifest s manifest.toNat n.toNat with
  | none => .inl .badParam
  | some l =>
    if epoch ≠ s.memblk.epoch ∨ xBadParam s dest (imageLen l) ∨ !poolsOk s l then .inl .badParam
    else if s.memblk.failed || poisoned s manifest.toNat (32 * n.toNat) then .inl .degraded
    else if regionsLost s l then .inl .dieLost
    else if s.memblk.stepOn || ckptBusy s then .inl .busy
    else match cmdAccess s mid manifest.toNat (32 * n.toNat) .r with
      | .done => (match ckptAccess s mid l dest .r .w with
        | .done => .inr l
        | st => .inl st)
      | st => .inl st

/-- The long operation of the active capture or restore. -/
def ckptLong (s : State) : Nat :=
  match findLong s (fun k => k == .capture || k == .restore) with
  | some o => o.id
  | none => 0

/-- The cursor of the active capture or restore. -/
def ckptCursor (s : State) (n : Nat) : State := modLong s (ckptLong s) (fun o => { o with cursor := BitVec.ofNat 64 n })

/-- An accepted capture (R377): the snapshots are taken and the image's MAGIC is zeroed. -/
def beginCapture (h : CmdHdr) (dest : XAddr) (manifest : W64) (l : List Region) (s : State) : State :=
  let c : Capture := {
    hdr := h, dest := dest, manifest := manifest, regions := l, header := imageHeader s l, gens := allGens s,
    blocks := (regionBlocks l).foldl (fun a k => put a k .uncaptured) [], bytes := 0, cow := 0, image := [], bad := false,
    phase := 0, refreshing := s.upd.refreshing }
  let s1 := startLong (modCkpt s (fun k => { k with capture := some c })) h 0x0601 .capture
  reply (xWrite s1 dest 0 [0, 0, 0, 0] .capture (ckptLong s1)) h 0x0601 .inProgress []

/-- CKPT_CAPTURE (R377). -/
def doCkptCapture (h : CmdHdr) (epoch : W64) (dest : XAddr) (manifest : W64) (nreg : W32) (s : State) : State :=
  match captureRefused s h.master.toNat epoch dest manifest nreg with
  | .inl st => answer (noteAccess s st) h 0x0601 st
  | .inr l => beginCapture h dest manifest l s

/-- CKPT_CAPTURE (R377). -/
def execCkptCapture (h : CmdHdr) (epoch : W64) (dest : XAddr) (manifest : W64) (nreg : W32) (s : State) :
    Host.Outcome State Fault Refusal :=
  .next (cmdStart (.ckptCapture h epoch dest manifest nreg) h 0x0601 (doCkptCapture h epoch dest manifest nreg) s)

/-! ### Blocks (R260) -/

/-- The checkpoint engine would read poison: the pool copy of a COPIED block, or the block in place (R250). -/
def blockBad (s : State) (c : Capture) (key : Nat) : Bool :=
  match lookD c.blocks key .uncaptured with
  | .copied p => poisoned s (poolAddr s (key / 2 ^ 32) p) 65536
  | _ => poisoned s (blockAddr (key / 2 ^ 32) (key % 2 ^ 32)) 65536

/-- A block is lost with its die or stack. -/
def blockLost (s : State) (key : Nat) : Bool :=
  (pages (blockAddr (key / 2 ^ 32) (key % 2 ^ 32)) 65536).any (fun p => placeLost s none (place p))

/-- Bytes as captured, of one page of memory. -/
def capturedPage (c : Capture) (p : Nat) : List Byte :=
  match place p with
  | .stack k o =>
    let v := viewOf k o
    (List.range 4096).map (fun i => Memory.read c.image (blockKey v.1 (v.2 / 65536) * 65536 + v.2 % 65536 + i))
  | _ => []

/-- The bytes of a captured block go to their places in the image. -/
def sendBlock (s : State) (c : Capture) (key : Nat) : State :=
  let op := ckptLong s
  (dataRegions c.regions).foldl (fun t r =>
    ((pages r.addr r.len).filter (fun p => (blocksOf p 1).contains key)).foldl (fun u p =>
      let s1 := xWrite u c.dest (r.offset + (p - r.addr)) (capturedPage c p) .capture op
      ckptCursor (modCkpt s1 (fun k => { k with
        cntBytes := satAdd k.cntBytes 4096
        capture := k.capture.map (fun q => { q with bytes := q.bytes + 4096 }) })) ((match u.ckpt.capture with
          | some q => q.bytes
          | none => 0) + 4096)) t) s

/-- The stack controllers and the checkpoint engine run. -/
def ckptRuns (s : State) : Bool := iodOn s

/-- A block whose pool copy was taken is sent and becomes DONE. -/
def sendTaken (s : State) (c : Capture) (key : Nat) : State :=
  let c1 := { c with blocks := put c.blocks key .done }
  sendBlock (modCkpt s (fun k => { k with capture := some c1 })) c1 key

/-- The regions before those that a block belongs to are captured: a block is due in manifest order (R377). -/
def blockDue (c : Capture) (key : Nat) : Bool :=
  ((dataRegions c.regions).takeWhile (fun r => !(blocksOf r.addr r.len).contains key)).all (fun r =>
    (blocksOf r.addr r.len).all (fun k => look c.blocks k == some .done))

/-- The pool of a die is full: a write there that needs a copy waits (R261). -/
def poolFull (s : State) (c : Capture) (d : Nat) : Bool :=
  (die s d).cowSize != 0 && decide ((die s d).cowSize.toNat ≤ (poolUsed c d).length)

/-- The checkpoint engine may take a block next: in manifest order (R377), but with a pool full the COPIED blocks before the
UNCAPTURED ones (R261). -/
def blockNext (s : State) (c : Capture) (key : Nat) : Bool :=
  match lookD c.blocks key .uncaptured with
  | .copied _ => blockDue c key || poolFull s c (key / 2 ^ 32)
  | _ => blockDue c key && !(List.range 4).any (poolFull s c)

/-- CKPT_BLOCK_CAPTURE (R260): a block of an active capture is read, from its pool copy or in place, and becomes DONE; one
whose pool copy was taken already (R261) is sent. A block whose turn has not come (R377, R261) is left. -/
def execCkptBlockCapture (d : Fin 4) (block : Nat) (s : State) : Host.Outcome State Fault Refusal :=
  .next (match s.ckpt.capture with
    | none => s
    | some c =>
      let key := blockKey d.val block
      match look c.blocks key with
      | none => s
      | some .done => s
      | some _ =>
        if !ckptRuns s then s
        else if c.bad then endCapture s .degraded
        else if look c.blocks key = some .taken then sendTaken s c key
        else if !blockNext s c key then s
        else if blockLost s key then endCapture s .dieLost
        else if blockBad s c key then endCapture s .degraded
        else
          let s1 := captureBlock s key
          match s1.ckpt.capture with
          | some c1 => sendBlock s1 c1 key
          | none => s1)

/-- COW_BLOCK_COPY (R260): a write is about to touch an UNCAPTURED block; its quarters go to a pool block. -/
def execCowBlockCopy (d : Fin 4) (block : Nat) (s : State) : Host.Outcome State Fault Refusal :=
  .next (if ckptRuns s then cowBlock s (blockKey d.val block) else s)

/-! ### The end of a capture -/

/-- Nothing that the capture has sent awaits an answer. -/
def captureQuiet (s : State) : Bool :=
  !(s.fab.txns.any (fun t => t.what == .capture)) && !(s.fab.waitq.any (fun t => t.what == .capture)) &&
    !(s.fab.eth.any (fun x => x.op == ckptLong s))

/-- The hash table of an image (R376). -/
def hashTable (c : Capture) : List Byte :=
  (dataRegions c.regions).flatMap (fun r => leBytes 8 r.offset ++ leBytes 8 r.len ++
    regionHash r ((pages r.addr r.len).flatMap (capturedPage c)))

/-- A capture completes DONE (R377): it is recorded as the base. -/
def captureDone (s : State) (c : Capture) : State :=
  endLongs (modCkpt s (fun k => { k with
    capture := none
    lastStatus := 0
    baseValid := true
    baseEpoch := BitVec.ofNat 64 (leAt c.header 8 8)
    baseLoc := c.dest
    baseManifest := c.manifest
    baseNreg := BitVec.ofNat 13 c.regions.length
    baseCc := bit (leAt c.header 36 4) 0
    baseLen := imageLen c.regions
    baseRefreshing := c.refreshing
    cntCaptures := satAdd k.cntCaptures 1
    captured := BitVec.ofNat 64 (leAt c.header 8 8) :: k.captured })) (fun k => k == .capture) .done
    (leBytes 8 c.bytes ++ leBytes 8 c.cow)

/-- What a capture sends next once everything before is answered: hash table and generator states, then the header, then
nothing (R377). -/
def captureAdvance (s : State) : State :=
  match s.ckpt.capture with
  | none => s
  | some c =>
    if c.bad then endCapture s .degraded
    else if !captureQuiet s ∨ !(c.blocks.all (fun b => b.2 == .done)) then s else
    let op := ckptLong s
    match c.phase with
    | 0 =>
      let s1 := xWrite s c.dest 0x1000 (hashTable c) .capture op
      let s2 := if hasRecord c.regions then xWrite s1 c.dest 0x40000 (genBytes c.gens) .capture op else s1
      modCkpt s2 (fun k => { k with capture := some { c with phase := 1 } })
    | 1 => modCkpt (xWrite s c.dest 0 c.header .capture op) (fun k => { k with capture := some { c with phase := 2 } })
    | _ => captureDone s c

/-- CKPT_CAPTURE_DONE (R377): with every block DONE the header is written last and the capture completes, as far as the
answers of its writes allow. -/
def execCkptCaptureDone (s : State) : Host.Outcome State Fault Refusal :=
  .next (if ckptRuns s then captureAdvance (captureAdvance (captureAdvance s)) else s)

/-! ### CKPT_RESTORE (R378) -/

/-- The part codes of the family (R33). -/
def familyParts : List Nat := [0x0104, 0x0208, 0x0416]

/-- The header and hash table of an image agree with a restore: MAGIC, VERSION, EPOCH, PKG_GENERATION, and every REGION an entry
of equal OFFSET and LEN (R378). The header names a PART, whose generation is this package's: every member of the family (R33) is
of the one generation that R1 names. -/
def imageFits (s : State) (x : XAddr) (epoch : W64) (l : List Region) : Bool :=
  let hd := imageBytes s x 0 64
  let n := leAt hd 56 4
  let entry := fun i => imageBytes s x (0x1000 + 32 * i) 16
  leAt hd 0 4 == 0x43504B54 && leAt hd 4 2 == 1 && familyParts.contains (leAt hd 6 2) && leAt hd 8 8 == epoch.toNat &&
    (dataRegions l).all (fun r => (List.range (min n 4096)).any (fun i =>
      leAt (entry i) 0 8 == r.offset && leAt (entry i) 8 8 == r.len))

/-- HASH of a region in the image's hash table. -/
def tableHash (s : State) (x : XAddr) (r : Region) : List Byte :=
  let n := leAt (imageBytes s x 56 4) 0 4
  match (List.range (min n 4096)).find? (fun i => leAt (imageBytes s x (0x1000 + 32 * i) 8) 0 8 == r.offset) with
  | some i => imageBytes s x (0x1000 + 32 * i + 16) 16
  | none => []

/-- The status that turns a CKPT_RESTORE away (R378); none: accepted. A fenced die is no obstacle, nor is MEM_FAILED, which a
restore clears (R258). -/
def restoreRefused (s : State) (mid : Nat) (epoch : W64) (src : XAddr) (manifest : W64) (n : W32) : Status ⊕ List Region :=
  match readManifest s manifest.toNat n.toNat with
  | none => .inl .badParam
  | some l =>
    if xBadParam s src (imageLen l) ∨ !poolsOk s l ∨ (imageHere s src ∧ !imageFits s src epoch l) then .inl .badParam
    else if poisoned s manifest.toNat (32 * n.toNat) then .inl .degraded
    else if s.memblk.stepOn || ckptBusy s then .inl .busy
    else match cmdAccess s mid manifest.toNat (32 * n.toNat) .r, xStatus s mid src (imageLen l) .r with
      | .done, .done =>
        if (dataRegions l).any (fun r => cmdAccess s mid r.addr r.len .w == .denied) then .inl .denied else .inr l
      | .done, st => .inl st
      | st, _ => .inl st

/-- The dies that a restore power-cycles: every fenced die, and every die with a fenced stack (R378, R254). -/
def cycleDies (s : State) : List Nat :=
  (List.range 4).filter (fun k => dieFenced s k || (List.range 4).any (fun i => (stackUnit s (4 * k + i)).st == .fenced))

/-- Dies are power-cycled, and their edges train with cause 6 (R378,
R254). -/
def powerCycle (s : State) (ks : List Nat) : State :=
  let s1 := ks.foldl (fun t k => dieStacksUp (powerDie t k) k) s
  let es := (List.range 8).filter (fun e => (edgeDies e).any ks.contains)
  es.foldl (fun t e => startEdge t e 6) s1

/-- The restore engine starts on an image whose header fits. -/
def restoreStart (s : State) (r : Restore) : State :=
  let ks := cycleDies s
  let s1 := powerCycle (modCkpt s (fun k => { k with restore := some { r with phase := 1, cycled := ks } })) ks
  fetchRegions s1 r.src r.regions (ckptLong s1)

/-- A restore ends otherwise than DONE. -/
def endRestore (s : State) (st : Status) (bytes : Nat) : State :=
  endLongs (modCkpt s (fun k => { k with restore := none, fetched := [], lastStatus := BitVec.ofNat 8 (statusCode st) }))
    (fun k => k == .restore) st (leBytes 8 bytes)

/-- CKPT_RESTORE (R378). -/
def doCkptRestore (h : CmdHdr) (epoch : W64) (src : XAddr) (manifest : W64) (nreg : W32) (s : State) : State :=
  match restoreRefused s h.master.toNat epoch src manifest nreg with
  | .inl st => answer (noteAccess s st) h 0x0602 st
  | .inr l =>
    let r : Restore := { hdr := h, epoch := epoch, src := src, regions := l, gens := hasRecord l, phase := 0, cycled := [] }
    let s1 := reply (startLong (modCkpt s (fun k => { k with restore := some r, fetched := [] })) h 0x0602 .restore)
      h 0x0602 .inProgress []
    if imageHere s src then restoreStart s1 r
    else fetchImage s1 src 0 (0x1000 + 32 * 4096) (ckptLong s1)

/-- CKPT_RESTORE (R378). -/
def execCkptRestore (h : CmdHdr) (epoch : W64) (src : XAddr) (manifest : W64) (nreg : W32) (s : State) :
    Host.Outcome State Fault Refusal :=
  .next (cmdStart (.ckptRestore h epoch src manifest nreg) h 0x0602 (doCkptRestore h epoch src manifest nreg) s)

/-- The header of an image outside the package has arrived: the restore goes on, or ends with BAD_PARAM. -/
def restoreAdvance (s : State) : State :=
  match s.ckpt.restore with
  | some r =>
    if r.phase = 0 ∧ fetchQuiet s (ckptLong s) then
      if imageFits s r.src r.epoch r.regions then restoreStart s r else endRestore s .badParam 0
    else s
  | none => s

/-- One region copied and checked (R378): the state, and whether its hash held. A poisoned line of the image does not. -/
def restoreRegion (s : State) (x : XAddr) (r : Region) : State × Bool :=
  let bs := imageBytes s x r.offset r.len
  let s1 := ckptCursor (modCkpt (wrBytes s r.addr bs) (fun k => { k with cntBytes := satAdd k.cntBytes r.len }))
    (match findLong s (fun k => k == .restore) with
     | some o => o.cursor.toNat + r.len
     | none => r.len)
  (s1, !imageBad s x r.offset r.len && regionHash r bs == tableHash s x r)

/-- The regions in manifest order, up to the first whose hash fails. -/
def restoreRegions (s : State) (x : XAddr) : List Region → State × Bool
  | [] => (s, true)
  | r :: l =>
    let q := restoreRegion s x r
    if q.2 then restoreRegions q.1 x l else q

/-- What the group state array is still to take of a VALID group after a restore (R177): nothing where the manifest covers the
array, but that a group which no commit had updated starts as R179 gives; elsewhere what it was to take before (log entry 58). -/
def restoredGState (s : State) (l : List Region) (gi : Nat) : Option GState :=
  if !coversRange l (gstateAt s gi) 32 then look s.upd.gstate gi
  else if (storedGState s gi).steps = 0 then some GState.start else none

/-- Step 3 to 5 of R378. -/
def restoreFinish (s : State) (r : Restore) : State :=
  let hd := imageBytes s r.src 0 64
  let s1 := if r.gens then setGens s (parseGens (imageBytes s r.src 0x40000 0x800000)) else s
  let gs := s1.upd.groups.filterMap (fun g => (restoredGState s1 r.regions g.1).map (fun st => (g.1, st)))
  let s2 := modUpd (modMem s1 (fun m => { m with epoch := r.epoch, failed := false })) (fun u => { u with
    ccActive := bit (leAt hd 36 4) 0
    gstate := gs
    kNew := newKGroups { s1 with upd := { s1.upd with gstate := gs } }
    history := [(r.epoch, BitVec.ofNat 128 (leAt hd 16 16))] })
  let s3 := modTwin (modExch { s2 with guard := s2.guard.emptied } (fun e => { e with log := [] }))
    (fun t => { t with log := [] })
  modCkpt s3 (fun k => { k with restore := none, baseValid := false, fetched := [], lastStatus := 0 })

/-- Bytes that a restore has restored. -/
def restoredBytes (s : State) : Nat :=
  match findLong s (fun k => k == .restore) with
  | some o => o.cursor.toNat
  | none => 0

/-- Of the dies that a restore has power-cycled, those that failed to come up are fenced, and so are their stacks that did
(R378). -/
def cycleFailed (s : State) (ks : List Nat) (diesUp stacksUp : List Bool) : State :=
  ks.foldl (fun t k =>
    if !diesUp.getD k true then fenceDie t k
    else ((List.range 4).filter (fun i => !stacksUp.getD (4 * k + i) true)).foldl (fun u i => fenceStack u (4 * k + i)) t) s

/-- CKPT_RESTORE_DONE (R378): with every power-cycled die up again and the image at hand, the regions are restored and checked,
and the restore completes; a die or stack that failed to come up ends it. -/
def execCkptRestoreDone (diesUp stacksUp : List Bool) (s : State) : Host.Outcome State Fault Refusal :=
  .next (match s.ckpt.restore with
    | none => s
    | some r =>
      if r.phase = 0 ∨ !ckptRuns s ∨ !fetchQuiet s (ckptLong s) then s
      else if anyFenced (cycleFailed s r.cycled diesUp stacksUp) then
        endRestore (cycleFailed s r.cycled diesUp stacksUp) .dieLost (restoredBytes s)
      else if s.dies.toList.any (fun d => d.on && d.st == .off) then s
      else
        let q := restoreRegions s r.src (dataRegions r.regions)
        if q.2 then
          let n := restoredBytes q.1
          endLongs (restoreFinish q.1 r) (fun k => k == .restore) .done (leBytes 8 n)
        else endRestore (modMem q.1 (fun m => { m with failed := true })) .degraded (restoredBytes q.1))

end Sys2Proof.Machine
end

