-- ==== Sys2Proof/Machine/Time.lean ====
section
/-! DEFINITION. Fabric Time (R36 to R44, R463) and its transfer over the ports (R312). -/

namespace Sys2Proof.Machine

/-! ### Discipline -/

/-- 12.5 ns in units of 1/20,000,000 ns (R41). -/
def holdLimit : Nat := 250000000

/-- Invar changed. -/
def modInvar (s : State) (f : Invar → Invar) : State := { s with inv := f s.inv }

/-- Invar enters FREE (R41, R463): no source, depth unknown. -/
def ftFree (s : State) : State :=
  setFtState (modInvar s (fun v => { v with src := 0xFF, depth := 0xFF, slew := 0 })) 0

/-- A source is followed whose offset converges (R41, R463): ACQUIRE, with no depth of what was followed before. -/
def ftAcquire (s : State) (src : Byte) : State := setFtState (modInvar s (fun v => { v with src := src, depth := 0xFF })) 1

/-- A correction to slew away (R37): one of 1,000,000 ns or more is left to TIME_SET. -/
def slewTo (s : State) (c : Int) : State :=
  if c.natAbs < 1000000 then modInvar s (fun v => { v with slew := c }) else s

/-- An offset to the source followed that is too far for the state it would give is slewed away in ACQUIRE (R37, R41); one of
1,000,000 ns or more waits there for TIME_SET. -/
def ftConverge (s : State) (src : Byte) (off : Int) : State := ftAcquire (slewTo s off) src

/-- Invar follows a source at a depth (R40, R41): LOCKED, or COARSE above depth 7. FT_ERR_EST is an estimate that the
manual does not give: a free value within the bound of R40 (log entries 3 and 11). -/
def ftLock (s : State) (src depth : Nat) : State :=
  let bound := 40000000 + 30000000 * depth
  let e := Config.freeNat s.fresh % (bound + 1)
  setFtState (useFresh (modInvar s (fun v => { v with
    src := BitVec.ofNat 8 src, depth := BitVec.ofNat 8 depth, err := e })) 1) (if depth ≤ 7 then 3 else 2)

/-- The compensated FT of a TIME_IN edge taken now (R39, R42). -/
def edgeTime (s : State) : Int := (now s : Int) - s.inv.timeinDelay.toInt

/-- The whole second nearest to an instant. -/
def nearestSecond (t : Int) : Int := (t + 500000000).fdiv 1000000000 * 1000000000

/-- TIME_IN_EDGE (R39): an edge more than 1,000 ns off is ignored and counted, and the third in a row takes LOCKED to
ACQUIRE; another edge disciplines FT's phase while TIME_IN is the parent. LOCKED needs the seconds count too, from 1588 or TIME_SET;
until then, and until the phase is within the 2 ns of R40, Invar is in ACQUIRE, where FT_DEPTH reads 0xFF (log entry 11). -/
def execTimeInEdge (s : State) : Host.Outcome State Fault Refusal :=
  .next (
    if !s.inv.timeinEn then s else
    let t := edgeTime s
    let off := nearestSecond t - t
    if 1000 < off.natAbs then
      let s1 := modInvar s (fun v => { v with cntTimeinIgn := satAdd v.cntTimeinIgn 1, ignoredRun := v.ignoredRun + 1 })
      if s1.inv.ignoredRun = 3 then
        (let s2 := modInvar s1 (fun v => { v with ignoredRun := 0 })
         if s2.inv.state = 3 then ftAcquire s2 s2.inv.parent else s2)
      else s1
    else
      let s1 := modInvar s (fun v => { v with ignoredRun := 0 })
      if s.inv.parent ≠ 0xFE then s1
      else if off.natAbs ≤ 2 && s1.inv.seconds then ftLock (slewTo s1 off) 0xFE 0
      else ftConverge s1 0xFE off)

/-- IEEE 1588 disciplines FT (R41, R463): COARSE, with FT_SRC 0xFD, once its offset is within 250 ns; until then ACQUIRE with the
parent as the source. DESIGN CHOICE (log entry 11): FT_DEPTH reads 0xFF, unknown, while 1588 is followed, for which the manual
gives no depth. -/
def ftCoarse (s : State) (m : PtpInfo) : State :=
  if m.offset.natAbs ≤ 250 then
    setFtState (modInvar (slewTo s m.offset) (fun v => { v with
      src := 0xFD, depth := 0xFF, err := min m.errNs 65535 * 20000000 })) 2
  else ftConverge s s.inv.parent m.offset

/-- PTP_MESSAGE (R40, R41, R463): IEEE 1588 gives the seconds, and a coarse offset to a package whose parent it is, or whose parent
TIME_IN has not locked. While a lost TIME_IN is held over, it gives no offset: FT_ERR_EST rises until FREE (R41). -/
def execPtpMessage (m : PtpInfo) (s : State) : Host.Outcome State Fault Refusal :=
  .next (
    if !s.inv.en1588 || !vgetD s.tap.mgtUp m.mgt.val false then s
    else
      let s1 := modInvar s (fun v => { v with seconds := v.seconds || decide (m.offset.natAbs < 1000000) })
      if s.inv.parent = 0xFD ∨ s.inv.parent = 0xFE ∧ s.inv.state ≠ 3 ∧ s.inv.state ≠ 4 then ftCoarse s1 m else s1)

/-- FT_ERR_EST_THRESHOLD (R41): HOLDOVER ends in FREE once the estimate passes 12.5 ns. -/
def ftThreshold (s : State) : State :=
  if s.inv.state = 4 ∧ holdLimit < s.inv.err then ftFree s else s

/-- FT_ERR_EST_THRESHOLD (R41). -/
def execFtErrEstThreshold (s : State) : Host.Outcome State Fault Refusal := .next (ftThreshold s)

/-- The parent is lost (R41): HOLDOVER, from which FT_ERR_EST rises, and FREE at once when the estimate is above
12.5 ns already. -/
def parentLost (s : State) : State :=
  if s.inv.parent ≠ 0xFF ∧ 1 ≤ s.inv.state.toNat ∧ s.inv.state.toNat ≤ 3 then
    ftThreshold (setFtState (modInvar s (fun v => { v with slew := 0, src := v.parent })) 4)
  else s

/-- FT_PARENT_LOST (R41). -/
def execFtParentLost (s : State) : Host.Outcome State Fault Refusal := .next (parentLost s)

/-- FT stands at a whole second, or slewing has just moved it past one (R43, R445: the edge is within 1 ns of the instant). -/
def onSecond (s : State) : Bool :=
  now s % 1000000000 == 0 || (now s % 1000000000 == 1 && s.inv.slewAge == 0 && s.inv.timeOutUntil.isNone)

/-- TIME_OUT_PULSE (R43): high for 10,000 ns from every whole second of FT. -/
def execTimeOutPulse (s : State) : Host.Outcome State Fault Refusal :=
  .next (if onSecond s then modInvar s (fun v => { v with timeOutUntil := some (v.clk + 10000) }) else s)

/-! ### Time transfer (R312) -/

/-- The stamp of an instant at a port: FT with FAB_TT_ASYM, in units of 1/16 ns, rounded down to a whole ns. -/
def portStamp (s : State) (p : Nat) : W64 :=
  BitVec.ofInt 64 ((now s : Int) + (port s p).asym.toInt.fdiv 16)

/-- FT less the local clock: the time line that a stamp lies on. Slewing and TIME_SET move it. -/
def timeLine (s : State) : W64 := s.inv.ft - s.inv.clk

/-- What FT has been moved by since a stamp of this end was taken (R37, R44): DESIGN CHOICE (log entry 11), the manual does not say
what becomes of the stamps held at a correction; the model reads them on the time line of now. -/
def lineShift (s : State) (line : W64) : Int := (timeLine s - line).toInt

/-- The payload of a TIME flit (R312). -/
def timePayload (f : TimeFlit) : List Byte :=
  leBytes 8 f.txPrev.toNat ++ leBytes 8 f.rxLast.toNat ++ leBytes 4 f.tseq.toNat ++ leBytes 4 f.rseq.toNat ++
    List.replicate 8 0

/-- A link-local packet of a TIME or CTRL flit (R292, R298). -/
def linkPkt (s : State) (p cls : Nat) (payload : List Byte) : Pkt :=
  sealPkt { mkReq (port s p).peerId cls 0 0 payload.length payload with src := s.pkgId, incarn := s.fab.incarn }

/-- TIME_FLIT_SEND (R312): while FT_LINK_EN is 1, a port in UP or RAW sends its TIME flit. -/
def execTimeFlitSend (p : Fin 24) (s : State) : Host.Outcome State Fault Refusal :=
  .next (
    let q := port s p.val
    if !s.inv.linkEn || !q.carries then s else
    let f : TimeFlit := { txPrev := q.txStamp, rxLast := q.rxLast, tseq := q.tseq + 1, rseq := q.rseq }
    modPort s p.val (fun q => putFlit { q with
        tseq := f.tseq, prevTxStamp := q.txStamp, prevTxLine := q.txLine, txStamp := portStamp s p.val, txLine := timeLine s }
      2 0 false false 0xFF (pktBytes (linkPkt s p.val 4 (timePayload f)))))

/-- The offset to the partner from one exchange (R312): t1 is this end's departure that the partner stamped at t2, t3 the
partner's previous departure, stamped here at t4. Own stamps count on the time line of now. The half is rounded down. -/
def ttOffset (s : State) (q : Port) (f : TimeFlit) : Option Int :=
  let t1 := if f.rseq = q.tseq then some ((q.txStamp.toNat : Int) + lineShift s q.txLine)
    else if f.rseq + 1 = q.tseq then some ((q.prevTxStamp.toNat : Int) + lineShift s q.prevTxLine) else none
  match t1 with
  | some t1 =>
    if f.rseq ≠ 0 ∧ q.rseq ≠ 0 ∧ q.rseq + 1 = f.tseq then
      some (((f.rxLast.toNat : Int) - t1 - ((q.rxLast.toNat : Int) + lineShift s q.rxLine - f.txPrev.toNat)).fdiv 2)
    else none
  | none => none

/-- TIME_FLIT_RECEIVE (R312, R40, R463): the flit is stamped and gives the offset to the partner; from the parent port the
offset is applied by slewing. Once it is within the 1.5 ns of a hop, Invar enters the state of its depth, which the manual's TIME
flit does not carry: a free value; until then it is in ACQUIRE (log entry 11). -/
def execTimeFlitReceive (p : Fin 24) (f : TimeFlit) (s : State) : Host.Outcome State Fault Refusal :=
  .next (
    let q := port s p.val
    if !s.inv.linkEn || !q.carries then s else
    let off := ttOffset s q f
    let s1 := modPort s p.val (fun q => { q with
      rxLast := portStamp s p.val, rxLine := timeLine s, rseq := f.tseq, offset := off.orElse (fun _ => q.offset)
      offLine := if off.isSome then timeLine s else q.offLine })
    match off with
    | some o =>
      if s.inv.parent.toNat ≠ p.val then s1
      else if o.natAbs ≤ 1 then ftLock (slewTo (useFresh s1 1) o) p.val (1 + Config.freeNat s.fresh % 254)
      else ftConverge s1 s.inv.parent o
    | none => s1)

/-! ### FT_CTL, FT_TICK and the other registers of Invar (R42, R43, R463) -/

/-- The values of FT_PARENT (R42). -/
def parentOk (v : Nat) : Bool := v ≤ 23 || v == 0xFD || v == 0xFE || v == 0xFF

/-- A change of FT_PARENT (R463): no state of the old parent carries over. -/
def changeParent (s : State) (v : Byte) : State :=
  let s1 := modInvar s (fun i => { i with parent := v, ignoredRun := 0 })
  if v = 0xFF then ftFree s1
  else
    let s2 := ftAcquire (modInvar s1 (fun i => { i with slew := 0 })) v
    match (port s v.toNat).offset with
    | some o => if v.toNat < 24 then slewTo s2 (o - lineShift s2 (port s v.toNat).offLine) else s2
    | none => s2

/-- A write of FT_CTL (R42, R463). -/
def writeFtCtl (s : State) (v : Nat) : State × Status :=
  let p := bits v 15 8
  if !parentOk p then (s, .badParam) else
  let s1 := modInvar s (fun i => { i with timeinEn := bit v 2, en1588 := bit v 1, linkEn := bit v 0 })
  (if s.inv.parent.toNat = p then s1 else changeParent s1 (BitVec.ofNat 8 p), .done)

/-- A write of FT_TICK (R43): the value is checked before the state. -/
def writeFtTick (s : State) (v : Nat) : State × Status :=
  let n := v % 2 ^ 32
  if n < 250 ∨ 1000000000 % n ≠ 0 then (s, .badParam)
  else if !s.cmd.schedule.isEmpty then (s, .busy)
  else (modInvar s (fun i => { i with tickNs := BitVec.ofNat 32 n }), .done)

/-! ### TIME_SET and TIME_QUERY (R44) -/

/-- TIME_SET (R44, R37). Stamps and offsets taken before it keep the time line they were taken on (DESIGN CHOICE, log entry 11). -/
def doTimeSet (h : CmdHdr) (ft : W64) (s : State) : State :=
  if s.inv.state = 3 ∨ s.inv.state = 4 ∨ !s.cmd.schedule.isEmpty ∨ anyRuns s then answer s h 0x0504 .busy
  else
    let s1 := raiseOpen (modInvar s (fun v => { v with ft := ft, slew := 0, seconds := true })) evTime 2 (leBytes 8 ft.toNat)
    let s2 := if s.inv.parent = 0xFF then ftFree s1 else ftAcquire s1 s.inv.parent
    answer s2 h 0x0504 .done

/-- TIME_SET (R44). -/
def execTimeSet (h : CmdHdr) (ft : W64) (s : State) : Host.Outcome State Fault Refusal :=
  .next (cmdStart (.timeSet h ft) h 0x0504 (doTimeSet h ft) s)

/-- TIME_QUERY (R44): FT_NOW, FT_STATUS and the ingress stamp. -/
def doTimeQuery (h : CmdHdr) (s : State) : State :=
  reply s h 0x0505 .done (leBytes 8 (now s) ++ leBytes 8 (readInvar s 8) ++ leBytes 8 h.stamp.toNat)

/-- TIME_QUERY (R44). -/
def execTimeQuery (h : CmdHdr) (s : State) : Host.Outcome State Fault Refusal :=
  .next (cmdStart (.timeQuery h) h 0x0505 (doTimeQuery h) s)

end Sys2Proof.Machine
end

