-- ==== Sys2Proof/Machine/Port.lean ====
section
/-! DEFINITION. Fabric ports: training (R295), going DOWN (R296), flits and link retry (R292, R294), IDENT, and the packets
of a receive stream. -/

namespace Sys2Proof.Machine

/-! ### Re-sending (R308) -/

/-- The FAB_TO_E2E time in ns. -/
def toE2eNs (s : State) : Nat := s.fab.toE2e.toNat * 1000

/-- A line multicast goes again to each member that has not answered, as a unicast on its own flow with a new SEQ (R310). -/
def resendLine (s : State) (t : Txn) (dsts : List W16) : State :=
  let s1 := { s with fab := { s.fab with cntResend := satAdd s.fab.cntResend dsts.length } }
  dsts.foldl (fun u m => sendReq u (mkReq m t.pkt.cls.toNat t.pkt.op.toNat t.pkt.addr.toNat t.pkt.plen.toNat t.pkt.payload)
    t.what) s1

/-- A transaction changed. -/
def modTxn (s : State) (tag : W16) (f : Txn → Txn) : State :=
  { s with fab := { s.fab with txns := s.fab.txns.map (fun t => if t.tag = tag then f t else t) } }

/-- A transaction sent again with its SEQ, TAG and payload, and E2E set (R308); its CUM is that of now (R297). -/
def resendTxn (s : State) (tag : W16) : State :=
  match s.fab.txns.find? (fun t => t.tag == tag) with
  | none => s
  | some t =>
    if t.pkt.mc then
      resendLine (if t.mcBusy.isEmpty then endTxn s tag else modTxn s tag (fun x => { x with mcWait := [] })) t t.mcWait
    else
    let k := sealPkt { t.pkt with e2e := true, cum := flowCum s (sendFlow s t.pkt.dst) }
    let t1 := { t with pkt := k, sent := s.inv.clk, resends := t.resends + 1 }
    sendOwn { s with fab := { s.fab with
      cntResend := satAdd s.fab.cntResend 1
      sends := s.fab.sends.map (fun f => if f.dst = t.pkt.dst then { f with lastActive := s.inv.clk } else f)
      txns := s.fab.txns.map (fun x => if x.tag = tag then t1 else x) } } k

/-- A send flow enters E2E: every request of it unanswered for FAB_TO_E2E is sent again (R308). A flow that Dark has emptied with
requests left to answer starts anew. -/
def enterE2e (s : State) (dst : W16) : State :=
  let s1 := { s with fab := { s.fab with
    sends := putFlow s.fab.sends { sendFlow s dst with e2e := true, lastActive := s.inv.clk } } }
  ((flowOut s dst).filter (fun t => decide (t.sent.toNat + toE2eNs s ≤ clk s))).foldl
    (fun u t => resendTxn u t.tag) s1

/-! ### Going DOWN (R296) -/

/-- The packets that a port still holds: those with flits in its replay buffer, then those queued, each once. -/
def portPackets (p : Port) : List OutPkt :=
  let l := p.replay.flatMap (fun f => f.pkts) ++ p.outq.map (fun o => { o with sent := 0 })
  l.reverse.dedup.reverse

/-- A packet held in the package for more than 1 ms (R307); class TWIN is not routed (R298). -/
def heldLong (s : State) (cls : BitVec 4) (since : W64) : Bool := cls != 3 && decide (since.toNat + 1000000 < clk s)

/-- A packet routed again whole (R296, R301): one of this package by its own choice of port, another by the route table. -/
def rerouteOne (s : State) (o : OutPkt) : State :=
  if heldLong s o.pkt.cls o.since then dropNoRoute s else
  match (if o.pkt.src = s.pkgId then egress s o.pkt else routePort s o.pkt.dst.toNat) with
  | some p => queueAt s p o
  | none => dropNoRoute s

/-- A port with its link state cleared. -/
def clearLink (p : Port) : Port :=
  { p with rxExpect := 0, nakOut := false, nakOwed := false, ackOwed := false, nakFrom := none, txNext := 0, replay := [],
           outq := [], credits := Vector.replicate 4 0, rxStream := Vector.replicate 4 [], rxPart := Vector.replicate 4 [],
           rxHeld := p.rxHeld.filter (fun h => decide (4 ≤ h.2)), owed := Vector.replicate 4 0, lanes := 0, offset := none }

/-- The flits of whole packets that wait in the receive buffers of a port that goes DOWN: they stand there still (R296, R316), and no
credit is owed for them to the next partner. -/
def stillHeld (s : State) (p : Nat) (q : Port) : List (Nat × Nat) :=
  (q.rxHeld.filter (fun h => s.fab.inbox.any (fun e => e.port.val == p && e.flits.contains h.1))).map (fun h => (h.1, h.2 % 4 + 4))

/-- The route entry of a destination names a port as PRI (R301). -/
def priIs (s : State) (dst p : Nat) : Bool := bit (routeEntry s dst) 31 && bits (routeEntry s dst) 23 16 == p

/-- The LINK_RETRAINs of a port end with the width that it reached, 0 when its training failed (R363, R296, log entry 17). -/
def endPortOps (s : State) (p width : Nat) : State :=
  endLongs s (fun k => match k with
    | .port q false _ => q.val == p
    | _ => false) .done [BitVec.ofNat 8 width]

/-- A port leaves its state for another with a cause (R296, R316): its packets are routed again, a packet partly received
is discarded, and the flows that name it as PRI enter E2E. -/
def portLeave (s : State) (p : Nat) (st : Nat) (cause : Option Nat) : State :=
  let q := port s p
  let held := portPackets q
  let s0 := modPort s p (fun q => { clearLink q with
    rxHeld := stillHeld s p q
    pstate := BitVec.ofNat 3 st
    retryAt := none
    downCause := match cause with
      | some c => BitVec.ofNat 8 c
      | none => q.downCause })
  let s1 := if st = 0 ∨ st = 7 then endPortOps s0 p 0 else s0
  if !q.isUp then s1 else
  let s2 := raiseOpen s1 evLink 1 [BitVec.ofNat 8 p, BitVec.ofNat 8 st]
  let s3 := held.foldl rerouteOne s2
  (s3.fab.sends.filter (fun f => !f.e2e && priIs s f.dst.toNat p)).foldl (fun u f => enterE2e u f.dst) s3

/-- The training state from which a port starts: DETECT in FABRIC mode, DOWN else (R295). -/
def startState (p : Port) : Nat := if p.mode = 1 then 1 else 0

/-- A port goes DOWN and restarts at DETECT (R296). -/
def portDown (s : State) (p cause : Nat) : State := portLeave s p (startState (port s p)) (some cause)

/-! ### Training and IDENT (R295) -/

/-- The checks of R295 on the IDENT of the partner. -/
def identOk (q : Port) (p : Nat) : Bool :=
  if p = 22 ∨ p = 23 then q.peerPort.toNat == p && q.peerPart == 0x0416
  else q.peerPort != 22 && q.peerPort != 23

/-- A port enters service (R295): every pair has the credits of an empty receiver. -/
def portUp (s : State) (p : Nat) : State :=
  let s1 := modPort s p (fun q => { q with pstate := if q.raw then 6 else 5, credits := Vector.replicate 4 256 })
  let s2 := modPort (raiseOpen s1 evLink 2 [BitVec.ofNat 8 p]) p pump
  endPortOps s2 p (port s p).lanes.toNat

/-- The ports may train: bring-up has reached stage 6, and the IOD domain is on (R295, R430). -/
def portsOn (s : State) : Bool := decide (6 ≤ s.boot.stage.toNat) && iodOn s

/-- FAB_SIGNAL_DETECT (R295): signal on at least 4 lanes takes DETECT to EQUALISE, unless the port waits out the second
after a budget failure. -/
def execFabSignalDetect (p : Fin 24) (lanes : Nat) (s : State) : Host.Outcome State Fault Refusal :=
  .next (
    let q := port s p.val
    if portsOn s && q.mode == 1 && q.pstate == 1 && q.retryAt.isNone && decide (4 ≤ lanes) then
      modPort s p.val (fun q => { q with pstate := 2 })
    else s)

/-- The lanes that ALIGN settles on (R295): 0 to 7, else 0 to 3, else 4 to 7. -/
def alignLanes (m : Byte) : Nat :=
  if m = 0xFF then 8 else if m.toNat % 16 = 15 then 4 else if m.toNat / 16 = 15 then 4 else 0

/-- A port exceeds a budget (R295): back to DETECT, counted, to try again after 1 s. -/
def portBudget (s : State) (p : Nat) : State :=
  let s1 := modPort s p (fun q => { clearLink q with pstate := 1, train := satAdd q.train 1,
                                                     retryAt := some (s.inv.clk + 1000000000), overran := true })
  endPortOps s1 p 0

/-- The payload of IDENT (R295), in the order of the manual's list (log entry 6). -/
def identPayload (s : State) (p : Nat) : List Byte :=
  leBytes 2 s.pkgId.toNat ++ [BitVec.ofNat 8 p, 0] ++ leBytes 2 0x0416 ++ [s.fab.incarn, 0] ++ List.replicate 8 0

/-- An IDENT CTRL flit leaves a port (R295). -/
def sendIdent (s : State) (p : Nat) : State :=
  modPort s p (fun q => putFlit q 3 0 false false 0xFF (pktBytes (linkPkt s p 5 (identPayload s p))))

/-- FAB_TRAIN_STAGE_END (R295): the state's work is done, or its budget ran out. -/
def execFabTrainStageEnd (p : Fin 24) (r : PortStage) (s : State) : Host.Outcome State Fault Refusal :=
  .next (
    let q := port s p.val
    if !portsOn s || q.mode != 1 || !(decide (2 ≤ q.pstate.toNat) && decide (q.pstate.toNat ≤ 4)) then s else
    match r with
    | .budget => portBudget s p.val
    | .passed m =>
      match q.pstate.toNat with
      | 2 => modPort s p.val (fun q => { q with pstate := 3 })
      | 3 => if alignLanes m = 0 then portBudget s p.val else
        sendIdent (modPort s p.val (fun q => { q with pstate := 4, lanes := BitVec.ofNat 4 (alignLanes m), identIn := false }))
          p.val
      | _ => if !q.identIn then s
             else if identOk q p.val then portUp s p.val else portLeave s p.val 7 (some 4))

/-- FAB_TRAIN_RETRY_TIMER (R295): 1 s after a budget failure the port may try again. -/
def execFabTrainRetryTimer (p : Fin 24) (s : State) : Host.Outcome State Fault Refusal :=
  .next (match (port s p.val).retryAt with
    | some t => if t.toNat ≤ clk s then modPort s p.val (fun q => { q with retryAt := none }) else s
    | none => s)

/-- FAB_IDENT_RECEIVE (R295): the partner's IDENT is taken into FAB_Pn_PEER, and a check that fails in service takes the
port to FAULT. -/
def execFabIdentReceive (p : Fin 24) (i : Ident) (s : State) : Host.Outcome State Fault Refusal :=
  .next (
    let q := port s p.val
    if q.mode != 1 || !(decide (4 ≤ q.pstate.toNat) && decide (q.pstate.toNat ≤ 6)) then s else
    let s1 := modPort s p.val (fun q => { q with peerId := i.pkgId, peerPort := i.port, peerPart := i.part,
                                                 peerIncarn := i.incarn, identIn := true })
    if q.isUp && !identOk (port s1 p.val) p.val then portLeave s1 p.val 7 (some 4) else s1)

/-- FAB_IDENT_SEND (R295): a port in service sends its IDENT. -/
def execFabIdentSend (p : Fin 24) (s : State) : Host.Outcome State Fault Refusal :=
  .next (if (port s p.val).carries then sendIdent s p.val else s)

/-- Every port in service sends IDENT after a change of PKG_ID or INCARN (R295). -/
def identAll (s : State) : State :=
  (List.range 24).foldl (fun t p => if (port t p).carries then sendIdent t p else t) s

/-- FAB_PORT_DOWN (R296): loss of signal or the watchdog takes a port in service DOWN. -/
def execFabPortDown (p : Fin 24) (cause : DownCause) (s : State) : Host.Outcome State Fault Refusal :=
  .next (if !(port s p.val).carries then s else
    portDown s p.val (match cause with
      | .signal => 1
      | .watchdog => 2))

/-- A packet that waits to leave is dropped after 1 ms; one whose first bytes are in flits goes on (log entry 64). -/
def outOld (s : State) (o : OutPkt) : Bool := o.sent == 0 && heldLong s o.pkt.cls o.since

/-- A packet received on a port that has waited there for 1 ms. -/
def inOld (s : State) (p : Fin 24) (e : InPkt) : Bool := e.port == p && heldLong s e.pkt.cls e.at_

/-- Entries of the receive buffers leave them (R294): the credits of the flits that no other packet and no partly received one
still needs are owed to the partner, and go out. -/
def leaveBuffers (s : State) (p : Fin 24) (gone : InPkt → Bool) : State :=
  let left := s.fab.inbox.filter (fun e => !gone e)
  let used := fun (q : Port) (i : Nat) =>
    left.any (fun e => e.port == p && e.flits.contains i) || q.rxPart.toList.any (fun l => l.contains i)
  let s1 := modPort s p.val (fun q => flushOwed { q with
    rxHeld := q.rxHeld.filter (fun h => used q h.1)
    owed := (q.rxHeld.filter (fun h => !used q h.1 && decide (h.2 < 4))).foldl (fun v h => vmod v h.2 (· + 1)) q.owed })
  { s1 with fab := { s1.fab with inbox := left } }

/-- FAB_HOLD_TIMEOUT (R307): packets held for more than 1 ms are dropped and counted. -/
def execFabHoldTimeout (p : Fin 24) (s : State) : Host.Outcome State Fault Refusal :=
  .next (
    let n := ((port s p.val).outq.filter (outOld s)).length + (s.fab.inbox.filter (inOld s p)).length
    let s1 := leaveBuffers (modPort s p.val (fun q => { q with outq := q.outq.filter (fun o => !outOld s o) })) p (inOld s p)
    { s1 with fab := { s1.fab with cntNoroute := satAdd s.fab.cntNoroute n } })

/-! ### Flits (R292, R294) -/

/-- Distance of one FSEQ from another, modulo 4,096. -/
def fseqDist (a b : BitVec 12) : Nat := (b - a).toNat

/-- The flits up to and with an acknowledged one leave the replay buffer. -/
def ackFlits (p : Port) (a : BitVec 12) : Port :=
  match p.replay with
  | [] => p
  | f :: _ =>
    let n := fseqDist f.fseq a + 1
    if n ≤ p.replay.length then { p with replay := p.replay.drop n } else p

/-- The whole packets at the front of a received stream, and the rest: a packet begins on a 16 B boundary, and a rest of
zeros alone is fill (log entry 6). -/
def cutPackets : Nat → List Byte → List Pkt × List Byte
  | 0, l => ([], l)
  | n + 1, l =>
    if l.all (· == 0) then ([], [])
    else if l.length < 32 then ([], l)
    else
      let k := parsePkt l
      let len := 32 + roundUp (payloadLen k.cls.toNat k.op.toNat k.plen.toNat) 16
      if l.length < len then ([], l) else
      let r := cutPackets n (l.drop len)
      (k :: r.1, r.2)

/-- A flit stands in the receive buffer of its pair (R294, R316). -/
def bufferFlit (q : Port) (i : Nat) : Port :=
  let r := { q with rxHeld := q.rxHeld ++ [(q.rxCount, i)], rxCount := q.rxCount + 1 }
  let top := fun (m : W16) (vn : Bool) => BitVec.ofNat 16 (max m.toNat (min (vnHeld r vn) 65535))
  { r with qmaxReq := top q.qmaxReq false, qmaxRsp := top q.qmaxRsp true }

/-- A DATA flit accepted (R294): its body joins the stream of its pair, and the packets that are whole wait in the receive buffers
with the stamp of the flit in which each began (R309). A flit that holds nothing more to come is free at once. -/
def acceptData (s : State) (p : Fin 24) (vn lane : Bool) (hdrOff : Nat) (body : List Byte) : State :=
  let q := port s p.val
  let i := pairIdx vn lane
  let id := q.rxCount
  let old := vgetD q.rxStream i []
  let part := vgetD q.rxPart i []
  let new := if old.isEmpty then (if hdrOff = 0xFF then [] else body.drop (16 * hdrOff)) else old ++ body
  let r := cutPackets 16 new
  let ft := if old.isEmpty then s.inv.ft else vgetD q.rxFt i s.inv.ft
  let at_ := if old.isEmpty then s.inv.clk else vgetD q.rxAt i s.inv.clk
  let mk := fun (first : Bool) (k : Pkt) => ({ port := p, pkt := k, ft := if first then ft else s.inv.ft
                                               at_ := if first then at_ else s.inv.clk
                                               flits := if first then part ++ [id] else [id] } : InPkt)
  let more := r.1.isEmpty && !old.isEmpty
  let s1 := modPort s p.val (fun q => { bufferFlit q i with
    rxStream := vmod q.rxStream i (fun _ => r.2)
    rxPart := vmod q.rxPart i (fun _ => if r.2.isEmpty then [] else if more then part ++ [id] else [id])
    rxFt := vmod q.rxFt i (fun _ => if more then ft else s.inv.ft)
    rxAt := vmod q.rxAt i (fun _ => if more then at_ else s.inv.clk)
    rxPkts := satAdd q.rxPkts r.1.length
    rxBytes := satAdd q.rxBytes ((r.1.map (fun k => k.payload.length)).sum) })
  leaveBuffers { s1 with fab := { s1.fab with inbox := s1.fab.inbox ++ r.1.zipIdx.map (fun k => mk (k.2 == 0) k.1) } } p
    (fun _ => false)

/-- Acknowledgement and credits of a good flit (R292). -/
def takeControl (p : Port) (w0 w1 : Nat) : Port :=
  let a : BitVec 12 := BitVec.ofNat 12 (bits w0 15 4)
  let q := if bit w0 3 then { ackFlits p (a - 1) with nakFrom := if p.pstate == 5 then some a else p.nakFrom } else ackFlits p a
  let cr := [bits w1 31 24, bits w1 23 16, bits w1 15 8, bits w1 7 0]
  { q with credits := (List.range 4).foldl (fun v i => vmod v i (· + cr.getD i 0)) q.credits }

/-- A flit received with a bad CRC or in an uncorrectable codeword is discarded; an UP port then asks for the flit it
expects (R293, R294). -/
def badFlit (p : Port) : Port :=
  { p with crc := satAdd p.crc 1, nakOut := p.nakOut || p.pstate == 5, nakOwed := p.nakOwed || p.pstate == 5 }

/-- The codewords that the FEC decoder finished with a flit are counted (R316). A codeword spans several flits, and a flit lies in one
or two: how many uncorrectable ones a bad flit ends is a free value, at least one where the flit before it was good (log entry 3). -/
def countCodewords (s : State) (p corrected : Nat) (ok : Bool) : State :=
  if ok then modPort s p (fun q => { q with fecCorr := satAdd q.fecCorr corrected, fecRun := false })
  else
    let n := if (port s p).fecRun then Config.freeNat s.fresh % 3 else 1 + Config.freeNat s.fresh % 2
    useFresh (modPort s p (fun q => { q with fecCorr := satAdd q.fecCorr corrected, fecUncorr := satAdd q.fecUncorr n
                                             fecRun := true })) 1

/-- FAB_FLIT_RECEIVE (R292 to R294). The packets of TIME and CTRL flits act through their own rows (log entry 12). -/
def execFabFlitReceive (p : Fin 24) (flit : List Byte) (fecCorrected : Nat) (fecOk : Bool) (s : State) :
    Host.Outcome State Fault Refusal :=
  .next (
    let q := port s p.val
    if q.mode != 1 || !(decide (4 ≤ q.pstate.toNat) && decide (q.pstate.toNat ≤ 6)) then s else
    let s1 := countCodewords s p.val fecCorrected fecOk
    let l := slice flit 0 280
    if !fecOk || crc32c (l.take 276) != BitVec.ofNat 32 (leAt l 276 4) then modPort s1 p.val (fun q => flushOwed (badFlit q))
    else
      let w0 := leAt l 0 4
      let s2 := modPort s1 p.val (fun q => takeControl q w0 (leAt l 4 4))
      let s3 := modPort s2 p.val pump
      if bits w0 31 28 ≠ 1 ∨ !q.isUp then s3
      else if q.pstate = 6 then acceptData s3 p (bit w0 2) (bit w0 1) (bits (leAt l 8 4) 31 24) (slice l 12 256)
      else if q.rxExpect.toNat = bits w0 27 16 then
        acceptData (modPort s3 p.val (fun q => { q with rxExpect := q.rxExpect + 1, nakOut := false, ackOwed := true })) p
          (bit w0 2) (bit w0 1) (bits (leAt l 8 4) 31 24) (slice l 12 256)
      else modPort s3 p.val (fun q => flushOwed { q with nakOwed := q.nakOwed || !q.nakOut, nakOut := true }))

/-- The flits of the replay buffer from a named one sent again, in order (R294). -/
def resendFrom (p : Port) (a : BitVec 12) : Port :=
  match p.replay with
  | [] => p
  | f :: _ =>
    let n := fseqDist f.fseq a
    let again := p.replay.drop n
    let q := again.foldl (fun q g => putFlit q 1 g.fseq.toNat g.vn g.lane g.hdrOff.toNat g.body) p
    { q with replay := p.replay.take n ++ again.map (fun g => { g with sends := g.sends + 1 })
             replayCnt := satAdd q.replayCnt again.length }

/-- FAB_NAK_RESEND (R294): a port in UP resends its replay buffer from the flit that the partner's NAK names. -/
def execFabNakResend (p : Fin 24) (s : State) : Host.Outcome State Fault Refusal :=
  .next (
    let q := port s p.val
    match q.nakFrom with
    | some a =>
      if q.pstate = 5 ∧ q.mode = 1 then modPort s p.val (fun q => pump (resendFrom { q with nakFrom := none } a)) else s
    | none => s)

/-- FAB_RETRY_EXHAUSTION (R294): a DATA flit sent 8 times without acknowledgement takes the port DOWN. -/
def execFabRetryExhaustion (p : Fin 24) (s : State) : Host.Outcome State Fault Refusal :=
  .next (
    let q := port s p.val
    if q.carries && q.replay.any (fun f => decide (8 ≤ f.sends)) then portDown s p.val 3 else s)

/-! ### Ethernet links (R313) -/

/-- A PORT_LOOP runs on a port. -/
def loopRuns (s : State) (p : Nat) : Bool :=
  s.cmd.longs.any (fun o => match o.kind with
    | .port q true _ => q.val == p
    | _ => false)

/-- ETH_PORT_LINK_CHANGE (R313): a port of P0 to P3 in ETHERNET mode gains or loses its link; FAB_PSTATE shows UP or
DETECT. -/
def execEthPortLinkChange (p : Fin 24) (up : Bool) (s : State) : Host.Outcome State Fault Refusal :=
  .next (
    let q := port s p.val
    let w := if q.ethRate = 0 then 4 else 8
    if !portsOn s || q.mode != 2 || q.ethUp == up || loopRuns s p.val then s else
    let s1 := raiseOpen (modPort s p.val (fun q => { q with
      ethUp := up
      pstate := if up then 5 else 1
      lanes := if up then BitVec.ofNat 4 w else 0
      downCause := if up then q.downCause else 1 })) evLink (if up then 2 else 1) [BitVec.ofNat 8 p.val]
    if up then endPortOps s1 p.val w else s1)

/-! ### Writes of a port block (R316, R317) -/

/-- A stack address in the linear view with an alignment (R317, R464). -/
def linearOk (v al : Nat) : Bool := v < linearEnd && aligned v al

/-- A write of FAB_Pn_CFG (R317): a change of FAB_MODE or FAB_RAW takes the port DOWN and retrains it; a port in FAULT
leaves it by a change of FAB_MODE alone (R295; log entry 23). -/
def writePortCfg (s : State) (p v : Nat) : State × Status :=
  let mode := bits v 1 0
  let next := bits v 23 16
  if mode = 3 ∨ (mode = 2 ∧ 4 ≤ p) ∨ 2 ≤ bits v 3 2 ∨ (24 ≤ next ∧ next ≠ 0xFF) then (s, .badParam) else
  let q := port s p
  let change := q.mode.toNat ≠ mode ∨ (q.raw ≠ bit v 5 ∧ q.pstate ≠ 7)
  let s1 := if change then portLeave s p (if mode = 1 ∨ mode = 2 then 1 else 0) (some 6) else s
  (modPort s1 p (fun q => { q with
    lineNext := BitVec.ofNat 8 next, line := BitVec.ofNat 3 (bits v 11 9), dateline := bit v 8, raw := bit v 5,
    ethRate := BitVec.ofNat 2 (bits v 3 2), mode := BitVec.ofNat 2 mode,
    ethUp := if change then false else q.ethUp }), .done)

/-- A write of a port register (R316, R317, R464). -/
def writePort (s : State) (p o v : Nat) : State × Status :=
  match o with
  | 0x00 => writePortCfg s p v
  | 0x18 => (modPort s p (fun q => { q with asym := BitVec.ofNat 16 v }), .done)
  | 0x80 => if p < 4 then (modPort s p (fun q => { q with ethMac := BitVec.ofNat 64 (v % 2 ^ 48) }), .done) else (s, .done)
  | 0x88 => if p < 4 then (modPort s p (fun q => { q with ethIpLo := BitVec.ofNat 64 v }), .done) else (s, .done)
  | 0x90 => if p < 4 then (modPort s p (fun q => { q with ethIpHi := BitVec.ofNat 64 v }), .done) else (s, .done)
  | 0x98 =>
    if 4 ≤ p then (s, .done) else
    let a := bits v 47 12 * 4096
    if !linearOk a 4096 then (s, .badParam)
    else if s.fab.eth.any (fun x => x.port == p) then (s, .busy)
    else (modPort s p (fun q => { q with ethQp := BitVec.ofNat 64 a, qpSent := [] }), .done)
  | 0x08 => (s, .denied)
  | 0x10 => (s, .denied)
  | _ => if o % 8 = 0 ∧ 0x20 ≤ o ∧ o ≤ 0x78 then (s, .denied) else (s, .done)

end Sys2Proof.Machine
end

