-- ==== Sys2Proof/Machine/Board.lean ====
section
/-! DEFINITION. What the outputs of the package do (R426, R451), and its incarnation and registration (R307, R435). -/

namespace Sys2Proof.Machine

/-! ### What the outputs do (R426, R451) -/

/-- The outputs of the package. -/
inductive OutPin where
  | alertN | tdo | timeOut | mgt (m : Fin 2) | i3cSda | port (n : Fin 24)
  deriving DecidableEq, Repr

/-- How an output is driven: `target` as the I3C target drives it, `scan` as IEEE 1149.1 gives. -/
inductive PinDrive where
  | released | floating | idle | driven | target | scan
  deriving DecidableEq, Repr

/-- The state of an output with PWR_EN high (R451): the fabric lanes float while RESET_N is low, in Bank and Dark, and before
stage 3 has powered the IOD domain; an EXTEST-class instruction gives the lands to the scan chain (R454). -/
def pinPowered (s : State) : OutPin → PinDrive
  | .tdo => .scan
  | .alertN => if s.tap.landsTaken then .scan else .driven
  | .timeOut => if s.tap.landsTaken then .scan else .driven
  | .mgt _ => if s.tap.landsTaken then .scan else if s.tap.resetN then .driven else .idle
  | .i3cSda => if s.tap.landsTaken then .scan else .target
  | .port _ =>
    if s.tap.landsTaken then .scan
    else if s.tap.resetN && decide (3 ≤ s.boot.stage.toNat) && decide (s.boot.stage.toNat ≤ 9) && decide (s.power.st.toNat < 2) then .driven
    else .floating

/-- The state of an output (R451). `pwrEn` falls with PWR_EN and with VIN (log entry 90). -/
def pinDrive (s : State) (p : OutPin) : PinDrive :=
  if s.tap.pwrEn then pinPowered s p
  else match p with
    | .alertN => .released
    | .i3cSda => .released
    | _ => .floating

/-! ### Incarnation and registration (R307, R435) -/

/-- INCARN rises by 1 and both flow tables are emptied (R307). -/
def raiseIncarn (s : State) : State :=
  { s with fab := { s.fab with incarn := s.fab.incarn + 1, incarnAt := s.inv.clk, sends := [], recvs := [] } }

/-- The anti-rollback counters of the running image rise where it asks for it (R395), each with a FIRMWARE event. -/
def raiseCounters (s : State) : State :=
  if !s.cob.commitSvn then s else
  s.cob.svns.foldl (fun t e =>
    if (lookD t.cob.ctrs e.1 0).toNat < e.2 then
      raiseOpen { t with cob := { t.cob with ctrs := put t.cob.ctrs e.1 (BitVec.ofNat 8 e.2) } } evFirmware 1
        [BitVec.ofNat 8 e.1, BitVec.ofNat 8 e.2]
    else t) s

/-- Registration (R435). -/
def register (s : State) : State :=
  raiseCounters (setStage { s with
    fab := { s.fab with e2eAll := false }
    boot := { s.boot with complete := true, ftReg := s.inv.ft } } 9)

/-- A write of PKG_ID (R34, R307, R435). -/
def writePkgId (s : State) (v : Nat) : State × Status :=
  if s.boot.stage.toNat < 7 ∨ 9 < s.boot.stage.toNat then (s, .busy)
  else if !s.fab.txns.isEmpty || !s.fab.waitq.isEmpty then (s, .busy)
  else if clk s < s.fab.incarnAt.toNat + 100000000 then (s, .busy)
  else
    let s1 := identAll { raiseIncarn s with pkgId := BitVec.ofNat 16 v }
    (if v % 65536 ≠ 0xFFFF ∧ (s.boot.stage = 7 ∨ s.boot.stage = 8) then register s1 else s1, .done)

end Sys2Proof.Machine
end

