-- ==== Sys2Proof/Machine/Mode.lean ====
section
/-! DEFINITION. Power modes: the values of R412 and the last phases of MODE_SET (R414). -/

namespace Sys2Proof.Machine

/-- Maximum sustained input power of a mode in W (R412). -/
def maxPower (mode : Nat) : Nat := if mode = 0 then 3400 else if mode = 1 then 2700 else 1900

/-- Excursion limit of a mode in W (R412). -/
def excursionLimit (mode : Nat) : Nat := if mode = 0 then 3800 else if mode = 1 then 3100 else 2300

/-- Hold power of a mode in W (R412). -/
def holdPower (mode : Nat) : Nat := if mode = 0 then 850 else if mode = 1 then 770 else 650

/-- A power-block envelope replaced by a mode's default (R412). -/
def defaultEnvelope (p : Power) : Power :=
  { p with target := BitVec.ofNat 16 (maxPower p.mode.toNat), floor := 0, slew := 150, floorMet := false, floorRises := false }

/-- Phase of the MODE_SET in progress (R414); 0 with none. -/
def modePhase (s : State) : Nat := (s.power.modeTo.map (·.2)).getD 0

/-- Phase 2 (R414): every array clock stops; the rails move. -/
def modeStop (s : State) : State :=
  modPower s (fun p => { p with clockStopped := true, modeTo := p.modeTo.map (fun m => (m.1, 3)) })

/-- An end of an edge that MODE_SET retrains; R289 lists no cause for it, so the cause is a free value (log entry 3). -/
def modeEdge (s : State) (e : Nat) : State :=
  if (edgeDies e).all (fun k => (die s k).on && !dieFenced s k) then startEdge (useFresh s 1) e (Config.freeByte s.fresh 0).toNat
  else s

/-- Phase 4 (R414): the new mode's clock, and every edge trains. -/
def modeTrain (s : State) : State :=
  let s1 := modPower s (fun p => { p with mode := (p.modeTo.map (·.1)).getD p.mode, modeTo := p.modeTo.map (fun m => (m.1, 4)) })
  (List.range 8).foldl modeEdge s1

/-- Phase 5 (R414): clocks restart, and the FEC option, the scrub interval and the default envelope of the mode take effect. -/
def modeFinish (s : State) : State :=
  let s1 := modPower s (fun p => defaultEnvelope { p with clockStopped := false, modeTo := none })
  let s2 := { s1 with fab := { s1.fab with ports := s1.fab.ports.map (fun q => { q with fecStd := s1.power.mode != 0 }) } }
  endLongs (powerEvent s2 2 s2.power.mode.toNat) (fun k => match k with
    | .modeSet _ => true
    | _ => false) .done []

/-- The training of phase 4 has ended on every edge between dies in service (R414). -/
def edgesReady (s : State) : Bool :=
  (List.range 8).all (fun e =>
    !(edgeDies e).all (fun k => (die s k).on && !dieFenced s k) || edgeState s e != 0 )

/-- An edge has settled: the last one in phase 4 ends the MODE_SET. -/
def modeSettle (s : State) : State := if modePhase s = 4 ∧ edgesReady s then modeFinish s else s

/-- MODE_RAILS_SETTLED (R414). -/
def execModeRailsSettled (s : State) : Host.Outcome State Fault Refusal :=
  .next (if modePhase s = 3 then modeSettle (modeTrain s) else s)

end Sys2Proof.Machine
end

