-- ==== Sys2Proof/Machine/LogArea.lean ====
section
/-! DEFINITION. What a reader of stack memory finds in the replay log (R370, R371). Where a record stands in it is log entry 38. -/

namespace Sys2Proof.Machine

/-- Byte `i` of records that stand back to back, each its length and its bytes; none past the last. -/
def piecesByte : List (Nat × (Nat → Byte)) → Nat → Option Byte
  | [], _ => none
  | (n, f) :: r, i => if i < n then some (f i) else piecesByte r (i - n)

/-! ### The replay log (R370, R371) -/

/-- Byte `i` of the generator states of a step, 16 B for each lane of each logical cluster. -/
def gensByte (l : List (Nat × Nat × W128)) (i : Nat) : Byte :=
  BitVec.ofNat 8 ((snapGen l (i / 2048) (i / 16 % 128)).toNat / 256 ^ (i % 16))

/-- Byte `i` of the group table image and the tensor list image of a step. -/
def imageByte (x : LogStep) (i : Nat) : Byte :=
  match x.imageAt with
  | some (ga, ta, _) => x.image.read (keyOf (if i < 0x80000 then ga.toNat + i else ta.toNat + (i - 0x80000)))
  | none => 0

/-- The body of a record: its length and its bytes. -/
def recordBody (x : LogStep) (r : LogRec) : Nat × (Nat → Byte) :=
  match r.kind.toNat with
  | 1 => (match x.imageAt with
    | some (_, _, n) => 0x80000 + 64 * n.toNat
    | none => 0, imageByte x)
  | 3 => (0x800000, gensByte x.gens)
  | _ => (r.body.length, fun i => r.body.getD i 0)

/-- The header of a record (R371). -/
def recordHeader (r : LogRec) (len : Nat) : List Byte :=
  leBytes 2 r.stream.toNat ++ leBytes 2 r.opcode.toNat ++ leBytes 4 r.seq.toNat ++ [r.kind, r.status] ++
  leBytes 2 r.master.toNat ++ leBytes 4 len ++ leBytes 8 r.ft.toNat ++ leBytes 8 r.epoch.toNat

/-- A record of the replay log, padded with zeros (R371). -/
def recordPiece (x : LogStep) (r : LogRec) : Nat × (Nat → Byte) :=
  let b := recordBody x r
  let h := recordHeader r (recordLen b.1)
  (recordLen b.1, fun i => if i < 32 then h.getD i 0 else if i - 32 < b.1 then b.2 (i - 32) else 0)

/-- Byte `i` of the replay log: the records of epoch e stand in fifth e mod 5. -/
def replayByte (s : State) (i : Nat) : Option Byte :=
  let fifth := s.twin.logSize.toNat / 5
  if fifth = 0 then none else
  match s.twin.log.find? (fun x => x.logged && x.epoch.toNat % 5 == i / fifth) with
  | some x => piecesByte (x.records.map (recordPiece x)) (i % fifth)
  | none => none

/-! ### The view of a reader -/

/-- The byte that the replay log holds at an address of the linear view; none where no record stands. -/
def areaByte (s : State) (a : Nat) : Option Byte :=
  if s.twin.logBase.toNat ≤ a ∧ a < s.twin.logBase.toNat + s.twin.logSize.toNat then replayByte s (a - s.twin.logBase.toNat) else none

/-- A byte of memory as a reader finds it: where a record of the log stands, the record (R371). -/
def viewByte (s : State) (a : Nat) (b : Byte) : Byte :=
  if s.twin.log.isEmpty then b else
  match place a with
  | .stack k o => (areaByte s (k * stackLen + o)).getD b
  | _ => b

/-- Bytes read at an address as a reader finds them. -/
def areaView (s : State) (a : Nat) (bs : List Byte) : List Byte := bs.mapIdx (fun i b => viewByte s (a + i) b)

end Sys2Proof.Machine
end

