-- ==== Sys2Proof/Machine/Security.lean ====
section
/-! DEFINITION. Cobalt: images (R390, R391), measurements (R392), credentials (R396, R397), sessions (R398 to R400),
attestation (R401), access tables (R403, R404, R406) and debug unlocks (R407, R408). -/

namespace Sys2Proof.Machine

/-- The security block changed. -/
def modCob (s : State) (f : Cob → Cob) : State := { s with cob := f s.cob }

/-- DEVICE_ID (R389). -/
def deviceId : List Byte := (sha3_512 Config.dikPublic).take 32

/-! ### Measurements (R392) -/

/-- A measurement register; all zeros at power-on. -/
def mrOf (s : State) (i : Nat) : List Byte := lookD s.cob.mr i (List.replicate 64 0)

/-- A measurement register extended with a digest (R392). -/
def extendMr (s : State) (i : Nat) (d : List Byte) : State :=
  modCob s (fun c => { c with mr := put c.mr i (sha3_512 (mrOf s i ++ d)) })

/-! ### Images (R390, R391) -/

/-- Bytes of an image slot: 28 MiB at offset 0 of its device. -/
def slotLen : Nat := 0x1C00000

/-- A byte of an image slot in flash (log entry 13: an erased byte reads 0). -/
def flashByte (s : State) (slot : Bool) (off : Nat) : Byte := Memory.read s.cob.flash (b2n slot * 0x2000000 + off)

/-- `n` bytes of an image from an offset. -/
def imgBytes (img : Nat → Byte) (off n : Nat) : List Byte := (List.range n).map (fun i => img (off + i))

/-- A number of an image's header. -/
def imgNat (img : Nat → Byte) (off n : Nat) : Nat := leNat (imgBytes img off n)

/-- Components of an image. -/
def imgComps (img : Nat → Byte) : Nat := imgNat img 12 2

/-- Offset of a component's entry. -/
def compAt (i : Nat) : Nat := 2624 + 80 * i

/-- The checks of R391 on an image of at most `lim` bytes, in their order. -/
def imageValid (s : State) (img : Nat → Byte) (lim : Nat) : Bool :=
  let len := imgNat img 8 4
  let ks := imgNat img 16 1
  let key := imgBytes img 32 2592
  (imgNat img 0 4 == 0x49465750 && imgNat img 4 2 == 1 && imgNat img 6 2 == 0x0416 && decide (12288 ≤ len) &&
    decide (len ≤ slotLen) && decide (len ≤ lim)) &&
  (decide (ks < 4) && look s.cob.keyHashes ks == some (sha3_512 key) && !s.cob.revoked.getLsbD ks) &&
  Config.mldsaVerify key (imgBytes img 0 4096) (ascii "IFEPOR FW") (imgBytes img 4096 4627) &&
  (decide (1 ≤ imgComps img) && decide (imgComps img ≤ 16) &&
    (List.range (imgComps img)).all (fun i =>
      let o := imgNat img (compAt i) 4
      let n := imgNat img (compAt i + 4) 4
      decide (o + n ≤ len) && sha3_512 (imgBytes img o n) == imgBytes img (compAt i + 16) 64)) &&
  (List.range (imgComps img)).all (fun i =>
    decide ((lookD s.cob.ctrs (imgNat img (compAt i + 9) 1) 0).toNat ≤ imgNat img (compAt i + 10) 1))

/-- A slot of flash holds a valid image. -/
def slotValid (s : State) (slot : Bool) : Bool := imageValid s (flashByte s slot) slotLen

/-- A range of a slot erased: it reads 0. -/
def flashErase (s : State) (slot : Bool) (off n : Nat) : State :=
  modCob s (fun c => { c with
    flash := Memory.clear c.flash (b2n slot * 0x2000000 + off) (b2n slot * 0x2000000 + off + n) })

/-- Bytes programmed into a slot. -/
def flashProgram (s : State) (slot : Bool) (off : Nat) (bs : List Byte) : State :=
  modCob s (fun c => { c with flash := Memory.writeRange c.flash (b2n slot * 0x2000000 + off) bs })

/-! ### Sessions (R342, R398 to R400) -/

/-- A session ends (R342): its words are orphaned, its schedule entries, subscription and slot go. -/
def endSession (s : State) (slot : Nat) : State :=
  match look s.cmd.sessions slot with
  | none => s
  | some x =>
    let hd := handleOf slot x
    orphanOwner { s with cmd := { s.cmd with
      sessions := del s.cmd.sessions slot
      schedule := s.cmd.schedule.filter (fun e => e.cmd.hdr.session != hd) } } (0x4800 + slot)

/-- Every session ends. -/
def endAllSessions (s : State) : State := (List.range 64).foldl endSession s

/-- The generation after the last one of a slot; never 0 (R341). -/
def nextGen (g : BitVec 10) : BitVec 10 := if g = BitVec.allOnes 10 then 1 else g + 1

/-- The command block changed. -/
def modCmd (s : State) (f : Cmd → Cmd) : State := { s with cmd := f s.cmd }

/-- The port on which AUTH_FAIL replies are counted (R344): MGT0, MGT1, or a fabric port. -/
def portIndex : CmdPort → Nat
  | .mgt m _ _ => m.val
  | .fabric _ p => 2 + p.val

/-- An AUTH_FAIL (R344): counted; the Bool says that its reply is sent, at most 1,000 a second on a port. -/
def authCount (s : State) (h : CmdHdr) : State × Bool :=
  let i := portIndex h.port
  let live := s.cmd.authFails.filter (fun e => decide (clk s < e.1.toNat + 1000000000))
  let s1 := modCmd s (fun c => { c with cntAuthFail := satAdd c.cntAuthFail 1, authFails := live })
  if 1000 ≤ (live.filter (fun e => e.2 == i)).length then (s1, false)
  else (modCmd s1 (fun c => { c with authFails := (s.inv.clk, i) :: live }), true)

/-- Bytes 0 to 1,607 of SESSION_OPEN's parameters as received (R354); `cred` is bytes 0 to 7. -/
def openParams (cred : W64) (ek nonce : List Byte) : List Byte :=
  leBytes 8 cred.toNat ++ slice ek 0 1568 ++ slice nonce 0 32

/-- CRED of SESSION_OPEN: parameter bytes 0 to 3 (R354). -/
def credSlot (cred : W64) : Nat := bits cred.toNat 31 0

/-- The open-nonce list without the entries whose WC the stamp has passed (R398). -/
def liveNonces (s : State) (stamp : Nat) : List (List Byte × W64) :=
  s.cmd.nonces.filter (fun e => decide (stamp ≤ e.2.toNat))

/-- The lowest free session slot of a credential (R398). -/
def freeSlot (s : State) (cred : Nat) : Option Nat :=
  ((List.range 4).map (fun i => 4 * cred + i)).find? (fun k => (look s.cmd.sessions k).isNone)

/-- Keys derived from a shared secret (R399, R400). -/
def deriveKeys (ss x : List Byte) : Keys :=
  { kc := kmac256 ss (x ++ [1]) 32 (ascii "APUNE KDF"), kr := kmac256 ss (x ++ [2]) 32 (ascii "APUNE KDF") }

/-- Result bytes 0 to 1,575 of SESSION_OPEN (R354, R399): the handle, and the ciphertext of the encapsulation. -/
def openResults (s : State) (ek : List Byte) (g : BitVec 10) (slot : Nat) : List Byte :=
  leBytes 2 (g.toNat * 64 + slot) ++ List.replicate 6 0 ++ slice (Config.mlkemEncaps s.fresh (slice ek 0 1568)).1 0 1568

/-- SESSION_OPEN accepted (R398, R399). -/
def openSession (s : State) (h : CmdHdr) (wc cred : W64) (ek nonce : List Byte) (slot : Nat) : State :=
  let g := nextGen (lookD s.cmd.gens slot 0)
  let kem := Config.mlkemEncaps s.fresh (slice ek 0 1568)
  let res := openResults s ek g slot
  let par := openParams cred ek nonce
  let x : Session := { gen := g, cred := credSlot cred, keys := deriveKeys kem.2 (sha3_512 (par ++ res)), old := [],
                       rotating := [], h := 0, seen := [], last := s.inv.clk, classes := 0, port := h.port }
  let r := mkReply s h 0x0101 .done (res ++ List.replicate 4627 0) 0 s.memblk.epoch
  let sig := Config.dikSign (s.fresh + 1) (replyHeader r 0 1 6203 ++ sha3_512 par ++ res) (ascii "APUNE OPEN RSP")
  let s1 := useFresh { s with cmd := { s.cmd with
    sessions := put s.cmd.sessions slot x
    gens := put s.cmd.gens slot g
    nonces := liveNonces s h.stamp.toNat ++ [(slice nonce 0 32, wc)] } } 2
  reply s1 h 0x0101 .done (res ++ slice sig 0 4627)

/-- What a SESSION_OPEN carries (R344 step 3, R398): no session, no master ID, SEQUENCE 0 and a tag of zeros. -/
def openNamed (h : CmdHdr) (tag : List Byte) : Bool :=
  h.session == 0 && h.master == 0 && h.seq == 0 && tag == List.replicate 32 0

/-- The decision of SESSION_OPEN (R398), and the session opened. -/
def doSessionOpen (h : CmdHdr) (wc : W64) (header tag : List Byte) (cred : W64) (ek nonce sig : List Byte) (s : State) :
    State :=
  let no := fun (st : Status) =>
    if st = .authFail then (if (authCount s h).2 then answer (authCount s h).1 h 0x0101 st else (authCount s h).1)
    else answer s h 0x0101 st
  if !openNamed h tag then no .authFail
  else if wc = 0 ∨ h.stamp.toNat + 10000000000 < wc.toNat then no .badParam
  else if 2 ≤ lifecycle s then no .denied
  else match look s.cob.creds (credSlot cred) with
    | none => no .denied
    | some c =>
      if 15 < credSlot cred ∨ c.role.getLsbD 0 = false then no .denied
      else if !Config.mldsaVerify c.pubkey (slice header 0 64 ++ openParams cred ek nonce) (ascii "APUNE OPEN") sig then
        no .authFail
      else if (liveNonces s h.stamp.toNat).any (fun e => e.1 == slice nonce 0 32) then no .authFail
      else if 1024 ≤ (liveNonces s h.stamp.toNat).length then no .busy
      else match freeSlot s (credSlot cred) with
        | none => no .busy
        | some slot => openSession s h wc cred ek nonce slot

/-- SESSION_OPEN (R398, R399). -/
def execSessionOpen (h : CmdHdr) (wc : W64) (header tag : List Byte) (cred : W64) (ek nonce sig : List Byte) (s : State) :
    Host.Outcome State Fault Refusal :=
  .next (cmdStart (.sessionOpen h wc header tag cred ek nonce sig) h 0x0101
    (doSessionOpen h wc header tag cred ek nonce sig) s)

/-- SESSION_CLOSE (R342, R354): the session ends after its reply. -/
def doSessionClose (h : CmdHdr) (s : State) : State :=
  let s1 := answer s h 0x0102 .done
  match sessionOf s h.session with
  | some (slot, _) => endSession s1 slot
  | none => s1

/-- SESSION_CLOSE (R342). -/
def execSessionClose (h : CmdHdr) (s : State) : Host.Outcome State Fault Refusal :=
  .next (cmdStart (.sessionClose h) h 0x0102 (doSessionClose h) s)

/-- SESSION_INACTIVITY_EXPIRY (R342): 600 s without an authenticated command. -/
def execSessionInactivityExpiry (slot : Nat) (s : State) : Host.Outcome State Fault Refusal :=
  .next (match look s.cmd.sessions slot with
    | some x => if x.last.toNat + 600000000000 ≤ clk s then endSession s slot else s
    | none => s)

/-- The attestation report up to its signature (R401). -/
def attestBody (s : State) (nonce : List Byte) (sets : W32) : List Byte :=
  leBytes 4 0x41545354 ++ leBytes 2 1 ++ leBytes 2 0x0416 ++ slice nonce 0 32 ++ leBytes 8 (now s) ++
  leBytes 8 s.memblk.epoch.toNat ++ leBytes 4 sets.toNat ++ [BitVec.ofNat 8 (lifecycle s), BitVec.ofNat 8 (b2n s.cob.bootSlot)] ++
  leBytes 2 s.pkgId.toNat ++ deviceId ++ leBytes 8 s.cob.build.toNat ++ leBytes 2 Config.stepping.toNat ++
  List.replicate 22 0 ++ (List.range 128).map (fun i => lookD s.cob.ctrs i 0) ++
  ((List.range 9).filter (fun i => sets.getLsbD i)).flatMap (mrOf s)

/-- ATTEST (R401). -/
def doAttest (h : CmdHdr) (nonce : List Byte) (sets : W32) (s : State) : State :=
  if 2 ≤ lifecycle s then answer s h 0x0103 .denied
  else if 512 ≤ sets.toNat then answer s h 0x0103 .badParam
  else
    let body := attestBody s nonce sets
    let sig := slice (Config.dikSign s.fresh body (ascii "IFEPOR ATTEST")) 0 4627
    reply (useFresh s 1) h 0x0103 .done (body ++ sig ++ leBytes 4 Config.certChain.length ++ Config.certChain)

/-- ATTEST (R401). -/
def execAttest (h : CmdHdr) (nonce : List Byte) (sets : W32) (s : State) : Host.Outcome State Fault Refusal :=
  .next (cmdStart (.attest h nonce sets) h 0x0103 (doAttest h nonce sets) s)

/-- KEY_ROTATE (R400): new keys for messages above its SEQUENCE. -/
def doKeyRotate (h : CmdHdr) (ek : List Byte) (s : State) : State :=
  match sessionOf s h.session with
  | none => answer s h 0x0104 .authFail
  | some (slot, x) =>
    let kem := Config.mlkemEncaps s.fresh (slice ek 0 1568)
    let ct := slice kem.1 0 1568
    let k := deriveKeys kem.2 (x.keys.kc ++ sha3_512 (slice ek 0 1568 ++ ct))
    reply (useFresh { s with cmd := { s.cmd with
      sessions := put s.cmd.sessions slot { x with keys := k, old := (x.keys, h.seq) :: x.old } } } 1) h 0x0104 .done ct

/-- KEY_ROTATE (R400). -/
def execKeyRotate (h : CmdHdr) (ek : List Byte) (s : State) : Host.Outcome State Fault Refusal :=
  .next (cmdStart (.keyRotate h ek) h 0x0104 (doKeyRotate h ek) s)

/-! ### Access tables (R403, R404, R406) -/

/-- Whether an entry may stand at a target (R404). -/
def entryOk (t : Nat) (e : W128) : Bool :=
  let w1 := entryWord e 1
  bits w1 30 5 == 0 && [Perm.r, .w, .atomic, .exec, .cmd].all (fun p => !bit w1 p.bit || targetTakes t p) &&
  decide (bits (entryWord e 0) 15 0 ≤ bits (entryWord e 0) 31 16) && decide (entryWord e 2 ≤ entryWord e 3)

/-- Entries written from an index of a target's table, as a single change (R406). -/
def setEntries (tab : Assoc W128) (t first : Nat) (es : List W128) : Assoc W128 :=
  (es.zipIdx).foldl (fun a e => if e.1 = 0 then del a (t * 64 + first + e.2) else put a (t * 64 + first + e.2) e.1) tab

/-- ACCESS_TABLE_SET (R403, R404, R406, R361). -/
def doAccessTableSet (h : CmdHdr) (target : W16) (first count : Byte) (entries : List W128) (s : State) : State :=
  let t := target.toNat
  if !validTarget t || count == 0 || decide (64 < first.toNat + count.toNat) || entries.length != count.toNat ||
      !entries.all (entryOk t) then answer s h 0x0803 .badParam
  else
    let s1 := modCob s (fun c => { c with table := setEntries c.table t first.toNat entries })
    let d := sha3_512 (leBytes 2 t ++ [first, count] ++ entries.flatMap (fun e => leBytes 16 e.toNat))
    answer (extendMr s1 6 d) h 0x0803 .done

/-- ACCESS_TABLE_SET (R406). -/
def execAccessTableSet (h : CmdHdr) (target : W16) (first count : Byte) (entries : List W128) (s : State) :
    Host.Outcome State Fault Refusal :=
  .next (cmdStart (.accessTableSet h target first count entries) h 0x0803 (doAccessTableSet h target first count entries) s)

/-- A range lies in stack memory, in any view. -/
def inStacks (a n : Nat) : Bool := (pages a n).all (fun p => (place p).isStack)

/-! ### Credentials (R396, R397) -/

/-- The cause code of COB_CRED_LAST for a record (R397, R409): 1 installed, 2 format, 3 scope, 4 ordinal, 5 signature. -/
def recordCause (s : State) (r : List Byte) (signed : Bool) : Nat :=
  let slot := leAt r 4 1
  let scope := slice r 16 32
  if leAt r 0 4 ≠ 0x43524544 ∨ 15 < slot ∨ 4 ≤ leAt r 5 1 then 2
  else if scope ≠ List.replicate 32 0 ∧ scope ≠ deviceId then 3
  else if leAt r 8 8 ≤ (lookD s.cob.ordinals slot 0).toNat then 4
  else if signed then
    match look s.cob.creds 0 with
    | some c => if Config.mldsaVerify c.pubkey (slice r 0 2640) (ascii "IFEPOR CRED") (slice r 2640 4627) then 1 else 5
    | none => 5
  else 1

/-- A credential record presented (R397): refused with its cause, or installed; the slot's sessions end and MR7 is
extended. -/
def installRecord (s : State) (r : List Byte) (signed : Bool) : State :=
  let cause := recordCause s r signed
  let s1 := modCob s (fun c => { c with credLast := BitVec.ofNat 8 cause })
  if cause ≠ 1 then s1 else
  let slot := leAt r 4 1
  let key := slice r 48 2592
  let ord : W64 := BitVec.ofNat 64 (leAt r 8 8)
  let s2 := modCob s1 (fun c => { c with
    ordinals := put c.ordinals slot ord
    creds := if key.all (· == 0) then del c.creds slot
             else put c.creds slot { role := BitVec.ofNat 8 (leAt r 5 1), ordinal := ord, pubkey := key } })
  extendMr ((List.range 4).foldl (fun t i => endSession t (4 * slot + i)) s2) 7 (sha3_512 (slice r 0 7267))

/-- A write of COB_CRED_INSTALL (R397, R409): the record at a local stack address. -/
def writeCredInstall (s : State) (v : Nat) : State × Status :=
  let a := v % 2 ^ 48
  if linearEnd < a + 7267 then (s, .badParam) else (installRecord s (rdBytes s a 7267) true, .done)

/-! ### Debug and failure-analysis unlocks (R407, R408) -/

/-- Whether a debug token is accepted (R407). -/
def tokenOk (s : State) (t : List Byte) : Bool :=
  slice t 0 32 == deviceId && leAt t 32 8 == s.cob.chal.toNat && leAt t 40 1 == 1 &&
  (match look s.cob.creds (leAt t 44 4) with
   | some c => decide (leAt t 44 4 ≤ 15) && c.role.getLsbD 1 &&
       Config.mldsaVerify c.pubkey (slice t 0 48) (ascii "IFEPOR DEBUG") (slice t 48 4627)
   | none => false)

/-- A debug token presented (R407): a new challenge after every attempt; accepted, the lifecycle becomes DEBUG, MR8 is
extended and every session ends. -/
def presentToken (s : State) (t : List Byte) : State :=
  let s1 := useFresh (modCob s (fun c => { c with chal := Config.challenge s.fresh })) 1
  if tokenOk s t then
    endAllSessions (extendMr (modCob s1 (fun c => { c with debug := true })) 8 (sha3_512 (slice t 0 4675)))
  else s1

/-- A write of COB_DEBUG_UNLOCK (R407, R409). -/
def writeDebugUnlock (s : State) (v : Nat) : State × Status :=
  let a := v % 2 ^ 48
  if linearEnd < a + 4675 then (s, .badParam) else (presentToken s (rdBytes s a 4675), .done)

/-- The TAP presents tokens under its DEBUG_TOKEN instruction, while ISL is powered (R453). -/
def tapToken (s : State) : Bool := s.tap.ir == 0x40 && s.tap.pwrEn

/-- TAP_DEBUG_TOKEN (R407). -/
def execTapDebugToken (token : List Byte) (s : State) : Host.Outcome State Fault Refusal :=
  .next (if tapToken s then presentToken s token else s)

/-- FAILURE_ANALYSIS_UNLOCK (R408): the RMA fuse is blown and the wrapped DIK erased. -/
def execFailureAnalysisUnlock (token : List Byte) (s : State) : Host.Outcome State Fault Refusal :=
  .next (
    let keys := (s.cob.keyHashes.filter (fun e => !s.cob.revoked.getLsbD e.1)).map (·.2)
    if tapToken s && Config.faTokenOk keys token then modCob s (fun c => { c with rma := true, dikPresent := false })
    else s)

/-- A write of COB_ACC_SEL (R409). -/
def writeAccSel (s : State) (v : Nat) : State × Status :=
  if !validTarget (v % 65536) then (s, .badParam)
  else (modCob s (fun c => { c with accSel := BitVec.ofNat 16 v }), .done)

end Sys2Proof.Machine
end

