-- ==== Sys2Proof/Machine/RegSet.lean ====
section
/-! DEFINITION. Control register space, writing (R457 to R464): each block's writable registers with the value and state checks of
its chapter, and accesses of any master to memory or registers alike (R460). -/

namespace Sys2Proof.Machine

/-- A field of a register as an address: bits [47:lo]. -/
def addrField (v lo : Nat) : Nat := bits v 47 lo * 2 ^ lo

/-- Two byte ranges meet. -/
def areasMeet (a n b m : Nat) : Bool := decide (a < b + m) && decide (b < a + n)

/-! ### Invar (R42, R43) -/

/-- A write to Invar. -/
def writeInvar (s : State) (o v : Nat) : State × Status :=
  match o with
  | 0x10 => writeFtCtl s v
  | 0x18 => writeFtTick s v
  | 0x20 => (modInvar s (fun i => { i with horizon := BitVec.ofNat 64 v }), .done)
  | 0x28 => (modInvar s (fun i => { i with timeinDelay := BitVec.ofNat 16 v }), .done)
  | _ => (s, if o ≤ 0x30 then .denied else .done)

/-! ### Guard (R145, R161, R166) -/

/-- The guard takes its log area: a change of it empties the log (R167), a write of the same value does not. -/
def guardLogSet (s : State) (f : Guard → Guard) : State :=
  { s with guard := if f s.guard = s.guard then s.guard else (f s.guard).emptied }

/-- A write to the guard block: BUSY while a step is in progress; a table outside the linear view is BAD_PARAM. -/
def writeGuard (s : State) (o v : Nat) : State × Status :=
  match o with
  | 0x00 =>
    let a := addrField v 19
    if linearEnd < a + 0x80000 then (s, .badParam)
    else if s.memblk.stepOn then (s, .busy)
    else ({ s with guard := { s.guard with tableBase := BitVec.ofNat 64 a, en := bit v 0 } }, .done)
  | 0x08 =>
    let a := addrField v 12
    if linearEnd ≤ a then (s, .badParam)
    else if s.memblk.stepOn then (s, .busy)
    else (guardLogSet s (fun g => { g with logBase := BitVec.ofNat 64 a }), .done)
  | 0x10 => if s.memblk.stepOn then (s, .busy) else (guardLogSet s (fun g => { g with logRecs := BitVec.ofNat 32 v }), .done)
  | _ => (s, if o ≤ 0x30 then .denied else .done)

/-! ### Update (R200) -/

/-- The state that holds off a write to the update block. -/
def updHeld (s : State) : Bool := s.memblk.stepOn || !s.upd.refreshing.isEmpty || s.upd.load.isSome

/-- A base register of the update block with its alignment. -/
def writeUpdBase (s : State) (v al : Nat) (f : Upd → W64 → Upd) : State × Status :=
  let a := v % 2 ^ 48
  if !linearOk a al then (s, .badParam)
  else if updHeld s then (s, .busy)
  else ({ s with upd := f s.upd (BitVec.ofNat 64 a) }, .done)

/-- A write to the update block. -/
def writeUpd (s : State) (o v : Nat) : State × Status :=
  match o with
  | 0x08 => writeUpdBase s v 0x800000 (fun u a => { u with areaBase := a })
  | 0x10 => writeUpdBase s v 0x20000 (fun u a => { u with stateBase := a })
  | 0x18 => writeUpdBase s v 0x100000 (fun u a => { u with refreshBase := a })
  | 0x20 =>
    if 32 < v % 64 then (s, .badParam)
    else if updHeld s then (s, .busy)
    else ({ s with upd := { s.upd with refreshClusters := BitVec.ofNat 6 v } }, .done)
  | _ => (s, if o ≤ 0x50 then .denied else .done)

/-! ### Exchange (R241, R242) -/

/-- The areas of the block: group table, tensor table, EX_BUF, log. An area of size 0 meets none. -/
def exAreas (x : Exch) : List (Nat × Nat) :=
  [(x.groupBase.toNat, 0x200000), (x.tensorBase.toNat, 0x200000), (x.bufBase.toNat, x.bufSize.toNat), (x.logBase.toNat, x.logSize.toNat)]

/-- Area `i` of the block may stand (R242): inside the stack linear view, and meeting no other. -/
def exAreaOk (x : Exch) (i : Nat) : Bool :=
  let e := (exAreas x).getD i (0, 0)
  decide (e.1 < linearEnd) && decide (e.1 + e.2 ≤ linearEnd) &&
  (exAreas x).zipIdx.all (fun f => f.2 == i || !areasMeet e.1 e.2 f.1.1 f.1.2 || e.2 == 0 || f.1.2 == 0)

/-- A base or size of the block is written. -/
def writeExArea (s : State) (i : Nat) (y : Exch) : State × Status :=
  if !exAreaOk y i then (s, .badParam)
  else if !s.exch.ops.isEmpty || !s.exch.early.isEmpty then (s, .busy)
  else ({ s with exch := y }, .done)

/-- A write to the exchange block. -/
def writeExch (s : State) (o v : Nat) : State × Status :=
  let x := s.exch
  let a12 : W64 := BitVec.ofNat 64 (addrField v 12)
  let a21 : W64 := BitVec.ofNat 64 (addrField v 21)
  match o with
  | 0x08 =>
    if !x.ops.isEmpty || !x.early.isEmpty then (s, .busy)
    else ({ s with exch := { x with layout := BitVec.ofNat 32 v } }, .done)
  | 0x10 => writeExArea s 0 { x with groupBase := a21 }
  | 0x18 => writeExArea s 1 { x with tensorBase := a21 }
  | 0x20 => writeExArea s 2 { x with bufBase := a12 }
  | 0x28 => writeExArea s 2 { x with bufSize := a12 }
  | 0x30 => writeExArea s 3 { x with logBase := a12, log := if a12 = x.logBase then x.log else [] }
  | 0x38 => writeExArea s 3 { x with logSize := a12, log := if a12 = x.logSize then x.log else [] }
  | _ => (s, if o ≤ 0x60 then .denied else .done)

/-! ### Die memory (R260, R266, R267) -/

/-- A write to the memory block of a die. -/
def writeDieMem (s : State) (k o v : Nat) : State × Status :=
  let cap := s.ckpt.capture.isSome
  match o with
  | 0x20 => (modDie s k (fun d => { d with acctProg := BitVec.ofNat 64 v }), .done)
  | 0x38 =>
    let a := addrField v 16
    let lo := viewBase + k * viewStride
    let n := (die s k).cowSize.toNat * 0x10000
    if a < lo ∨ lo + 0x5FF0000000 < a + n then (s, .badParam)
    else if cap then (s, .busy)
    else (modDie s k (fun d => { d with cowBase := BitVec.ofNat 64 a }), .done)
  | 0x40 =>
    let n := (v % 2 ^ 32) * 0x10000
    let a := (die s k).cowBase.toNat
    let lo := viewBase + k * viewStride
    if n ≠ 0 ∧ (a < lo ∨ lo + 0x5FF0000000 < a + n) then (s, .badParam)
    else if cap then (s, .busy)
    else (modDie s k (fun d => { d with cowSize := BitVec.ofNat 32 v }), .done)
  | 0x48 =>
    if 168 < v % 256 then (s, .badParam)
    else (modDie s k (fun d => { d with scrubHours := BitVec.ofNat 8 v }), .done)
  | _ => (s, if o ≤ 0x68 then .denied else .done)

/-! ### Die links (R287, R289) -/

/-- A write of a BAR_MASK word, by 16 × channel + word. -/
def writeBarMask (s : State) (k i v : Nat) : State × Status :=
  if !(vgetD s.sync.barriers (i / 16) Barrier.reset).arrived.isEmpty then (s, .busy)
  else
    let m := fun (l : Assoc W64) => if v % 2 ^ 64 = 0 then del l i else put l i (BitVec.ofNat 64 v)
    (modDie s k (fun d => { d with barMask := m d.barMask }), .done)

/-- A write to the link and mesh block of a die. -/
def writeD2dDie (s : State) (k o v : Nat) : State × Status :=
  if 0x100 ≤ o ∧ o < 0x900 ∧ o % 8 = 0 then writeBarMask s k ((o - 0x100) / 8) v
  else (s, if (o < 0xC0 ∧ o % 0x40 ≤ 0x30) ∨ (0xC0 ≤ o ∧ o ≤ 0xE0) then .denied else .done)

/-! ### Fabric package (R315, R317) -/

/-- A table base of the fabric block. -/
def writeFabBase (s : State) (v len : Nat) (f : Fab → W64 → Fab) : State × Status :=
  let a := addrField v 12
  if linearEnd < a + len then (s, .badParam)
  else if s.fab.en then (s, .busy)
  else ({ s with fab := f s.fab (BitVec.ofNat 64 a) }, .done)

/-- A write of FAB_CTL (R308, R315): setting FAB_E2E_ALL takes every flow into E2E. -/
def writeFabCtl (s : State) (v : Nat) : State :=
  let s1 := { s with fab := { s.fab with en := bit v 0, fwdEn := bit v 1, e2eAll := bit v 2 } }
  if bit v 2 ∧ !s.fab.e2eAll then (s1.fab.sends.filter (fun f => !f.e2e)).foldl (fun t f => enterE2e t f.dst) s1 else s1

/-- A write to the fabric package block. -/
def writeFab (s : State) (o v : Nat) : State × Status :=
  match o with
  | 0x08 => (writeFabCtl s v, .done)
  | 0x10 => writeFabBase s v 0x40000 (fun f a => { f with routeBase := a })
  | 0x18 => writeFabBase s v 0x20000 (fun f a => { f with peerBase := a })
  | 0x20 => writeFabBase s v 0x800000 (fun f a => { f with flowBase := a })
  | 0x28 =>
    if bits v 47 32 < 100 ∨ bits v 31 16 < 10 ∨ bits v 7 0 = 0 then (s, .badParam)
    else if !s.fab.txns.isEmpty then (s, .busy)
    else ({ s with fab := { s.fab with toService := BitVec.ofNat 16 (bits v 47 32), toE2e := BitVec.ofNat 16 (bits v 31 16),
                                       tries := BitVec.ofNat 8 v } }, .done)
  | _ => (s, if o ≤ 0x60 then .denied else .done)

/-! ### Sync, command, twin (R334, R335, R364, R384, R387) -/

/-- A write to the sync block. -/
def writeSync (s : State) (o v : Nat) : State × Status :=
  match o with
  | 0x08 =>
    let a := addrField v 20
    if linearEnd < a + 0x100000 then (s, .badParam)
    else if !s.sync.index.isEmpty then (s, .busy)
    else ({ s with sync := { s.sync with tableBase := BitVec.ofNat 64 a } }, .done)
  | 0x10 =>
    if v % 65536 < 200 then (s, .badParam) else ({ s with sync := { s.sync with pollNs := BitVec.ofNat 16 v } }, .done)
  | _ => (s, if o ≤ 0x30 then .denied else .done)

/-- A write to the command block. -/
def writeCmd (s : State) (o v : Nat) : State × Status :=
  match o with
  | 0x08 =>
    let sl := v % 2 ^ 32
    if bits v 47 32 = 0 ∨ sl < 2000 ∨ 1000000 < sl then (s, .badParam)
    else ({ s with cmd := { s.cmd with udpPort := BitVec.ofNat 16 (bits v 63 48), progressMs := BitVec.ofNat 16 (bits v 47 32),
                                       sliceNs := BitVec.ofNat 32 sl } }, .done)
  | _ =>
    if o % 8 = 0 ∧ 0x10 ≤ o ∧ o ≤ 0x28 then
      ({ s with cmd := { s.cmd with ip := vmod s.cmd.ip ((o - 0x10) / 8) (fun _ => BitVec.ofNat 64 v) } }, .done)
    else (s, if o ≤ 0x50 then .denied else .done)

/-- A replay log register changes: the log is empty (R387). -/
def writeRplLog (s : State) (ok : Bool) (f : Twin → Twin) : State × Status :=
  if !ok then (s, .badParam)
  else if s.memblk.stepOn || s.ckpt.replaying.isSome then (s, .busy)
  else ({ s with twin := { f s.twin with log := [] } }, .done)

/-- A write to the twin block. -/
def writeTwin (s : State) (o v : Nat) : State × Status :=
  let a := addrField v 12
  match o with
  | 0x08 =>
    if bits v 31 16 = 0 ∨ v % 65536 < 200 then (s, .badParam)
    else ({ s with twin := { s.twin with digestToMs := BitVec.ofNat 16 (bits v 31 16), hbLimitUs := BitVec.ofNat 16 v } }, .done)
  | 0x30 => writeRplLog s (decide (a < linearEnd) && decide (a + s.twin.logSize.toNat ≤ linearEnd))
      (fun t => { t with logBase := BitVec.ofNat 64 a })
  | 0x38 => writeRplLog s (decide (s.twin.logBase.toNat + a ≤ linearEnd)) (fun t => { t with logSize := BitVec.ofNat 64 a })
  | _ => (s, if o ≤ 0x60 then .denied else .done)

/-! ### Security and power (R409, R427, R428) -/

/-- A write to the security block. -/
def writeCob (s : State) (o v : Nat) : State × Status :=
  match o with
  | 0x08 => writeCredInstall s v
  | 0x20 => writeDebugUnlock s v
  | 0xFF8 => writeAccSel s v
  | _ => (s, if o ≤ 0x28 ∨ (0x100 ≤ o ∧ o < 0x180) ∨ (0x1000 ≤ o ∧ o < 0x1400) then .denied else .done)

/-- A write of PWR_WAKE_CFG, which takes effect at once (R428): buffered messages that it enables begin the exit. -/
def writeWakeCfg (s : State) (v : Nat) : State :=
  let s1 := { s with power := { s.power with wakeCfg := BitVec.ofNat 64 (v &&& 0xFFFFFF1D) } }
  if bit v 2 && !s1.power.buffer.isEmpty then beginExit s1 3 else s1

/-- A write to the power block. -/
def writePower (s : State) (o v : Nat) : State × Status :=
  match o with
  | 0x18 => (writeWakeCfg s v, .done)
  | 0x20 => (modPower s (fun p => { p with wakeFt := BitVec.ofNat 64 v, wakeArmed := decide (now s < v % 2 ^ 64) }), .done)
  | 0x30 =>
    let w := bits v 15 8
    if w < 60 ∨ 100 < w then (s, .badParam)
    else (refreshAlert (modPower s (fun p => { p with thermWarn := BitVec.ofNat 8 w })), .done)
  | _ => (s, if o ≤ 0x58 then .denied else .done)

/-! ### Every block -/

/-- A write to a register of a die. -/
def writeDieBlock (s : State) (k u o v : Nat) : State × Status :=
  match u with
  | 0x10 => (s, if o ≤ 0x28 then .denied else .done)
  | 0x20 => (s, if o ≤ 0x18 then .denied else .done)
  | 0x30 => (s, if o ≤ 0x08 then .denied else .done)
  | 0x40 => writeDieMem s k o v
  | 0x50 => writeD2dDie s k o v
  | 0x60 => (s, if o ≤ 0x180 then .denied else .done)
  | _ => (s, .done)

/-- A write to the register at an offset of a control block (R464, checks 3 to 5); an offset that no register occupies takes
nothing (R459). -/
def writeReg (s : State) (b o v : Nat) : State × Status :=
  if 0x100 ≤ b then writeDieBlock s (b / 0x100 - 1) (b % 0x100) o v
  else if 0x20 ≤ b ∧ b < 0x38 then writePort s (b - 0x20) o v
  else match b with
    | 0x00 => if o = 0x08 then writePkgId s v else (s, if o ≤ 0x18 then .denied else .done)
    | 0x04 => writeInvar s o v
    | 0x08 => writeGuard s o v
    | 0x0C => writeUpd s o v
    | 0x10 => writeExch s o v
    | 0x14 => (s, if o ≤ 0x18 then .denied else .done)
    | 0x18 => (s, if o ≤ 0x30 then .denied else .done)
    | 0x1C => writeFab s o v
    | 0x38 => writeSync s o v
    | 0x3C => writeCmd s o v
    | 0x40 => writeTwin s o v
    | 0x44 => (s, if o ≤ 0x30 then .denied else .done)
    | 0x48 => writeCob s o v
    | 0x4C => writePower s o v
    | 0x50 => (s, if o ≤ 0x18 then .denied else .done)
    | _ => (s, .done)

/-! ### Accesses to memory or registers (R30, R460) -/

/-- The range meets control register space. -/
def meetsCtrl (a n : Nat) : Bool := ((pages a n).map place).any (fun p => match p with
  | .ctrl _ _ => true
  | _ => false)

/-- An access of control register space has the size and alignment of one register (R460). -/
def spaceShape (a n : Nat) : Bool := !meetsCtrl a n || (n == 8 && aligned a 8)

/-- The decision on an access to memory or registers (R30, R460): a wrong size or alignment first. -/
def spaceStatus (s : State) (mid a n : Nat) (need : Perm) : Status :=
  if mapped a n && !spaceShape a n then .badParam else accessStatus s mid a n need

/-- The commits that wait in drain queues go ahead of an access to the accumulation stores that a range touches (R64). -/
def drainAhead (s : State) (a n : Nat) : State :=
  (((pages a n).filterMap (fun p => match place p with
    | .store k o => if accOffset ≤ o then some k else none
    | _ => none)).dedup).foldl drainFirst s

/-- The bytes of an admitted read by a master; in the replay log, those of its records (R371). -/
def spaceRead (s : State) (mid a n : Nat) : State × List Byte :=
  match place a with
  | .ctrl b o => (s, leBytes 8 (regReadAs s mid b o).toNat)
  | _ => let t := drainAhead s a n; (t, areaView t a (rdBytes t a n))

/-- An admitted write. -/
def spaceWrite (s : State) (a : Nat) (bs : List Byte) : State × Status :=
  match place a with
  | .ctrl b o => writeReg s b o (leNat bs)
  | _ => (wrBytes (drainAhead s a bs.length) a bs, .done)

/-- A read by a unit of the package, as its meshes count it (R289). -/
def ownRead (s : State) (mid a n : Nat) : State × List Byte := spaceRead (meshTrip s mid a n false) mid a n

/-- A write by a unit of the package, as its meshes count it (R289). -/
def ownWrite (s : State) (mid a : Nat) (bs : List Byte) : State × Status := spaceWrite (meshTrip s mid a bs.length true) a bs

/-- A write of a register by its local address, decided in the order of R464: the address, a fenced die (R31), the access table, the
access code and the value; the state is last, where a block whose unit is not up, or which Hold has stopped (R461), gives BUSY. -/
def writeAt (s : State) (mid a len v : Nat) : State × Status :=
  match place a with
  | .ctrl b o =>
    if len ≠ 8 ∨ !aligned a 8 then (s, .badParam)
    else if placeLost s (masterDie mid) (.ctrl b o) then (s, .dieLost)
    else if !tableAdmits s (place a).target mid (place a).compared .w then (countDenied s, .denied)
    else
      let r := writeReg (meshTrip s mid a 8 true) b o v
      if r.2 = .done ∧ (!placeUp s (.ctrl b o) || placeStopped s (.ctrl b o)) then (s, .busy) else r
  | _ => (s, .badParam)

end Sys2Proof.Machine
end

