-- ==== Sys2Proof/Machine/MemCmd.lean ====
section
/-! DEFINITION. Register and memory commands (R355): REG_READ, REG_WRITE, MEM_READ, MEM_WRITE, MEM_COPY and MEM_FILL. -/

namespace Sys2Proof.Machine

/-! ### Registers -/

/-- Every byte of a range lies in control register space. -/
def ctrlRange (a n : Nat) : Bool := ((pages a n).map place).all (fun p => match p with
  | .ctrl _ _ => true
  | _ => false)

/-- Registers read in increasing address. -/
def readRegs (mid a : Nat) : Nat → State → State × List Byte
  | 0, s => (s, [])
  | n + 1, s =>
    let r := ownRead s mid a 8
    let q := readRegs mid (a + 8) n r.1
    (q.1, r.2 ++ q.2)

/-- REG_READ (R355): the whole range is checked first. -/
def doRegRead (h : CmdHdr) (addr : W64) (count : W32) (s : State) : State :=
  let a := addr.toNat
  let n := count.toNat
  if !aligned a 8 ∨ n = 0 ∨ 4096 < n ∨ !ctrlRange a (8 * n) then answer s h 0x0201 .badParam
  else match cmdAccess s h.master.toNat a (8 * n) .r with
    | .done => let r := readRegs h.master.toNat a n s; reply r.1 h 0x0201 .done r.2
    | st => answer (noteAccess s st) h 0x0201 st

/-- REG_READ (R355). -/
def execRegRead (h : CmdHdr) (addr : W64) (count : W32) (s : State) : Host.Outcome State Fault Refusal :=
  .next (cmdStart (.regRead h addr count) h 0x0201 (doRegRead h addr count) s)

/-- Registers written in increasing address, up to the first write that is not DONE: the state, the status and how many were
written before it. -/
def writeRegs (mid a : Nat) : List W64 → Nat → State → State × Status × Nat
  | [], k, s => (s, .done, k)
  | v :: t, k, s =>
    let r := writeAt s mid (a + 8 * k) 8 v.toNat
    if r.2 = .done then writeRegs mid a t (k + 1) r.1 else (r.1, r.2, k)

/-- REG_WRITE (R355). One that comes to a register of a unit that Hold has stopped is buffered whole if it has WAKE (R421). -/
def doRegWrite (h : CmdHdr) (addr : W64) (count : W32) (values : List W64) (s : State) : State :=
  if count = 0 ∨ 4096 < count.toNat ∨ values.length ≠ count.toNat then reply s h 0x0202 .badParam (leBytes 4 0)
  else
    let r := writeRegs h.master.toNat addr.toNat values 0 s
    if h.wake ∧ r.2.1 = .busy ∧ placeStopped s (place (addr.toNat + 8 * r.2.2)) then
      bufferWake s (.regWrite h addr count values) h 0x0202
    else reply r.1 h 0x0202 r.2.1 (leBytes 4 r.2.2)

/-- REG_WRITE (R355). -/
def execRegWrite (h : CmdHdr) (addr : W64) (count : W32) (values : List W64) (s : State) : Host.Outcome State Fault Refusal :=
  .next (cmdStart (.regWrite h addr count values) h 0x0202 (doRegWrite h addr count values) s)

/-! ### Operands -/

/-- The decision on a memory operand of a command (R353, R30, R460). -/
def memStatus (s : State) (mid : Nat) (x : XAddr) (n : Nat) (need : Perm) : Status :=
  match xPlace s x 0 with
  | .here a => if mapped a n && !spaceShape a n then .badParam else cmdAccess s mid a n need
  | _ => if xBadParam s x n then .badParam else .done

/-- The operand lies in Ethernet storage. -/
def isStorage (x : XAddr) : Bool := x.kind == 2

/-- What a read of local memory meets besides its access (R257, R258, R250). -/
def readMeets (s : State) (a n : Nat) : Status :=
  firstBad [observerStatus s a n, if poisoned s a n then .degraded else .done]

/-- Transactions and transfers of a command that await their answers. -/
def cmdPending (s : State) (id : Nat) : Bool :=
  let mine := fun (w : TxnFor) => match w with
    | .cmd i _ => i == id
    | _ => false
  s.fab.txns.any (fun t => mine t.what) || s.fab.waitq.any (fun t => mine t.what) || s.fab.eth.any (fun x => x.op == id)

/-! ### MEM_READ and MEM_WRITE -/

/-- A command that waits for other packages. -/
def addWait (s : State) (h : CmdHdr) (op n : Nat) : State :=
  let w : MemWait := { id := s.cmd.nextLong, hdr := h, opcode := BitVec.ofNat 16 op, bytes := List.replicate n 0, bad := none }
  { s with cmd := { s.cmd with waits := s.cmd.waits ++ [w], nextLong := s.cmd.nextLong + 1 } }

/-- MEM_READ (R355). -/
def doMemRead (h : CmdHdr) (src : XAddr) (len : W32) (s : State) : State :=
  let n := len.toNat
  if n = 0 ∨ 61440 < n ∨ isStorage src then answer s h 0x0203 .badParam
  else match memStatus s h.master.toNat src n .r, xPlace s src 0 with
    | .done, .here a =>
      (match readMeets s a n with
       | .done => let r := ownRead s h.master.toNat a n; reply r.1 h 0x0203 .done r.2
       | st => answer (noteObserver s .done st) h 0x0203 st)
    | .done, .there id a => readThere (addWait s h 0x0203 n) id a n (fun o => .cmd s.cmd.nextLong (some o))
    | st, _ => answer (noteAccess s st) h 0x0203 st

/-- MEM_READ (R355). -/
def execMemRead (h : CmdHdr) (src : XAddr) (len : W32) (s : State) : Host.Outcome State Fault Refusal :=
  .next (cmdStart (.memRead h src len) h 0x0203 (doMemRead h src len) s)

/-- MEM_WRITE (R355): a partial write of a poisoned line completes DEGRADED (R249). -/
def doMemWrite (h : CmdHdr) (dst : XAddr) (len : W32) (data : List Byte) (s : State) : State :=
  let n := len.toNat
  if n = 0 ∨ 61440 < n ∨ isStorage dst ∨ data.length ≠ n then answer s h 0x0204 .badParam
  else match memStatus s h.master.toNat dst n .w, xPlace s dst 0 with
    | .done, .here a =>
      let r := ownWrite s h.master.toNat a data
      answer r.1 h 0x0204 (firstBad [r.2, if partialPoison s a n then .degraded else .done])
    | .done, .there id a => writeThere (addWait s h 0x0204 0) id a data (.cmd s.cmd.nextLong none)
    | st, _ => answer (noteAccess s st) h 0x0204 st

/-- MEM_WRITE (R355). -/
def execMemWrite (h : CmdHdr) (dst : XAddr) (len : W32) (data : List Byte) (s : State) : Host.Outcome State Fault Refusal :=
  .next (cmdStart (.memWrite h dst len data) h 0x0204 (doMemWrite h dst len data) s)

/-- A waiting MEM_READ or MEM_WRITE takes an answer, and completes with the last (R355). -/
def waitAnswer (s : State) (w : MemWait) (off : Option Nat) (st : Status) (bs : List Byte) : State :=
  let put := fun (l : List Byte) => match off with
    | some o => l.take o ++ bs ++ l.drop (o + bs.length)
    | none => l
  let v : MemWait := { w with bytes := if st = .done then put w.bytes else w.bytes
                              bad := if st = .done then w.bad else w.bad.orElse (fun _ => some st) }
  if cmdPending s w.id then { s with cmd := { s.cmd with waits := s.cmd.waits.map (fun x => if x.id = w.id then v else x) } }
  else
    let s1 := { s with cmd := { s.cmd with waits := s.cmd.waits.filter (fun x => x.id ≠ w.id) } }
    match v.bad with
    | some e => answer s1 w.hdr w.opcode.toNat e
    | none => reply s1 w.hdr w.opcode.toNat .done v.bytes

/-! ### MEM_COPY -/

/-- Whether a key of memory lies in a range of local addresses. -/
def keyIn (a n k : Nat) : Bool := (pagePieces a n).any (fun p => decide (keyOf p.1 ≤ k) && decide (k < keyOf p.1 + p.2))

/-- A byte of the source of a copy whose value is open: it lies in a poisoned line (R249), or in the destination, since bytes
move in no defined order (R355). -/
def openByte (s : State) (a b lo n i : Nat) : Bool :=
  (match lineOf (a + i) with
   | some l => s.poison.contains l
   | none => false) || (keyIn lo n (keyOf (a + i)) && keyOf (a + i) != keyOf (b + i))

/-- The bytes that a copy of a master takes from a local source at `a`, with those that are open as free values (log entry 3). The whole
destination begins at `lo` and has `n` bytes; `b` is where these `k` go. -/
def copySource (s : State) (mid a b lo n k : Nat) : State × List Byte :=
  if meetsCtrl a k then ownRead s mid a k
  else
    let t := drainAhead (meshTrip s mid a k false) a k
    (useFresh t 1, (List.range k).map (fun i =>
      if openByte t a b lo n i then Config.freeByte t.fresh i else viewByte t (a + i) (rdByte t (a + i))))

/-- The lines that poisoned bytes of a source reach in stack memory become poisoned (R249), which their sync words show at once
(R320, R324). -/
def copyPoison (s : State) (old : List Nat) (a b k : Nat) : State :=
  let bad := ((List.range k).filterMap (fun i =>
    match lineOf (a + i), lineOf (b + i) with
    | some l, some m => if old.contains l then some m else none
    | _, _ => none)).dedup
  (bad.filter (fun m => !s.poison.contains m)).foldl wakeLine { s with poison := bad.foldl insertNat s.poison }

/-- A MEM_COPY changed. -/
def modCopy (s : State) (id : Nat) (f : Nat → Option W64 → Option Status → Bool → Nat × Option W64 × Option Status × Bool) : State :=
  modLong s id (fun o => match o.kind with
    | .memCopy x y n ca cv d e b w => let r := f d e b w; { o with kind := .memCopy x y n ca cv r.1 r.2.1 r.2.2.1 r.2.2.2 }
    | _ => o)

/-- The first error of a MEM_COPY. -/
def copyBad (s : State) (id : Nat) (st : Status) : State :=
  if st = .done then s else modCopy s id (fun d e b w => (d, e, b.orElse (fun _ => some st), w))

/-- The master of a long operation's command. -/
def longMaster (s : State) (id : Nat) : Nat :=
  match longOp s id with
  | some o => o.hdr.master.toNat
  | none => 0xFFFF

/-- `k` bytes of a MEM_COPY put at their local destination. -/
def copyPut (s : State) (id b : Nat) (bs : List Byte) : State :=
  let part := if partialPoison s b bs.length then Status.degraded else .done
  let r := ownWrite s (longMaster s id) b bs
  copyBad r.1 id (firstBad [r.2, part])

/-- `k` bytes of a MEM_COPY moved from byte `d` on; what lies elsewhere is asked for or sent, and answered later. -/
def copyMove (s : State) (id : Nat) (x y : XAddr) (len d k : Nat) : State :=
  match xPlace s x d, xPlace s y d with
  | .here a, .here b =>
    let lo := match xPlace s y 0 with
      | .here c => c
      | _ => b
    let q := copySource s (longMaster s id) a b lo len k
    let s1 := copyPoison (copyPut q.1 id b q.2) s.poison a b k
    copyBad s1 id (if poisoned s a k then .degraded else .done)
  | .here a, _ =>
    let q := copySource s (longMaster s id) a 0 0 0 k
    copyBad (xWrite q.1 y d q.2 (.cmd id none) id) id (if poisoned s a k then .degraded else .done)
  | .there p a, .here _ => readThere s p a k (fun o => .cmd id (some (d + o)))
  | .storage p qp o, .here _ => readStorage s p qp o k id
  | _, _ => s

/-- A MEM_COPY ends: BYTES, and the epoch of the state bytes that it read (R355, R346). -/
def copyEnd (s : State) (o : LongOp) (e : Option W64) (st : Status) (bytes : Nat) : State :=
  let s1 := { s with cmd := { s.cmd with longs := s.cmd.longs.filter (fun x => x.id ≠ o.id) } }
  replyFull s1 o.hdr o.opcode.toNat st (leBytes 8 bytes) o.cursor.toNat (e.getD s.memblk.epoch)

/-- A MEM_COPY with nothing outstanding: its prefix has been written, its completion ADD follows the last byte, and then it
ends (R131, R355). -/
def copySettle (s : State) (id : Nat) : State :=
  match longOp s id with
  | none => s
  | some o =>
    match o.kind with
    | .memCopy _ _ len ca cv d e bad adding =>
      if cmdPending s id then s else
      let o1 := { o with cursor := if bad.isSome then o.cursor else BitVec.ofNat 64 d }
      let s1 := modLong s id (fun q => { q with cursor := o1.cursor })
      match bad with
      | some st => copyEnd s1 o1 e st o1.cursor.toNat
      | none =>
        if d < len.toNat then s1
        else if ca = 0 ∨ adding then copyEnd s1 o1 e .done d
        else
          let r := globalAdd s1 o.hdr.master.toNat ca cv.toNat (.cmd id none)
          match r.2 with
          | some st => copyEnd r.1 o1 e st d
          | none => modCopy r.1 id (fun d e b _ => (d, e, b, true))
    | _ => s

/-- The epoch of the state bytes that a local source holds; none when it touches no state range. -/
def sourceEpoch (s : State) (x : XAddr) (d k : Nat) : Option W64 :=
  match xPlace s x d with
  | .here a => if inStateRange s a k then some s.memblk.epoch else none
  | _ => none

/-- An operand at an offset, as an operand of its own. -/
def xAt (x : XAddr) (d : Nat) : XAddr := { x with addr := x.addr + BitVec.ofNat 64 d }

/-- What the hold says of the source of a copy (R257). -/
def copyHeld (s : State) (x : XAddr) (d k : Nat) : Status :=
  match xPlace s x d with
  | .here a => observerStatus s a k
  | _ => .done

/-- The accesses of `k` bytes of a MEM_COPY. -/
def copyAccess (s : State) (mid : Nat) (x y : XAddr) (d k : Nat) : Status :=
  firstBad [memStatus s mid (xAt x d) k .r, memStatus s mid (xAt y d) k .w]

/-- What a slice of a MEM_COPY meets: its accesses, the hold, and one epoch for every slice (R257). -/
def copyMeets (s : State) (mid : Nat) (x y : XAddr) (d k : Nat) (e : Option W64) : Status :=
  let torn := match e, sourceEpoch s x d k with
    | some p, some q => if p = q then Status.done else .busy
    | _, _ => .done
  firstBad [copyAccess s mid x y d k, copyHeld s x d k, torn]

/-- Bytes of a slice of `n`: a range that one register could be goes in one slice (R460). -/
def sliceLen (n len d : Nat) : Nat := if len ≤ 8 then len - d else min n (len - d)

/-- A slice of a MEM_COPY: `n` bytes. A unit that Hold has stopped, or an edge that trains, makes it wait (R276). -/
def sliceCopy (s : State) (o : LongOp) (n : Nat) : State :=
  match o.kind with
  | .memCopy x y len _ _ d e bad _ =>
    let k := sliceLen n len.toNat d
    if bad.isSome ∨ k = 0 then copySettle s o.id
    else if xStopped s (xAt x d) k || xStopped s (xAt y d) k || xTrains s o.hdr (xAt x d) k || xTrains s o.hdr (xAt y d) k then s
    else
      let st := copyMeets s o.hdr.master.toNat x y d k e
      if st ≠ .done then
        copySettle (copyBad (noteObserver (noteAccess s st) (copyAccess s o.hdr.master.toNat x y d k) (copyHeld s x d k))
          o.id st) o.id
      else
        let s1 := modCopy s o.id (fun _ e b w => (d + k, e.orElse (fun _ => sourceEpoch s x d k), b, w))
        copySettle (copyMove s1 o.id x y len.toNat d k) o.id
  | _ => s

/-- An answer to a request of a MEM_COPY: bytes read go to their destination; an orphaned completion word discards the ADD
(R320). -/
def copyAnswer (s : State) (o : LongOp) (off : Option Nat) (st : Status) (bs : List Byte) : State :=
  match o.kind with
  | .memCopy _ y _ _ _ _ _ _ adding =>
    let s1 :=
      if adding then (if st = .ownerLost then s else copyBad s o.id st)
      else if st ≠ .done then copyBad s o.id st
      else match off with
        | none => s
        | some f =>
          (match memStatus s o.hdr.master.toNat (xAt y f) bs.length .w, xPlace s y f with
           | .done, .here b => copyPut s o.id b bs
           | e, _ => copyBad (noteAccess s e) o.id e)
    copySettle s1 o.id
  | _ => s

/-- An answer to a request of a memory command. -/
def cmdAnswer (s : State) (id : Nat) (off : Option Nat) (st : Status) (bs : List Byte) : State :=
  match longOp s id with
  | some o => copyAnswer s o off st bs
  | none =>
    match s.cmd.waits.find? (fun w => w.id == id) with
    | some w => waitAnswer s w off st bs
    | none => s

/-- The first slice of a long operation has run: IN_PROGRESS, unless it has ended (R349). -/
def firstReply (s : State) (h : CmdHdr) (op id : Nat) : State :=
  match longOp s id with
  | some o => replyFull s h op .inProgress [] o.cursor.toNat s.memblk.epoch
  | none => s

/-- MEM_COPY needs a local operand, and storage only opposite one (R355). -/
def copyShape (s : State) (x y : XAddr) : Bool :=
  (localX s x).isSome || (localX s y).isSome

/-- MEM_COPY (R355). -/
def doMemCopy (h : CmdHdr) (src dst : XAddr) (len caddr cval : W64) (slice : Nat) (s : State) : State :=
  let n := len.toNat
  let mid := h.master.toNat
  if n = 0 ∨ 2 ^ 40 < n ∨ !copyShape s src dst ∨ xBadParam s src n ∨ xBadParam s dst n then answer s h 0x0205 .badParam
  else
    let first := firstBad [memStatus s mid src n .r, memStatus s mid dst n .w]
    let held := copyHeld s src 0 n
    match firstBad [first, held] with
    | .done =>
      let id := s.cmd.nextLong
      let s1 := startLong s h 0x0205 (.memCopy src dst len caddr cval 0 none none false)
      let s2 := match longOp s1 id with
        | some o => sliceCopy s1 o slice
        | none => s1
      firstReply s2 h 0x0205 id
    | st => answer (noteObserver (noteAccess s st) first held) h 0x0205 st

/-- MEM_COPY (R355). -/
def execMemCopy (h : CmdHdr) (src dst : XAddr) (len caddr cval : W64) (slice : Nat) (s : State) :
    Host.Outcome State Fault Refusal :=
  .next (cmdStart (.memCopy h src dst len caddr cval slice) h 0x0205 (doMemCopy h src dst len caddr cval slice) s)

/-! ### MEM_FILL -/

/-- `k` bytes of a fill from byte `d` of its range on. -/
def fillBytes (p : W64) (d k : Nat) : List Byte := (List.range k).map (fun i => BitVec.ofNat 8 (p.toNat / 256 ^ ((d + i) % 8)))

/-- A slice of a MEM_FILL: `n` bytes. -/
def sliceFill (s : State) (o : LongOp) (n : Nat) : State :=
  match o.kind with
  | .memFill a len p d bad =>
    let k := sliceLen n len.toNat d
    let b := a.toNat + d
    if touchesStopped s b k || trainHolds s o.hdr.master.toNat b k then s else
    let x : XAddr := { addr := BitVec.ofNat 64 b, kind := 0, port := 0, qp := 0 }
    match memStatus s o.hdr.master.toNat x k .w with
    | .done =>
      let part := if partialPoison s b k then Status.degraded else .done
      let r := if k = 0 then (s, Status.done) else ownWrite s o.hdr.master.toNat b (fillBytes p d k)
      let st := firstBad [bad.getD .done, r.2, part]
      let c : W64 := BitVec.ofNat 64 (d + k)
      let s1 := modLong r.1 o.id (fun q => { q with
        kind := .memFill a len p (d + k) (if st = .done then none else some st), cursor := c })
      if d + k < len.toNat then s1 else endLong s1 { o with cursor := c } st []
    | st => endLong (noteAccess s st) o st []
  | _ => s

/-- MEM_FILL (R355). -/
def doMemFill (h : CmdHdr) (dst : XAddr) (len pattern : W64) (slice : Nat) (s : State) : State :=
  let n := len.toNat
  if dst.kind ≠ 0 ∨ n % 8 ≠ 0 then answer s h 0x0206 .badParam
  else match memStatus s h.master.toNat dst n .w with
    | .done =>
      let id := s.cmd.nextLong
      let s1 := startLong s h 0x0206 (.memFill dst.addr len pattern 0 none)
      let s2 := match longOp s1 id with
        | some o => sliceFill s1 o slice
        | none => s1
      firstReply s2 h 0x0206 id
    | st => answer (noteAccess s st) h 0x0206 st

/-- MEM_FILL (R355). -/
def execMemFill (h : CmdHdr) (dst : XAddr) (len pattern : W64) (slice : Nat) (s : State) : Host.Outcome State Fault Refusal :=
  .next (cmdStart (.memFill h dst len pattern slice) h 0x0206 (doMemFill h dst len pattern slice) s)

end Sys2Proof.Machine
end

