-- ==== Sys2Proof/Machine/StreamCmd.lean ====
section
/-! DEFINITION. Program and stream commands (R356): PROGRAM_LOAD, STREAM_START, STREAM_STOP, STREAM_STATUS and SEED_SET. -/

namespace Sys2Proof.Machine

/-- The clusters that a command names. -/
def namedClusters (first count : Nat) : List Nat := (List.range count).map (first + ·)

/-- A named cluster lies on a fenced die (R31). -/
def namedLost (s : State) (first count : Nat) : Bool := (namedClusters first count).any (fun n => dieFenced s (n / 1024))

/-- A named cluster lies on a die that is not up. -/
def namedOff (s : State) (first count : Nat) : Bool := (namedClusters first count).any (fun n => !(die s (n / 1024)).on)

/-- A named cluster serves a pass that runs (R190): the service program runs in its SVC context. -/
def namedServes (s : State) (first count : Nat) : Bool :=
  (namedClusters first count).any (fun n => serviceRuns s n .svc)

/-- A context of a named cluster counts as running (R114). -/
def namedRuns (s : State) (first count : Nat) : Bool :=
  anyStream s (fun n t => decide (first ≤ n) && decide (n < first + count) && streamRuns t) || namedServes s first count

/-! ### PROGRAM_LOAD -/

/-- A slice of a PROGRAM_LOAD: `k` clusters. -/
def sliceLoad (s : State) (o : LongOp) (k : Nat) : State :=
  match o.kind with
  | .programLoad src len off first count d =>
    let m := min k (count - d)
    let a := src.toNat
    match firstBad (cmdAccess s o.hdr.master.toNat a len .r :: (if poisoned s a len then .degraded else .done) ::
        (namedClusters (first + d) m).map (fun n => cmdAccess s o.hdr.master.toNat (storeAddr n off) len .w)) with
    | .done =>
      let bs := rdBytes s a len
      let s1 := (namedClusters (first + d) m).foldl (fun t n => wrBytes t (storeAddr n off) bs) s
      let c : W64 := BitVec.ofNat 64 (d + m)
      let s2 := modLong s1 o.id (fun q => { q with kind := .programLoad src len off first count (d + m), cursor := c })
      if d + m < count then s2 else endLong s2 { o with cursor := c } .done []
    | .busy => s
    | st => endLong (noteAccess s st) o st []
  | _ => s

/-- The decision on a PROGRAM_LOAD (R356, R353). -/
def loadRefused (s : State) (mid : Nat) (src : W64) (len off : W32) (first count : W16) : Status :=
  let a := src.toNat
  let n := len.toNat
  let f := first.toNat
  let c := count.toNat
  if c = 0 ∨ 4096 < c ∨ 4096 < f + c ∨ 0x300000 < off.toNat + n ∨ !aligned off.toNat 16 ∨
      !(pages a n).all (fun p => (place p).isStack) then .badParam
  else if namedLost s f c then .dieLost
  else if namedOff s f c || namedRuns s f c then .busy
  else firstBad (cmdAccess s mid a n .r :: (namedClusters f c).map (fun k => cmdAccess s mid (storeAddr k off.toNat) n .w))

/-- PROGRAM_LOAD (R356). -/
def doProgramLoad (h : CmdHdr) (src : W64) (len offset : W32) (first count : W16) (slice : Nat) (s : State) : State :=
  match loadRefused s h.master.toNat src len offset first count with
  | .done =>
    let id := s.cmd.nextLong
    let s1 := startLong s h 0x0301 (.programLoad src len.toNat offset.toNat first.toNat count.toNat 0)
    let s2 := match longOp s1 id with
      | some o => sliceLoad s1 o slice
      | none => s1
    firstReply s2 h 0x0301 id
  | st => answer (noteAccess s st) h 0x0301 st

/-- PROGRAM_LOAD (R356). -/
def execProgramLoad (h : CmdHdr) (src : W64) (len offset : W32) (first count : W16) (slice : Nat) (s : State) :
    Host.Outcome State Fault Refusal :=
  .next (cmdStart (.programLoad h src len offset first count slice) h 0x0301 (doProgramLoad h src len offset first count slice) s)

/-! ### STREAM_START and STREAM_STOP -/

/-- The cluster of the stream that a header names (R110). -/
def hdrCluster (h : CmdHdr) : Nat := h.stream.toNat / 4

/-- The context of the stream that a header names (R110). -/
def hdrCtx (h : CmdHdr) : Ctx := ctxOf h.stream.toNat

/-- STREAM_START (R112, R115, R190, R114): DEFERRED while the stream stops, replacing an earlier deferred start. -/
def doStreamStart (h : CmdHdr) (form : Byte) (banks entLo entHi : W16) (pc : W32) (xs : List W64) (s : State) : State :=
  let n := hdrCluster h
  let c := hdrCtx h
  let p : StartParams := { hdr := h, form := form, banks := banks, entLo := entLo, entHi := entHi, pc := pc, xs := xs }
  if 0x4000 ≤ h.stream.toNat ∨ 1 < form.toNat then answer s h 0x0302 .badParam
  else if dieFenced s (n / 1024) then answer s h 0x0302 .dieLost
  else if !(die s (n / 1024)).on || namedServes s n 1 then answer s h 0x0302 .busy
  else if (stream s n c).st = .stopping then
    let s1 := match (stream s n c).deferred with
      | some q => answer s q.hdr 0x0302 .retry
      | none => s
    answer (modStream s1 n c (fun t => { t with deferred := some p })) h 0x0302 .deferred
  else
    let r := applyStart s n c p
    answer r.1 h 0x0302 r.2

/-- STREAM_START (R112). -/
def execStreamStart (h : CmdHdr) (form : Byte) (banks entLo entHi : W16) (pc : W32) (xs : List W64) (s : State) :
    Host.Outcome State Fault Refusal :=
  .next (cmdStart (.streamStart h form banks entLo entHi pc xs) h 0x0302 (doStreamStart h form banks entLo entHi pc xs) s)

/-- The deferred start of a stopping stream is cancelled with RETRY (R115). -/
def cancelDeferred (s : State) (n : Nat) (c : Ctx) : State :=
  match (stream s n c).deferred with
  | some q => answer (modStream s n c (fun t => { t with deferred := none })) q.hdr 0x0302 .retry
  | none => s

/-- STREAM_STOP (R140, R115): a running stream stops; one that stops already waits with it, and a deferred start is
cancelled. -/
def doStreamStop (h : CmdHdr) (s : State) : State :=
  let n := hdrCluster h
  let c := hdrCtx h
  let t := stream s n c
  if 0x4000 ≤ h.stream.toNat then answer s h 0x0303 .badParam
  else if dieFenced s (n / 1024) then answer s h 0x0303 .dieLost
  else match t.st with
    | .running => startLongReply (stopStream s n c) h 0x0303 (.streamStop h.stream.toNat)
    | .stopping => startLongReply (cancelDeferred s n c) h 0x0303 (.streamStop h.stream.toNat)
    | _ => answer s h 0x0303 .done

/-- STREAM_STOP (R140). -/
def execStreamStop (h : CmdHdr) (s : State) : Host.Outcome State Fault Refusal :=
  .next (cmdStart (.streamStop h) h 0x0303 (doStreamStop h) s)

/-- What STREAM_STATUS shows of a stream (R141): a service program RUNNING, at a PC that the manual does not give (R190;
log entry 3). -/
def statusBytes (s : State) (i f : Nat) : List Byte :=
  if serviceRuns s (i / 4) (ctxOf i) then wordsBytes [1, Config.freeNat f % 2 ^ 22, 0, 0, 0, 0, 0, 0]
  else recordBytes (stream s (i / 4) (ctxOf i))

/-- STREAM_STATUS (R141, R356). -/
def doStreamStatus (h : CmdHdr) (count : W16) (s : State) : State :=
  let a := h.stream.toNat
  let k := count.toNat
  if k = 0 ∨ 1024 < k ∨ 16384 < a + k then answer s h 0x0304 .badParam
  else reply (if passRuns s && hasService s then useFresh s k else s) h 0x0304 .done
    ((List.range k).flatMap (fun i => statusBytes s (a + i) (s.fresh + i)))

/-- STREAM_STATUS (R141). -/
def execStreamStatus (h : CmdHdr) (count : W16) (s : State) : Host.Outcome State Fault Refusal :=
  .next (cmdStart (.streamStatus h count) h 0x0304 (doStreamStatus h count) s)

/-! ### SEED_SET -/

/-- The lanes that SETS covers (R356). -/
def seedLanes (sets : Byte) : List Nat :=
  (if sets.getLsbD 0 then List.range 64 else []) ++ (if sets.getLsbD 1 then (List.range 64).map (64 + ·) else [])

/-- The generators of a cluster seeded (R104). -/
def seedCluster (s : State) (seed : List Byte) (sets : Byte) (n : Nat) : State :=
  modCluster s n (fun k => { k with gens := (seedLanes sets).foldl (fun g l => put g l (seedState seed n l)) k.gens })

/-- A slice of a SEED_SET: `k` clusters. R109 asks for no running stream on a covered cluster and names no later moment: the check
is made once, at the start, and a slice seeds a cluster on which a stream was started since (DESIGN CHOICE, log entry 34). -/
def sliceSeed (s : State) (o : LongOp) (k : Nat) : State :=
  match o.kind with
  | .seedSet seed first count sets d =>
    let m := min k (count - d)
    if namedLost s (first + d) m then endLong s o .dieLost []
    else
      let s1 := (namedClusters (first + d) m).foldl (fun t n => seedCluster t seed sets n) s
      let c : W64 := BitVec.ofNat 64 (d + m)
      let s2 := modLong s1 o.id (fun q => { q with kind := .seedSet seed first count sets (d + m), cursor := c })
      if d + m < count then s2 else endLong s2 { o with cursor := c } .done []
  | _ => s

/-- SEED_SET (R104, R109). -/
def doSeedSet (h : CmdHdr) (seed : List Byte) (first count : W16) (sets : Byte) (slice : Nat) (s : State) : State :=
  let f := first.toNat
  let c := count.toNat
  if c = 0 ∨ 4096 < c ∨ 4096 < f + c then answer s h 0x0305 .badParam
  else if namedLost s f c then answer s h 0x0305 .dieLost
  else if namedOff s f c || namedRuns s f c then answer s h 0x0305 .busy
  else
    let id := s.cmd.nextLong
    let s1 := startLong s h 0x0305 (.seedSet (seed32 seed) f c sets 0)
    let s2 := match longOp s1 id with
      | some o => sliceSeed s1 o slice
      | none => s1
    firstReply s2 h 0x0305 id
where
  /-- the 32 bytes of the job seed -/
  seed32 (l : List Byte) : List Byte := Sys2Proof.Machine.slice l 0 32

/-- SEED_SET (R104). -/
def execSeedSet (h : CmdHdr) (seed : List Byte) (first count : W16) (sets : Byte) (slice : Nat) (s : State) :
    Host.Outcome State Fault Refusal :=
  .next (cmdStart (.seedSet h seed first count sets slice) h 0x0305 (doSeedSet h seed first count sets slice) s)

end Sys2Proof.Machine
end

