-- ==== Sys2Proof/Machine/Twin.lean ====
section
/-! DEFINITION. The twin protocol (R366 to R369, R382, R383), DIGEST_QUERY (R359) and the remapping of clusters (R379,
R380). -/

namespace Sys2Proof.Machine

/-- Solder runs: on the I/O die, in Run or Hold. -/
def solderRuns (s : State) : Bool := iodOn s

/-- A TWIN_JOIN in progress and the state that it came from. -/
def joinOf (s : State) : Option (LongOp × BitVec 3) :=
  s.cmd.longs.findSome? (fun o => match o.kind with
    | .twinJoin _ p => some (o, p)
    | _ => none)

/-- TWIN_ST returns to what it was before a join, its cause unchanged. -/
def leaveJoin (s : State) (prev : BitVec 3) : State := setTwin s prev.toNat s.twin.cause.toNat

/-- A TWIN_JOIN in progress ends (R382). -/
def endJoin (s : State) (st : Status) : State :=
  match joinOf s with
  | some (o, _) => endLong s o st []
  | none => s

/-- Both ends hold each other's JOIN for one epoch (R382): PAIRED, or DIGEST_MISMATCH. -/
def tryJoin (s : State) : State :=
  match joinOf s, s.twin.joinIn with
  | some (o, prev), some (e, d) =>
    if s.twin.st ≠ 1 ∨ o.kind ≠ .twinJoin e prev then s else
    let s1 := modTwin s (fun t => { t with joinIn := none })
    if d = committedDigest s then endJoin (setTwin s1 2 0) .done
    else endJoin (leaveJoin s1 prev) .digestMismatch
  | _, _ => s

/-- A twin port that has identified another part at its far end (R4): such a port is in FAULT (R295), and FAB_PEER_PART holds the
part. -/
def otherPart (s : State) : Bool :=
  [22, 23].any (fun p => (port s p).peerPart != 0 && (port s p).peerPart != 0x0416)

/-- The status that turns a TWIN_JOIN away (R382). -/
def joinRefused (s : State) (epoch : W64) : Option Status :=
  if otherPart s ∨ epoch ≠ s.memblk.epoch then some .badParam
  else if s.memblk.stepOn || s.twin.st == 1 || s.twin.st == 2 || s.twin.st == 3 || anyFenced s then some .busy
  else none

/-- An accepted TWIN_JOIN (R382): JOINING, and JOIN is sent with the committed digest. -/
def acceptJoin (h : CmdHdr) (epoch : W64) (s : State) : State :=
  let s1 := startLong s h 0x0603 (.twinJoin epoch s.twin.st)
  let s2 := setTwin (modTwin s1 (fun t => { t with joinAt := s.inv.clk })) 1 s.twin.cause.toNat
  let s3 := tryJoin (sendSolder s2 5 epoch (committedDigest s))
  if (joinOf s3).isSome then reply s3 h 0x0603 .inProgress [] else s3

/-- TWIN_JOIN (R382). -/
def doTwinJoin (h : CmdHdr) (epoch : W64) (s : State) : State :=
  match joinRefused s epoch with
  | some st => answer s h 0x0603 st
  | none => acceptJoin h epoch s

/-- TWIN_JOIN (R382). -/
def execTwinJoin (h : CmdHdr) (epoch : W64) (s : State) : Host.Outcome State Fault Refusal :=
  .next (cmdStart (.twinJoin h epoch) h 0x0603 (doTwinJoin h epoch) s)

/-- TWIN_SOLE (R383). -/
def doTwinSole (h : CmdHdr) (s : State) : State :=
  if s.twin.st = 2 ∨ s.twin.st = 3 then
    answer (tryCommit (setTwin (sendSolder s 4 0 0) 4 1)) h 0x0604 .done
  else answer s h 0x0604 .done

/-- TWIN_SOLE (R383). -/
def execTwinSole (h : CmdHdr) (s : State) : Host.Outcome State Fault Refusal :=
  .next (cmdStart (.twinSole h) h 0x0604 (doTwinSole h) s)

/-! ### Solder (R368, R366, R369) -/

/-- SOLDER_HEARTBEAT_SEND (R368): every 100 µs. -/
def execSolderHeartbeatSend (s : State) : Host.Outcome State Fault Refusal :=
  .next (if s.twin.st ≠ 0 ∧ solderRuns s ∧ s.twin.hbAt.toNat + 100000 ≤ clk s then
      sendSolder (modTwin s (fun t => { t with hbAt := s.inv.clk })) 0 0 0
    else s)

/-- A DIGEST from the twin (R369): kept when it is for the epoch being built. -/
def takeDigest (s : State) (e : W64) (d : W128) : State :=
  if e = s.memblk.epoch + 1 then tryCommit (modTwin s (fun t => { t with held := some (e, d) })) else s

/-- FENCED from the twin (R366). -/
def twinFenced (s : State) : State :=
  match s.twin.st.toNat with
  | 1 => setTwin (endJoin s .retry) 0 3
  | 2 => tryCommit (setTwin s 4 3)
  | 3 => setTwin s 4 3
  | _ => s

/-- SOLE from the twin (R366). -/
def twinSole (s : State) : State :=
  if s.twin.st = 2 ∨ s.twin.st = 3 ∨ s.twin.st = 4 then tryCommit (setTwin s 0 4) else s

/-- What a Solder message from the twin does (R366, R369, R374, R382); one of a reserved KIND does nothing (R15). -/
def receiveSolder (s : State) (m : SolderMsg) : State :=
  if 5 < m.kind.toNat then s else
  let s1 := modTwin s (fun t => { t with
    lastMsg := s.inv.clk
    peerId := if m.kind = 0 ∨ m.kind = 5 then m.sender else t.peerId })
  match m.kind.toNat with
  | 1 => takeDigest s1 m.epoch m.digest
  | 2 => modTwin s1 (fun t => { t with peerReplay := some (m.epoch, m.digest) })
  | 3 => twinFenced s1
  | 4 => twinSole s1
  | 5 => tryJoin (modTwin s1 (fun t => { t with joinIn := some (m.epoch, m.digest) }))
  | _ => s1

/-- A Solder message from its 48 bytes (R368). -/
def parseSolder (b : List Byte) : SolderMsg :=
  let w := leAt b 0 4
  { kind := BitVec.ofNat 4 (bits w 31 28), sender := BitVec.ofNat 16 w, st := BitVec.ofNat 3 (leAt b 4 4),
    epoch := BitVec.ofNat 64 (leAt b 8 8), digest := BitVec.ofNat 128 (leAt b 16 16), ft := BitVec.ofNat 64 (leAt b 32 8) }

/-- SOLDER_MESSAGE_RECEIVE (R366). -/
def execSolderMessageReceive (m : SolderMsg) (s : State) : Host.Outcome State Fault Refusal :=
  .next (if solderRuns s then receiveSolder s m else s)

/-- Time since a clk, in ns. -/
def since (s : State) (t : W64) : Nat := clk s - t.toNat

/-- TWIN_HEARTBEAT_LOSS (R366, R382): no Solder message for TWIN_HB_LIMIT_US. A join has heard none before its JOIN was sent. -/
def execTwinHeartbeatLoss (s : State) : Host.Outcome State Fault Refusal :=
  .next (
    if !solderRuns s ∨ since s s.twin.lastMsg < s.twin.hbLimitUs.toNat * 1000 then s else
    let lost := modTwin s (fun t => { t with cntHbLost := satAdd t.cntHbLost 1 })
    match s.twin.st.toNat with
    | 1 =>
      if s.twin.joinAt.toNat ≤ s.twin.lastMsg.toNat then
        (match joinOf s with
         | some (_, prev) => endJoin (leaveJoin lost prev) .retry
         | none => s)
      else s
    | 2 => tryCommit (setTwin lost 4 2)
    | 3 => setTwin lost 4 2
    | _ => s)

/-- TWIN_DIGEST_TIMEOUT (R369): the STEP_COMMIT that waits completes with BUSY and changes nothing. -/
def execTwinDigestTimeout (s : State) : Host.Outcome State Fault Refusal :=
  .next (match s.twin.waitFrom with
    | some f =>
      if s.twin.st = 2 ∧ s.twin.digestToMs.toNat * 1000000 ≤ since s f ∧ (heldDigest s).isNone ∧ solderRuns s then
        endCommit s .busy
      else s
    | none => s)

/-- TWIN_JOIN_TIMEOUT (R382): no JOIN within 10 s. -/
def execTwinJoinTimeout (s : State) : Host.Outcome State Fault Refusal :=
  .next (match joinOf s with
    | some (_, prev) =>
      if s.twin.st = 1 ∧ 10000000000 ≤ since s s.twin.joinAt ∧ solderRuns s then endJoin (leaveJoin s prev) .retry else s
    | none => s)

/-! ### DIGEST_QUERY (R359) -/

/-- The digest of one of the last four committed epochs. -/
def historyDigest (s : State) (e : W64) : Option W128 := (s.upd.history.find? (fun p => p.1 == e)).map (·.2)

/-- DIGEST_QUERY (R359). -/
def doDigestQuery (h : CmdHdr) (epoch : W64) (s : State) : State :=
  match historyDigest s epoch with
  | some d => reply s h 0x0608 .done (leBytes 8 epoch.toNat ++ leBytes 16 d.toNat)
  | none => answer s h 0x0608 .badParam

/-- DIGEST_QUERY (R359). -/
def execDigestQuery (h : CmdHdr) (epoch : W64) (s : State) : Host.Outcome State Fault Refusal :=
  .next (cmdStart (.digestQuery h epoch) h 0x0608 (doDigestQuery h epoch) s)

/-! ### Remapping (R379, R380, R386) -/

/-- A spare: in use, bad, pending, and the logical number served. -/
def spare (s : State) (k row : Nat) : Bool × Bool × Bool × Nat := lookD (die s k).spares row (false, false, false, 0)

/-- REMAP_CLUSTER (R379): the move waits for the next commit instant. -/
def doRemapCluster (h : CmdHdr) (logical : W16) (row : Byte) (s : State) : State :=
  let n := logical.toNat
  let k := n / 1024
  let r := row.toNat
  if 4095 < n ∨ 31 < r then answer s h 0x0606 .badParam
  else
    let d := die s k
    let sp := spare s k r
    if sp.1 || sp.2.1 then answer s h 0x0606 .badParam
    else if (d.pending ++ d.due).any (fun p => p.1 == r || p.2.1 == n % 1024) then answer s h 0x0606 .busy
    else if dieFenced s k then answer s h 0x0606 .dieLost
    else answer (modDie s k (fun d => { d with
      pending := d.pending ++ [(r, n % 1024, h)]
      spares := put d.spares r (false, false, true, n % 1024) })) h 0x0606 .accepted

/-- REMAP_CLUSTER (R379). -/
def execRemapCluster (h : CmdHdr) (logical : W16) (spareRow : Byte) (s : State) : Host.Outcome State Fault Refusal :=
  .next (cmdStart (.remapCluster h logical spareRow) h 0x0606 (doRemapCluster h logical spareRow) s)

/-- The remap table with a spare serving a logical cluster, and the place it leaves marked REMAP_BAD (R379). -/
def remapTable (d : Die) (row logical : Nat) : Die :=
  match d.spares.find? (fun e => e.2.1 && e.2.2.2.2 == logical) with
  | some old => { d with spares := put (put d.spares old.1 (false, true, false, old.2.2.2.2)) row (true, false, false, logical) }
  | none => { d with spares := put d.spares row (true, false, false, logical), remapBad := insertNat d.remapBad logical }

/-- REMAP_PERFORM (R379): a remap that the commit instant has released is made. What the cluster holds stays, since state is kept
by logical number (R24, R108); its contexts stop and resume without a changed bit (R77, R142). -/
def execRemapPerform (k : Fin 4) (row : Fin 32) (s : State) : Host.Outcome State Fault Refusal :=
  .next (
    let d := die s k.val
    match d.due.find? (fun p => p.1 == row.val) with
    | none => s
    | some (r, n, h) =>
      let s1 := modDie s k.val (fun d => { d with due := d.due.filter (fun p => p.1 != row.val) })
      if dieFenced s k.val then
        reply (modDie s1 k.val (fun d => { d with spares := put d.spares r (false, false, false, 0) })) h 0x0606 .dieLost []
      else if !clocksOn s then s
      else reply (modDie s1 k.val (fun d => { remapTable d r n with remapCnt := satAdd d.remapCnt 1 })) h 0x0606 .done [])

end Sys2Proof.Machine
end

