-- ==== Sys2Proof/Machine/Replay.lean ====
section
/-! DEFINITION. REPLAY (R372, R373) with the comparison of replay digests (R374), and RESHARD (R218, R237). -/

namespace Sys2Proof.Machine

/-! ### What a replay needs (R372) -/

/-- What a replay restores of a tensor, as runs of addresses (R373): MAST, MOM1, MOM2, LAST and the KSTATE records, and the compute
copy that was active in the base. -/
def stateRuns (t : Tensor) (g : Group) (baseCc : Bool) : List (Nat × Nat) :=
  ((arraysOf g.rule).filter (fun x => x ≠ .g ∧ x ≠ .dir ∧ x ≠ ccArr (!baseCc))).flatMap (fun x =>
    (List.range 4).flatMap (fun j => shareRuns t.region j (arrOff g.rule t.t0 x) (x.size * t.t0))) ++
  (if g.rule = .k then kRuns t else [])

/-- A manifest covers every state range, the group state array and, while GUARD_EN is 1, the guard table (R372). DEDUCED (log entry
58): the compute copy that it must cover is the base's active one, which R373 restores and the worked case of R374 captures. -/
def manifestCovers (s : State) (l : List Region) : Bool :=
  (liveTensors s).all (fun p => (stateRuns p.1 p.2 s.ckpt.baseCc).all (fun r => coversRange l r.1 r.2)) &&
    coversRange l s.upd.stateBase.toNat 0x20000 && (!s.guard.en || coversRange l s.guard.tableBase.toNat 0x80000)

/-- A step is in both logs (R372). -/
def stepLogged (s : State) (e : Nat) : Bool :=
  s.twin.log.any (fun x => x.logged && x.epoch.toNat == e) && s.exch.log.any (fun x => x.logged && x.epoch.toNat == e)

/-- The form of a REPLAY of an epoch: true for the committed form (R372). -/
def replayForm (s : State) (e : W64) : Option Bool :=
  if e = s.memblk.epoch + 1 ∧ s.memblk.stepOn ∧ (s.upd.phase = 4 ∨ s.upd.phase = 5) then some false
  else if e = s.memblk.epoch then some true else none

/-- The status that turns a REPLAY away, or its form and the base's regions (R372). While a STEP_COMMIT is pending no conversion
into a tracked tensor is granted (R149), and a replay converts: BUSY (log entry 47). -/
def replayRefused (s : State) (mid : Nat) (e : W64) : Status ⊕ (Bool × List Region) :=
  match replayForm s e, readManifest s s.ckpt.baseManifest.toNat s.ckpt.baseNreg.toNat with
  | some f, some l =>
    let b := s.ckpt.baseEpoch.toNat
    if !s.ckpt.baseValid ∨ e.toNat ≤ b ∨ b + 4 < s.memblk.epoch.toNat ∨
        !((List.range (e.toNat - b)).all (fun i => stepLogged s (b + 1 + i))) ∨ (f ∧ !guardCanUndo s e) ∨
        !manifestCovers s l ∨ xBadParam s s.ckpt.baseLoc (imageLen l) then .inl .badParam
    else if anyFenced s then .inl .dieLost
    else if anyRuns s || ckptBusyAny s || !s.exch.ops.isEmpty || passRuns s || commitPending s then .inl .busy
    else match xStatus s mid s.ckpt.baseLoc (imageLen l) .r with
      | .done => .inr (f, l)
      | st => .inl st
  | _, _ => .inl .badParam
where
  /-- a capture, restore or REPLAY is active -/
  ckptBusyAny (s : State) : Bool := s.ckpt.capture.isSome || s.ckpt.restore.isSome || s.ckpt.replaying.isSome

/-- The long operation of the REPLAY. -/
def replayOp (s : State) : Nat :=
  match findLong s (fun k => k == .replay) with
  | some o => o.id
  | none => 0

/-- An accepted REPLAY: the state ranges are held, refreshes are cancelled, and an image outside the package is asked for
(R373). -/
def acceptReplay (h : CmdHdr) (e : W64) (f : Bool) (l : List Region) (s : State) : State :=
  let s1 := startLong (modCkpt s (fun k => { k with replaying := some (h, e, f), fetched := [] })) h 0x0605 .replay
  let s2 := s1.upd.refreshing.foldl cancelRefresh (modMem s1 (fun m => { m with hold := true }))
  let s3 := if imageHere s s.ckpt.baseLoc then s2
    else fetchRegions (fetchImage s2 s.ckpt.baseLoc 0 4096 (replayOp s2)) s.ckpt.baseLoc l (replayOp s2)
  reply s3 h 0x0605 .inProgress []

/-- REPLAY (R372). -/
def doReplay (h : CmdHdr) (epoch : W64) (s : State) : State :=
  match replayRefused s h.master.toNat epoch with
  | .inl st => answer (noteAccess s st) h 0x0605 st
  | .inr q => acceptReplay h epoch q.1 q.2 s

/-- REPLAY (R372, R373). -/
def execReplay (h : CmdHdr) (epoch : W64) (s : State) : Host.Outcome State Fault Refusal :=
  .next (cmdStart (.replay h epoch) h 0x0605 (doReplay h epoch) s)

/-! ### The run of a replay (R373) -/

/-- The step in progress discarded (R373, R160): pass and accumulators, and its logs. -/
def discardStep (s : State) : State :=
  if !s.memblk.stepOn then s else
  let s1 := modUpd (modMem (guardDiscard s) (fun m => { m with stepOn := false }))
    (fun u => { u with phase := 0, pass := none, passHad := false })
  modExch (modTwin s1 (fun t => { t with own := none, held := none, log := t.log.drop 1 })) (fun e => { e with log := e.log.drop 1 })

/-- The guard entries that the tensor list names, from an image. -/
def restoreEntries (s : State) (x : XAddr) (l : List Region) (ts : List Tensor) : State :=
  if !s.guard.en then s else
  (ts.map (fun t => t.tid.toNat)).dedup.foldl (fun u i =>
    if i < 4096 then restoreRange u x l (s.guard.tableBase.toNat + 128 * i) 128 else u) s

/-- The tables of a logged step in force. -/
def logTables (s : State) (x : LogStep) : State := modUpd s (fun u => { u with groups := x.groups, tensors := x.tensors })

/-- The state ranges and guard entries of a logged step's tensor list restored from the base (R373), where its manifest covers
them. -/
def restoreTensors (s : State) (l : List Region) (cc : Bool) (x : LogStep) : State :=
  let b := s.ckpt.baseLoc
  let s1 := (liveTensors (logTables s x)).foldl (fun u p =>
    (stateRuns p.1 p.2 cc).foldl (fun v r => restoreRange v b l r.1 r.2) u) (logTables s x)
  restoreEntries s1 b l x.tensors

/-- A refresh of a VALID K group run to completion in its inactive slot (R373, R192), on what the slot holds. -/
def runRefresh (s : State) (gi : Nat) : State :=
  match look s.upd.groups gi with
  | some g => if g.rule = .k then refreshGroup s gi g (!(groupState s gi).rootSlot) else s
  | none => s

/-- The base restored (R373): for every step to be replayed the state ranges and guard entries of its tensor list, the group state
array and UPD_CC_ACTIVE; and the refreshes that ran at the base's capture run on the statistics that it holds (log entry 58). -/
def restoreBase (s : State) (l : List Region) (steps : List LogStep) : State :=
  let x := s.ckpt.baseLoc
  let cc := bit (leAt (imageBytes s x 36 4) 0 4) 0
  let s1 := steps.foldl (fun t r => restoreTensors t l cc r) s
  let s2 := modUpd (restoreRange s1 x l s.upd.stateBase.toNat 0x20000) (fun u => { u with ccActive := cc, gstate := [], refreshing := [] })
  match steps with
  | r :: _ => s.ckpt.baseRefreshing.foldl runRefresh (logTables s2 r)
  | [] => s2

/-- What the group state array is to take of a group at a logged STEP_BEGIN: the start of one that no commit had updated (R179), or a
NEXT_SWITCH that PRECOND_REFRESH set (R193). -/
def loggedGState (s : State) (e : Nat × GState) : Nat × GState :=
  (e.1, if e.2.steps = 0 then e.2 else { storedGState s e.1 with nextSwitch := e.2.nextSwitch })

/-- The PRECOND_REFRESH commands behind pending NEXT_SWITCHes run again (R193, R373): the committed statistics are copied, and the
refresh is run to completion. -/
def rerunPrecond (s : State) (l : Assoc GState) : State :=
  (l.filter (fun e => e.2.nextSwitch != 0)).foldl (fun u e => runRefresh (copyStats u e.1 (!(groupState u e.1).rootSlot)) e.1) s

/-- The logged tables of a step latched (R373): groups that became VALID in it start as R179 gives, and the refreshes commanded
before it run to completion. -/
def latchLogged (s : State) (x : LogStep) : State :=
  let s1 := modUpd (logTables s x) (fun u => { u with gstate := x.gstate.map (loggedGState s) })
  rerunPrecond (modUpd s1 (fun u => { u with kNew := newKGroups s1 })) x.gstate

/-- G of a step rebuilt from its exchange log records (R239). -/
def rebuildG (s : State) (e : W64) : State :=
  match s.exch.log.find? (fun x => x.epoch == e) with
  | some x => x.records.foldl (fun u r => applyToG u (hdrMode r.1) r.2) s
  | none => s

/-- The pass of a logged step as its replay runs it: no first pass, the logged CLIP (R373). -/
def loggedPass (s : State) (h : CmdHdr) (x : LogStep) : Pass :=
  { newPass h x.gscale 0 0 0 with
    nf1 := x.nf1, clip := x.clip, skipped := x.skipped, scalars := allScalars s x.clip.toNat, normIn := true }

/-- The panels of a logged step in service (R186 to R189). -/
def rollPanels (s : State) (p : Pass) : State :=
  (liveTensors s).foldl (fun u q =>
    if q.2.rule = .o ∨ q.2.rule = .k then
      (List.range q.1.panels).foldl (fun v i =>
        countDie (servicePanel (phaseA v q.1 q.2 p.gscale.toNat (passClip p q.1.group) i) q.1 q.2
          (groupState v q.1.group) p.gscale.toNat (passClip p q.1.group) i) q.1.die.val (panelBytes v q.1 q.2 i)) u
    else u) s

/-- The replay of a pass reads a poisoned line (R250). -/
def rollBad (s : State) (p : Pass) : Bool :=
  scalarsBad s ||
  (liveTensors s).any (fun q => (q.2.rule == .o || q.2.rule == .k) &&
    (List.range q.1.panels).any (fun i => phaseABad s q.1 q.2 i || serviceBad s q.1 q.2 i)) ||
  passTwoAnyBad (rollPanels s p)

/-- The second pass of a logged step (R183 to R189), with the digest of epoch `e`: it reads the tables (R198) and leaves the
serving clusters as a pass does (R190). -/
def rollPass (s : State) (h : CmdHdr) (x : LogStep) (e : Nat) : State × Pass :=
  let p := loggedPass s h x
  let s1 := rollPanels (countTables s) p
  let out := (liveTensors s).foldl (fun (a : State × W128 × Nat) q =>
    match look p.scalars q.1.group with
    | none => a
    | some sc => (List.range q.1.tiles).foldl (fun (b : State × W128 × Nat) i =>
        let o := passTwoTile b.1 q.1 q.2 sc p.gscale.toNat e i
        (countDie o.s q.1.die.val o.bytes, b.2.1 + BitVec.ofNat 128 o.digest, b.2.2 + o.nf)) a) (s1, 0, 0)
  let hg := (s.upd.groups.filterMap (fun g => (look p.scalars g.1).map (fun sc =>
    BitVec.ofNat 128 (groupDigest g.1 e (nextGState g.2 (groupState s g.1) sc (s.upd.kNew.contains g.1) e))))).foldl
      (· + ·) (0 : W128)
  (spoilServing out.1, { p with digest := out.2.1 + hg, nf2 := BitVec.ofNat 64 out.2.2 })

/-- The guard commit of the entries that the tensor list names (R373); its undo record is kept only for the newest commit, and
its events are not raised again. -/
def rollGuard (s : State) (e : Nat) (keep : Bool) : State :=
  let ids := s.upd.tensors.map (fun t => t.tid.toNat)
  let g := { s.guard with cfg := s.guard.cfg.filter (fun c => ids.contains c.1)
                          logRecs := if keep then s.guard.logRecs else 0 }
  let s1 := guardCommit { s with guard := g, cmd := { s.cmd with sessions := [] } } e
  { s1 with cmd := s.cmd, guard := { s1.guard with
      cfg := s.guard.cfg
      logRecs := s.guard.logRecs
      log := if keep then s1.guard.log else s.guard.log
      bare := if keep then s1.guard.bare else s.guard.bare } }

/-- A commit inside a replay (R373): group state, compute-copy slot, root switches with their refreshes run to completion
(R191, R192), and the guard. -/
def rollCommit (s : State) (p : Pass) (e : Nat) (keep : Bool) : State :=
  let s1 := s.upd.groups.foldl (fun t x => commitGroup t e p x.1 x.2) s
  let s2 := modUpd s1 (fun u => { u with ccActive := !u.ccActive })
  let s3 := s2.upd.refreshing.foldl runRefresh s2
  rollGuard (modUpd s3 (fun u => { u with refreshing := [] })) e keep

/-- The logged steps rolled forward (R373): the state, the pass of the last step that had one, and whether a pass read a poisoned
line, with which the roll ends (R250). -/
def rollSteps (h : CmdHdr) (committed : Bool) (last : Nat) : List LogStep → State → Option Pass → State × Option Pass × Bool
  | [], s, p => (s, p, false)
  | x :: r, s, _ =>
    let s1 := latchLogged (rebuildG s x.epoch) x
    if x.skipped || !x.hadPass then
      rollSteps h committed last r s1 (some { loggedPass s1 h x with digest := 0, skipped := true })
    else if rollBad s1 (loggedPass s1 h x) then (s1, none, true)
    else
      let q := rollPass s1 h x x.epoch.toNat
      if x.epoch.toNat < last || committed then
        rollSteps h committed last r (rollCommit q.1 q.2 x.epoch.toNat (committed && x.epoch.toNat == last)) (some q.2)
      else rollSteps h committed last r q.1 (some q.2)

/-- The logged steps from b + 1 to e, oldest first. -/
def loggedSteps (s : State) (b e : Nat) : List LogStep :=
  (s.twin.log.filter (fun x => decide (b < x.epoch.toNat) && decide (x.epoch.toNat ≤ e))).reverse

/-- A replay has run to its end: MEM_FAILED is cleared and its digest is returned (R373, R258). In the in-progress form the
result of a pass that was not skipped awaits STEP_COMMIT, still held (R256). -/
def replayDone (s : State) (e : W64) (committed : Bool) (p : Option Pass) : State :=
  let d := match p with
    | some q => q.digest
    | none => 0
  let run := match p with
    | some q => !q.skipped
    | none => false
  let s1 := modMem s (fun m => { m with failed := false, hold := !committed && run })
  let s2 := if committed then s1 else
    modUpd (modTwin s1 (fun t => { t with own := some (e, d) })) (fun u => { u with
      phase := 4
      passHad := true
      pass := p.map (fun q => { q with gnorm := (match u.pass with
        | some o => o.gnorm
        | none => 0) }) })
  let s3 := modTwin s2 (fun t => { t with
    cntReplay := satAdd t.cntReplay 1, ownReplay := some (e, d), replaySent := false, mark := 0 })
  endLongs (modCkpt s3 (fun k => { k with replaying := none, fetched := [], lastStatus := 0 })) (fun k => k == .replay) .done
    (leBytes 16 d.toNat)

/-- A PRECOND_REFRESH accepted since the replayed commit keeps its NEXT_SWITCH, and its refresh runs on the statistics that the
replay commits (log entry 58). -/
def keepPrecond (s : State) (l : Assoc GState) : State :=
  let ks := l.filter (fun e => e.2.steps != 0)
  rerunPrecond (modUpd s (fun u => { u with gstate := ks.foldl (fun a e => put a e.1 (loggedGState s e).2) u.gstate })) ks

/-- The work of a replay (R373). A pass that reads a poisoned line ends it with DEGRADED (R250). -/
def runReplay (s : State) (h : CmdHdr) (e : W64) (committed : Bool) (l : List Region) : State :=
  let b := s.ckpt.baseEpoch.toNat
  let steps := loggedSteps s b e.toNat
  let gens := if s.memblk.stepOn then s.twin.log.head?.map (fun x => x.gens) else none
  let s1 := if committed then guardUndo (discardStep s) e else guardDiscard s
  match steps with
  | [] => replayDone s1 e committed none
  | _ :: _ =>
    let q := rollSteps h committed e.toNat steps (restoreBase s1 l steps) none
    let s2 := match committed, gens with
      | true, some g => setGens (keepPrecond q.1 s.upd.gstate) g
      | true, none => keepPrecond q.1 s.upd.gstate
      | false, _ => q.1
    if q.2.2 then endReplay q.1 .degraded else replayDone s2 e committed q.2.1

/-- A slice of a REPLAY: once its image is at hand the replay runs (R373). A poisoned image ends it with DEGRADED (R250). -/
def sliceReplay (s : State) : State :=
  match s.ckpt.replaying, readManifest s s.ckpt.baseManifest.toNat s.ckpt.baseNreg.toNat with
  | some (h, e, f), some l =>
    if !fetchQuiet s (replayOp s) ∨ !engineRuns s then s
    else if (dataRegions l).any (fun r => imageBad s s.ckpt.baseLoc r.offset r.len) then endReplay s .degraded
    else runReplay s h e f l
  | some _, none => endReplay s .degraded
  | none, _ => s

/-! ### Comparison of replay digests (R374) -/

/-- The package's original digest of an epoch: TWIN_ORIG for the step in progress, else the committed one. -/
def originalOf (s : State) (e : W64) : W128 :=
  match historyDigest s e with
  | some d => d
  | none => s.twin.orig

/-- The twin's original digest of an epoch: TWIN_PEER for the step in progress, else the committed one. -/
def peerOriginalOf (s : State) (e : W64) : W128 :=
  match historyDigest s e with
  | some d => d
  | none => s.twin.peer

/-- TWIN_MARK of two comparisons (R374). -/
def markOf (own peer : Bool) : Nat :=
  match own, peer with
  | true, true => 4
  | false, true => 1
  | true, false => 2
  | false, false => 3

/-- Both replay digests are known (R374). -/
def compareReplays (s : State) (e : W64) (d q : W128) : State :=
  let s1 := modTwin s (fun t => { t with
    mark := BitVec.ofNat 4 (markOf (d == originalOf s e) (q == peerOriginalOf s e)), ownReplay := none, peerReplay := none })
  if d = q ∧ s.twin.st = 3 then
    setTwin (modTwin s1 (fun t => { t with held := if e = s.memblk.epoch + 1 then some (e, q) else t.held })) 2 0
  else s1

/-- REPLAY_DIGEST_COMPARE (R374): the replay digest is sent to the twin, and compared once the twin's is known; in SOLE with
the original alone. -/
def execReplayDigestCompare (s : State) : Host.Outcome State Fault Refusal :=
  .next (match s.twin.ownReplay with
    | none => s
    | some (e, d) =>
      if !solderRuns s then s else
      let s1 := if s.twin.replaySent then s else modTwin (sendSolder s 2 e d) (fun t => { t with replaySent := true })
      if s.twin.st = 4 then
        modTwin s1 (fun t => { t with mark := if d = originalOf s e then 4 else 1, ownReplay := none })
      else match s.twin.peerReplay with
        | some (f, q) => if f = e then compareReplays s1 e d q else s1
        | none => s1)

/-! ### RESHARD (R218, R237) -/

/-- An operation of the old layout at a RESHARD (R237): with the records that wait for it taken, it completes, or ends with STALE_LAYOUT. -/
def reshardOp (s0 : State) (x0 : ExOp) : State :=
  let s := useEarly s0 x0.p.opId
  match s.exch.ops.find? (fun x => x.p.opId == x0.p.opId) with
  | none => s
  | some x =>
    if x.finished then completeOp s x
    else if x.own then dropOwn s x
    else endOp s x .staleLayout

/-- The early records of the old layout are dropped and counted (R237, R219). -/
def dropEarly (s : State) : State :=
  modExch s (fun e => { e with cntStale := satAdd e.cntStale e.early.length, early := [], past := [] })

/-- The step in progress is discarded (R218): its gradients, accumulators, pass, and a commit that was waiting. -/
def reshardStep (s : State) : State :=
  let s1 := endLongs s (fun k => match k with
    | .updateRun => true
    | .stepCommit _ => true
    | _ => false) .staleLayout []
  let s2 := if passRuns s1 then spoilServing s1 else s1
  modTwin (modMem (discardStep s2) (fun m => { m with hold := false })) (fun t => { t with waitFrom := none })

/-- The tensor regions hold no defined state (R218): free values (log entry 3). -/
def freeRegions (s : State) : State :=
  (liveTensors s).foldl (fun u p =>
    let n := shareLen p.2.rule p.1.t0
    (List.range 4).foldl (fun v j =>
      let k := keyOf (p.1.region + 4096 * j)
      useFresh { v with mem := v.mem.spoilStack k (k + n) v.fresh } 1) (cowRange u p.1.region (4 * n))) s

/-- A stream stopped as STREAM_STOP stops it (R140, R115): one that stops already loses its deferred start. -/
def stopAny (s : State) (n : Nat) (c : Ctx) : State :=
  match (stream s n c).st with
  | .running => stopStream s n c
  | .stopping => cancelDeferred s n c
  | _ => s

/-- A REPLAY that runs when a RESHARD is accepted (R218): the pass that it rebuilds is an update pass of the step that the RESHARD
discards, and it ends with STALE_LAYOUT (log entry 59). -/
def cutReplay (s : State) : State :=
  if s.ckpt.replaying.isNone then s
  else endLongs (modCkpt s (fun k => { k with replaying := none, fetched := [], lastStatus := BitVec.ofNat 8 (statusCode .staleLayout) }))
    (fun k => k == .replay) .staleLayout []

/-- An accepted RESHARD (R218): every stream stops, an active REPLAY is discarded, the operations of the old layout are decided, and
the new layout ID is written. -/
def acceptReshard (h : CmdHdr) (layout : W32) (s : State) : State :=
  let s1 := cutReplay (s.clusters.foldl (fun t e => [Ctx.fwd, .bin, .bwt, .svc].foldl (fun u c => stopAny u e.1 c) t) s)
  let s2 := dropEarly (s1.exch.ops.foldl reshardOp s1)
  let s3 := modExch (freeRegions (reshardStep s2)) (fun e => { e with layout := layout })
  let s4 := startLong (modCkpt s3 (fun k => { k with baseValid := false })) h 0x0607 (.reshard layout)
  reply s4 h 0x0607 .inProgress []

/-- A slice of a RESHARD: DONE once the drain is complete (R218). -/
def sliceReshard (s : State) (o : LongOp) : State := if anyRuns s then s else endLong s o .done []

/-- RESHARD (R218). -/
def doReshard (h : CmdHdr) (epoch : W64) (layout : W32) (s : State) : State :=
  if epoch ≠ s.memblk.epoch ∨ !s.ckpt.captured.contains epoch then answer s h 0x0607 .badParam
  else acceptReshard h layout s

/-- RESHARD (R218). -/
def execReshard (h : CmdHdr) (epoch : W64) (layout : W32) (s : State) : Host.Outcome State Fault Refusal :=
  .next (cmdStart (.reshard h epoch layout) h 0x0607 (doReshard h epoch layout) s)

end Sys2Proof.Machine
end

