-- ==== Sys2Proof/Machine/Power.lean ====
section
/-! DEFINITION. Power states (R417 to R426), the envelope (R49, R415, R416), MODE_SET and ENVELOPE_SET (R414, R415), and thermal and
input events (R411, R417). -/

namespace Sys2Proof.Machine

/-! ### What the domains lose (R418, R420) -/

/-- A final status other than DONE that the manual does not name (log entry 3). -/
def freeStatus (s : State) : Status :=
  [Status.dieLost, .retry, .busy, .degraded].getD (Config.freeNat s.fresh % 4) .retry

/-- The stage of an image ends (R393): a FIRMWARE event, whatever the status. -/
def endStage (s : State) (o : LongOp) (st : Status) : State :=
  endLong (raiseOpen (modCob s (fun c => { c with staging := none })) evFirmware 2 [BitVec.ofNat 8 (statusCode st)]) o st []

/-- A long operation cut short; an FW_STAGE with its event (R393). -/
def cutLong (s : State) (o : LongOp) (st : Status) : State :=
  match o.kind with
  | .fwStage _ _ _ _ _ => endStage s o st
  | _ => endLong s o st []

/-- Work that a power loss without ramp cuts short (R411, R417): each operation ends with a status that the manual does not name,
and the step in progress is lost with the memory. -/
def cutWork (s : State) : State :=
  let st := freeStatus s
  let s1 := endGradOps (endCapture (endReplay (endCommit (failPass (useFresh s 1) st) st) st) st) st
  let s2 := s1.exch.ops.foldl (fun t x => if x.own then dropOwn t x else endOp t x st) s1
  let s3 := if s2.ckpt.restore.isSome then endRestore s2 st 0 else s2
  let s4 := s3.cmd.longs.foldl (fun t o => cutLong t o st) s3
  let s5 := s4.clusters.foldl (fun t e =>
    [Ctx.fwd, .bin, .bwt, .svc].foldl (fun u c => refuseDeferred u e.1 c) t) s4
  modPower (modCob (modMem (discardStep s5) (fun m => { m with hold := false })) (fun c => { c with staging := none }))
    (fun p => { p with entering := none, next := [], deferredRun := none, latched := none, levels := 0, modeTo := none,
                       clockStopped := false, exiting := false, ramp := none })

/-- The sync words that an entry orphans (R328): every indexed word of a stream or an engine, before its store or stack leaves
service, so that its monitors fire (R324). What the watch tables of lost words still hold goes with them, and so does an index whose
stack loses its bytes (log entry 22). -/
def orphanEntry (s : State) (dark : Bool) : State :=
  let s1 := orphanOwners { s with sync := { s.sync with
    waiters := [], barriers := s.sync.barriers.map (fun b => { b with arrived := [], waiting := [] }) } }
    (fun c => streamCode c || engineCode c)
  let s2 := fireMonitors (s1.sync.orphans.foldl orphanWord s1) (fun _ => true)
  let gone := fun (a : Addr48) => dark || !(place a.toNat).isStack
  { s2 with sync := { s2.sync with
    index := if dark then [] else s2.sync.index
    monitors := s2.sync.monitors.filter (fun m => !gone m.addr) } }

/-- The clusters lose their stores, banks and streams (R418); what is fenced stays as the fencing left it. -/
def clustersOff (s : State) : State :=
  (List.range 4).foldl (fun t k => if dieFenced t k then t else zeroClusters t k) s

/-- The generator states of every cluster, as an entry into Bank saves them (R418). -/
def allClusterGens (s : State) : List (Nat × Nat × W128) :=
  s.clusters.flatMap (fun e => e.2.gens.map (fun g => (e.1, g.1, g.2)))

/-- An end of an edge taken DOWN by agreement (R420). -/
def endDown (l : LinkEnd) : LinkEnd :=
  if l.tstate = 6 then l else
  { clearEnd l with tstate := 0 }

/-- Every edge that is UP leaves it (R420), which a LINK event reports (R351). -/
def edgesOff (s : State) : State :=
  let es := (List.range 8).filter (fun e => edgeState s e == 1 || edgeState s e == 2)
  es.foldl (fun t e => edgeEvent t e false) { s with links := s.links.map (fun p => (endDown p.1, endDown p.2)) }

/-- Every fabric port goes DOWN with the IOD domain (R419); the packets in it are lost. A port in FAULT stays there (R295), and
one that was UP is reported (R351). -/
def portsOff (s : State) : State :=
  let ps := (List.range 24).filter (fun p => (port s p).isUp)
  ps.foldl (fun t p => raiseOpen t evLink 1 [BitVec.ofNat 8 p, 0]) { s with fab := { s.fab with
    ports := s.fab.ports.map (fun q => { clearLink q with
      rxHeld := [], pstate := if q.pstate = 7 then 7 else 0, ethUp := false, retryAt := none })
    inbox := [] } }

/-- The operations of the domains that turn off end (R349): an immediate scrub and the training of an edge, each with a status that
the manual does not name (log entry 3). -/
def cutDomainOps (s : State) : State :=
  endLongs (useFresh s 1) (fun k => match k with
    | .scrub _ => true
    | .edge _ _ => true
    | _ => false) (freeStatus s) []

/-- The compute-die and IOD domains and, for Dark, the stacks turn off (R420): a fenced die or stack stays FENCED. -/
def domainsOff (s : State) (dark : Bool) : State :=
  let gens := if dark then [] else if s.power.st.toNat < 2 then allClusterGens s else s.savedGens
  let s1 := clustersOff (orphanEntry { cutDomainOps s with savedGens := gens } dark)
  let s2 := if dark then { s1 with mem := s1.mem.clearStack 0 linearEnd, poison := [] } else s1
  portsOff <| edgesOff <| releaseHeld { s2 with
    waitingReqs := []
    openReqs := []
    meshLate := []
    iodSeen := []
    dies := s2.dies.map (fun d => { d with on := false, st := if d.st = .fenced then .fenced else .off, rspSeen := [] })
    stk := s2.stk.map (fun u => { u with
      st := if u.st = .fenced then .fenced else if dark then .off else .selfRefresh
      scrubRun := none }) }

/-- Dark loses everything that the stacks held: the logs kept there and the weights of the committed epoch go too. -/
def darkLoss (s : State) : State :=
  { s with
    guard := s.guard.emptied
    exch := { s.exch with log := [], early := [], past := [] }
    twin := { s.twin with log := [] } }

/-- The readings of the domains that are on; a domain that is off reads 0 (R427). -/
def liveTemps (s : State) (t : Temps) : Temps :=
  { cd := (List.range 4).map (fun k => if (die s k).on then t.cd.getD k 0 else 0)
    iod := if iodOn s then t.iod else 0
    stackHot := if s.stk.toList.any (fun u => u.st != .off) then t.stackHot else 0 }

/-- The package reaches a state (R418): Hold freezes the compute dies, Bank and Dark turn domains off. -/
def enterState (s : State) (t : BitVec 2) : State :=
  let s1 := if t = 3 then darkLoss (domainsOff s true) else if t = 2 then domainsOff s false else s
  let s2 := modPower s1 (fun p => { p with
    st := t, entering := none, envThr := false, filler := false, floorMet := false, floorRises := false, ramp := none })
  modPower s2 (fun p => { p with temps := liveTemps s2 p.temps })

/-! ### POWER_STATE (R419, R425) -/

/-- The conditions of R419 that hold off Bank and Dark. -/
def darkBusy (s : State) : Bool :=
  s.memblk.stepOn || anyRuns s || passRuns s || !s.exch.ops.isEmpty || ckptBusy s || s.cob.staging.isSome ||
    s.twin.st == 1 || s.twin.st == 2 || s.twin.st == 3 || s.power.modeTo.isSome

/-- An entry begins. -/
def beginEntry (s : State) (h : CmdHdr) (t : BitVec 2) : State :=
  startLongReply (modPower s (fun p => { p with entering := some t })) h 0x0701 (.power t)

/-- A request while no entry is in progress (R419). An entry accepted while an exit runs commits once the exit has reached Run
(log entry 14). -/
def powerDecide (s : State) (h : CmdHdr) (t : BitVec 2) : State :=
  let p := s.power
  if t = p.st then answer s h 0x0701 .done
  else if t = 0 then beginExit (startLongReply s h 0x0701 (.power 0)) 6
  else if t.toNat < p.st.toNat then answer s h 0x0701 .badParam
  else if t ≠ 1 ∧ darkBusy s then answer s h 0x0701 .busy
  else beginEntry s h t

/-- A deferred Run that another request replaces or cancels completes with RETRY (R425). -/
def dropDeferred (s : State) : State :=
  match s.power.deferredRun with
  | some h => answer (modPower s (fun p => { p with deferredRun := none })) h 0x0701 .retry
  | none => s

/-- A request during an entry (R425). -/
def powerDuring (s : State) (h : CmdHdr) (t : BitVec 2) : State :=
  let s1 := dropDeferred s
  if t = 0 then answer (modPower s1 (fun p => { p with deferredRun := some h })) h 0x0701 .deferred
  else modPower s1 (fun p => { p with next := p.next ++ [(t, h)] })

/-- POWER_STATE (R419, R425). -/
def doPowerState (h : CmdHdr) (t : BitVec 2) (s : State) : State :=
  if s.power.entering.isSome then powerDuring s h t else powerDecide s h t

/-- POWER_STATE to Hold (R420). -/
def execPowerStateHold (h : CmdHdr) (s : State) : Host.Outcome State Fault Refusal :=
  .next (cmdStart (.powerStateHold h) h 0x0701 (doPowerState h 1) s)

/-- POWER_STATE to Bank (R420). -/
def execPowerStateBank (h : CmdHdr) (s : State) : Host.Outcome State Fault Refusal :=
  .next (cmdStart (.powerStateBank h) h 0x0701 (doPowerState h 2) s)

/-- POWER_STATE to Dark (R420). -/
def execPowerStateDark (h : CmdHdr) (s : State) : Host.Outcome State Fault Refusal :=
  .next (cmdStart (.powerStateDark h) h 0x0701 (doPowerState h 3) s)

/-- POWER_STATE to Run (R425). -/
def execPowerStateRun (h : CmdHdr) (s : State) : Host.Outcome State Fault Refusal :=
  .next (cmdStart (.powerStateRun h) h 0x0701 (doPowerState h 0) s)

/-- The long operations of POWER_STATE to a state. -/
def isPowerTo (t : BitVec 2) : LongKind → Bool
  | .power x => x == t
  | _ => false

/-- A request kept from the entry, at its commit (R425): DONE, or decided when it names a deeper state. -/
def afterEntry (s : State) (r : BitVec 2 × CmdHdr) : State :=
  if s.power.entering.isSome then modPower s (fun p => { p with next := p.next ++ [r] })
  else if s.power.st.toNat < r.1.toNat then powerDecide s r.2 r.1
  else answer s r.2 0x0701 .done

/-- A scheduled entry is near enough to wake the package (R422): any in Hold, one with WAKE in Bank and Dark, by the wake time of
the state. -/
def dueWake (s : State) : Bool :=
  let st := (s.power.entering.getD s.power.st).toNat
  let lead := if st = 1 then 20000 else if st = 2 then 5000000 else 2000000000
  s.cmd.schedule.any (fun e => decide (e.due ≤ now s + lead) && (st == 1 || e.cmd.hdr.wake))

/-- The levels present at a commit that are enabled then (R424), as their sources: the WAKE land, then signal detect. -/
def liveLevels (p : Power) : List Nat :=
  (if p.levels.getLsbD 0 && p.wakeCfg.getLsbD 0 then [1] else []) ++
  (if (List.range 24).any (fun n => p.levels.getLsbD (1 + n) && p.wakeCfg.getLsbD (8 + n)) then [2] else [])

/-- The edge that is latched at a commit (R424): one before the last 6 ck of the entry, the 30 ns that end now. -/
def liveEdge (s : State) : List Nat :=
  match s.power.latched with
  | some (w, t) => if t.toNat + 30 < clk s then [w.toNat] else []
  | none => []

/-- The exit that waits at a commit (R424, R425): a deferred Run, an enabled level, a latched edge, buffered messages while they are
enabled, or a scheduled entry that is due. DESIGN CHOICE (log entry 14): with several, PWR_WAKE_LAST takes them in this order. -/
def exitAfter (s : State) : State :=
  if s.power.entering.isSome then s else
  let s1 := modPower s (fun p => { p with latched := none, levels := 0 })
  match s.power.deferredRun with
  | some h => beginExit (startLong (modPower s1 (fun p => { p with deferredRun := none })) h 0x0701 (.power 0)) 6
  | none =>
    match liveLevels s.power ++ liveEdge s ++ (if !s.power.buffer.isEmpty && s.power.wakeCfg.getLsbD 2 then [3] else []) ++
        (if s.power.st ≠ 0 ∧ dueWake s then [6] else []) with
    | w :: _ => beginExit s1 w
    | [] => s1

/-- The ramp of an entry has ended (R420): in Run and Hold the upper limit has fallen to the Hold power of the mode. -/
def rampDone (s : State) : Bool := decide (2 ≤ s.power.st.toNat) || decide (s.power.limit ≤ holdPower s.power.mode.toNat)

/-- POWER_ENTRY_COMMIT (R420, R424, R425): an entry commits once its ramp has ended, and not while an exit still runs. -/
def execPowerEntryCommit (s : State) : Host.Outcome State Fault Refusal :=
  .next (match s.power.entering with
    | none => s
    | some t =>
      if s.power.exiting || !rampDone s then s else
      let s1 := refreshAlert (powerEvent (enterState s t) 1 t.toNat)
      let s2 := endLongs s1 (isPowerTo t) .done []
      exitAfter (s2.power.next.foldl afterEntry (modPower s2 (fun p => { p with next := [] }))))

/-! ### Exit (R418, R420) -/

/-- An end of an edge as a training of cause 1 that succeeds leaves it (R274, R275), on the bundles that passed at both ends; the
power-up of a die's domain clears D2D_EXCLUDE (R289). -/
def endTrained (m : W32) (attempt : Nat) (l : LinkEnd) : LinkEnd :=
  { startCredits l LinkEnd.reset with
    tstate := 5, attempt := BitVec.ofNat 8 attempt, cause := 1, mask := m, peerMask := m, passed := m, allowed := m, second := false
    exclude := 0, cntTrain := satAdd l.cntTrain attempt }

/-- What the training of an edge comes to: the bundles that pass at both ends in the attempt that ends it, and its number, 1 to 3. -/
def edgeOutcome (up : DieLinksUp) (e : Nat) : W32 × Nat :=
  let m := up.masks.getD e (0, 0)
  (m.1 &&& m.2 &&& fullMask e, max 1 (min 3 (up.attempts.getD e 1)))

/-- The training fails its three attempts: the last one found fewer than four bundles (R275). -/
def edgeFails (up : DieLinksUp) (e : Nat) : Bool := decide (popCount 32 (edgeOutcome up e).1.toNat < 4)

/-- One edge trains: it comes UP, which is reported (R351), or has failed three attempts (R275). -/
def trainOutcome (up : DieLinksUp) (s : State) (e : Nat) : State :=
  let r := edgeOutcome up e
  if edgeFails up e then
    modEdge s e (fun l => { l with tstate := 0, attempt := 3, cause := 1, cntTrain := satAdd l.cntTrain 3 })
  else edgeEvent { s with links := vmod s.links e (fun p => (endTrained r.1 r.2 p.1, endTrained r.1 r.2 p.2)) } e true

/-- Edges between dies in service train in parallel; each that fails fences its die (R275, R277). -/
def trainEdges (up : DieLinksUp) (es : List Nat) (s : State) : State :=
  let live := es.filter (fun e => (edgeDies e).all (fun k => (die s k).on && !dieFenced s k))
  (live.filter (edgeFails up)).foldl (fun t e => fenceDie t (edgeVictim e)) (live.foldl (trainOutcome up) s)

/-- The IOD edges train, and then the ring (R430). -/
def trainAll (up : DieLinksUp) (s : State) : State :=
  (List.range 4).foldl refreshDie (trainEdges up [0, 1, 2, 3] (trainEdges up [4, 5, 6, 7] s))

/-- What the trainings of an exit from Bank come to, which no command gives: free values (log entry 3). -/
def freeOutcome (s : State) : DieLinksUp :=
  { masks := (List.range 8).map (fun e => (Config.free32 (s.fresh + 2 * e), Config.free32 (s.fresh + 2 * e + 1)))
    attempts := (List.range 8).map (fun e => Config.freeNat (s.fresh + e)) }

/-- The domains of an exit from Bank (R420): dies on, edges trained, stacks back from self-refresh, generators restored. -/
def bankExit (s : State) : State :=
  let s1 := { s with dies := s.dies.map (fun d => { d with on := d.st != .fenced })
                     stk := s.stk.map (fun u => if u.st = .selfRefresh then { u with st := .up } else u) }
  let s2 := trainAll (freeOutcome s) (useFresh s1 16)
  s2.savedGens.foldl (fun t g => modCluster t g.1 (fun c => { c with gens := put c.gens g.2.1 g.2.2 })) { s2 with savedGens := [] }

/-- Ports start training once Run is reached after Bank or Dark (R418, R295); a port in FAULT stays there. -/
def portsStart (s : State) : State :=
  { s with fab := { s.fab with ports := s.fab.ports.map (fun q => if q.pstate = 7 then q else
    { q with pstate := BitVec.ofNat 3 (startState q), overran := false }) } }

/-- The requests of the old incarnation, and those that wait or whose reply is owed, go with their flows (R307): what asked for them
ended at the entry (log entry 14). -/
def dropTxns (s : State) : State := { s with fab := { s.fab with txns := [], waitq := [], acks := [] } }

/-- What an exit from Dark ends (R307, R255, R342). An entry with WAKE within the wake time of its tick is still dispatched (R422),
though its session has ended (log entry 14). -/
def darkExit (s : State) : State :=
  let kept := s.cmd.schedule.filter (fun e => e.cmd.hdr.wake && decide (e.due ≤ now s + 2000000000))
  let t := endAllSessions (raiseIncarn (dropTxns
    { (modMem s (fun m => { m with epoch := 0 })) with upd := { s.upd with history := [] } }))
  { t with cmd := { t.cmd with schedule := kept } }

/-- The exit may reach Run: from Dark, once stage 5 has ended (R436). -/
def exitReady (s : State) : Bool := s.power.exiting && (s.power.st != 3 || s.boot.stage == 6)

/-- POWER_EXIT_COMPLETE (R418, R420, R421): Run; POWER_STATE is answered, and the buffered commands go to the command
processors. -/
def execPowerExitComplete (s : State) : Host.Outcome State Fault Refusal :=
  .next (
    if !exitReady s then s else
    let was := s.power.st
    let s1 := if was = 2 then bankExit s else s
    let s2 := modPower s1 (fun p => { p with st := 0, exiting := false, tripped := false, buffer := [] })
    let s3 := { s2 with cmd := { s2.cmd with ready := s2.cmd.ready ++ s.power.buffer } }
    let s4 := if 2 ≤ was.toNat then portsStart s3 else s3
    let s5 := endLongs (powerEvent s4 1 0) (isPowerTo 0) .done []
    refreshAlert (if was = 3 then darkExit s5 else s5))

/-! ### Wake sources (R423, R424) -/

/-- A level (R423): enabled, it begins the exit; during an entry it is evaluated at the commit (R424), until which one reported is
taken to last (log entry 14). -/
def wakeLevel (s : State) (i src : Nat) (enabled : Bool) : State :=
  if s.power.entering.isSome then modPower s (fun p => { p with levels := p.levels ||| (1 <<< i) })
  else if enabled then beginExit s src else s

/-- An enabled edge (R424): during an entry the first one is kept with its time, for the commit to decide. -/
def wakeEdge (s : State) (src : Nat) : State :=
  if s.power.entering.isSome then modPower s (fun p => { p with latched := some (p.latched.getD (BitVec.ofNat 4 src, s.inv.clk)) })
  else beginExit s src

/-- WAKE_EVENT (R423): a source that is enabled, while the package is not in Run or is leaving it. What is buffered or due is
evaluated at the commit of an entry (R422, R424). -/
def execWakeEvent (src : WakeSrc) (s : State) : Host.Outcome State Fault Refusal :=
  .next (
    let c := s.power.wakeCfg
    if s.power.st = 0 ∧ s.power.entering.isNone then s else
    match src with
    | .pin => wakeLevel s 0 1 (c.getLsbD 0)
    | .port n => wakeLevel s (1 + n.val) 2 (c.getLsbD (8 + n.val))
    | .packet => if c.getLsbD 2 && !s.power.buffer.isEmpty then beginExit s 3 else s
    | .timer => if c.getLsbD 3 && s.power.wakeArmed && decide (s.power.wakeFt.toNat ≤ now s) then
        wakeEdge (modPower s (fun p => { p with wakeFt := 0, wakeArmed := false })) 4 else s
    | .thermal => if c.getLsbD 4 then wakeEdge s 5 else s
    | .command => if dueWake s then beginExit s 6 else s)

/-- WAKE_TIMER (R423, R427): FT_NOW reaches PWR_WAKE_FT; the timer fires once. -/
def execWakeTimer (s : State) : Host.Outcome State Fault Refusal :=
  .next (
    if !s.power.wakeArmed || decide (now s < s.power.wakeFt.toNat) then s else
    let s1 := modPower s (fun p => { p with wakeFt := 0, wakeArmed := false })
    if s1.power.wakeCfg.getLsbD 3 ∧ (s1.power.st ≠ 0 ∨ s1.power.entering.isSome) then wakeEdge s1 4 else s1)

/-! ### MODE_SET and ENVELOPE_SET (R414, R415) -/

/-- MODE_SET (R414). -/
def doModeSet (h : CmdHdr) (mode : Byte) (s : State) : State :=
  if 2 < mode.toNat then answer s h 0x0702 .badParam
  else if s.memblk.stepOn || s.power.st != 0 || s.power.entering.isSome || s.power.modeTo.isSome then answer s h 0x0702 .busy
  else if mode.toNat = s.power.mode.toNat then answer s h 0x0702 .done
  else
    let m : BitVec 2 := BitVec.ofNat 2 mode.toNat
    let s1 := startLongReply (modPower s (fun p => { p with modeTo := some (m, 1) })) h 0x0702 (.modeSet m)
    if maxPower mode.toNat < s.power.limit then s1 else modeStop s1

/-- MODE_SET (R414). -/
def execModeSet (h : CmdHdr) (mode : Byte) (s : State) : Host.Outcome State Fault Refusal :=
  .next (cmdStart (.modeSet h mode) h 0x0702 (doModeSet h mode) s)

/-- ENVELOPE_SET (R415). -/
def doEnvelopeSet (h : CmdHdr) (target floor slew : W32) (s : State) : State :=
  let m := s.power.mode.toNat
  if target.toNat < holdPower m ∨ maxPower m < target.toNat ∨ target.toNat < floor.toNat ∨ slew.toNat < 10 ∨ 10000 < slew.toNat then
    answer s h 0x0703 .badParam
  else if s.power.st ≠ 0 then answer s h 0x0703 .busy
  else answer (modPower s (fun p => { p with
    target := BitVec.ofNat 16 target.toNat, slew := BitVec.ofNat 16 slew.toNat
    floorMet := p.floorMet && p.floor.toNat == floor.toNat
    floorRises := decide (p.floor.toNat < floor.toNat) || (p.floorRises && p.floor.toNat == floor.toNat)
    floor := BitVec.ofNat 16 floor.toNat })) h 0x0703 .done

/-- ENVELOPE_SET (R415). -/
def execEnvelopeSet (h : CmdHdr) (target floor slew : W32) (s : State) : Host.Outcome State Fault Refusal :=
  .next (cmdStart (.envelopeSet h target floor slew) h 0x0703 (doEnvelopeSet h target floor slew) s)

/-! ### The envelope (R49, R415, R416) -/

/-- The upper bound that TARGET, an entry, Hold or MODE_SET sets (R414, R415, R420). -/
def envelopeTop (s : State) : Nat :=
  let p := s.power
  let hold := p.st = 1 ∨ p.entering.isSome
  let t := if hold then min p.target.toNat (holdPower p.mode.toNat) else p.target.toNat
  if modePhase s = 1 then min t (maxPower ((p.modeTo.map (·.1.toNat)).getD 0)) else t

/-- The upper limit of the next interval (R415, R417): SLEW × 0.1 ms above this P100 and at most the bound, which a fall reaches at
SLEW; in thermal throttling 5 W below the limit now in force. -/
def nextLimit (s : State) (p100 : Nat) : Nat :=
  let p := s.power
  let step := p.slew.toNat / 10
  let top := envelopeTop s
  if p.thermThr then p.limit - 5
  else if top < p.limit then max top (p.limit - step)
  else min top (p100 + step)

/-- The lower bound of the next interval (R415, R49): SLEW × 0.1 ms below this P100; FLOOR once it has been reached in Run, and on the
way to a raised one SLEW × 0.1 ms above this P100; the limit itself while a ramp fills, ahead of a scheduled start or into a power state (R420). -/
def nextLow (s : State) (p100 limit : Nat) (met : Bool) : Nat :=
  let p := s.power
  let step := p.slew.toNat / 10
  let low := max (p100 - step) (if met then p.floor.toNat else if p.floorRises then min p.floor.toNat (p100 + step) else 0)
  min limit (if p.ramp.isSome ∨ p.entering.isSome then limit else low)

/-- An interval of 100 samples ends (R415): P100 and the bounds of the next one. -/
def endInterval (s : State) : State :=
  let p := s.power
  let uj := p.energyUj + p.sampleSum
  let p100 := p.sampleSum / 100
  let limit := nextLimit s p100
  let met := p.st = 0 ∧ (p.floorMet ∨ p.floor.toNat ≤ p100)
  let s1 := modPower s (fun p => { p with
    p100 := p100, limit := limit, low := nextLow s p100 limit (decide met), floorMet := decide met
    floorRises := p.floorRises && decide (p100 < p.floor.toNat)
    samples := 0, sampleSum := 0, cntEnergy := satAdd p.cntEnergy (uj / 1000), energyUj := uj % 1000
    excursion := p.excursion && decide (p.limit < p100) && decide (clk s < p.excursionEnd.toNat) })
  if modePhase s1 = 1 ∧ limit ≤ maxPower ((s1.power.modeTo.map (·.1.toNat)).getD 0) then modeStop s1 else s1

/-- POWER_SAMPLE (R415): one sample of 1 µs. Throttling acts while the sample stands above the limit, filler work while it stands
below the lower bound; P100 and the bounds follow every 100 samples. The share of the stack interfaces in the µJ of the sample is
a free value (R427, log entries 3 and 80). -/
def execPowerSample (watts : Nat) (s : State) : Host.Outcome State Fault Refusal :=
  .next (
    if !s.tap.pwrEn then s else
    let live := decide (s.power.st.toNat < 2)
    let s1 := modPower (useFresh s 1) (fun p => { p with
      samples := p.samples + 1, sampleSum := p.sampleSum + watts
      cntIfEnergy := satAdd p.cntIfEnergy (Config.freeNat s.fresh % (watts + 1))
      envThr := live && decide (p.limit < watts)
      filler := live && decide (watts < p.low)
      cntEnvThr := if live && decide (p.limit < watts) then satAdd p.cntEnvThr 1000 else p.cntEnvThr
      cntThermThr := if p.thermThr then satAdd p.cntThermThr 1000 else p.cntThermThr })
    modeSettle (if 100 ≤ s1.power.samples then endInterval s1 else s1))

/-- EXCURSION_START (R416): P100 exceeds the limit, within the mode's excursion limit and at least 100 ms after the last one
began. -/
def execExcursionStart (watts : Nat) (s : State) : Host.Outcome State Fault Refusal :=
  .next (
    let p := s.power
    let late := match p.lastExcursion with
      | some t => decide (t.toNat + 100000000 ≤ clk s)
      | none => true
    if 2 ≤ p.st.toNat ∨ p.excursion ∨ watts ≤ p.limit ∨ excursionLimit p.mode.toNat < watts ∨ !late then s
    else powerEvent (modPower s (fun p => { p with
      excursion := true, cntExcursion := satAdd p.cntExcursion 1, lastExcursion := some s.inv.clk
      excursionEnd := s.inv.clk + 10000000 })) 8 p.st.toNat)

/-- Opcodes whose posted entries start a step or a stream (R49). -/
def startsWork (op : Nat) : Bool := op == 0x0401 || op == 0x0302

/-- Whether the lead of an entry has begun (R49): T − (target − power now) ÷ slew. -/
def leadBegun (s : State) (e : SchedEntry) : Bool :=
  let p := s.power
  startsWork e.cmd.opcode.toNat && decide (now s ≤ e.due) &&
    decide (e.due ≤ now s + ceilDiv ((p.target.toNat - p.p100) * 1000000) (max p.slew.toNat 1))

/-- ENVELOPE_RAMP_START (R49): in Run the power controller begins the ramp of a scheduled start, filling with filler work. -/
def execEnvelopeRampStart (s : State) : Host.Outcome State Fault Refusal :=
  .next (
    if s.power.st ≠ 0 ∨ s.power.ramp.isSome then s else
    match s.cmd.schedule.find? (leadBegun s) with
    | some e => modPower s (fun p => { p with ramp := some (BitVec.ofNat 64 e.due), filler := true })
    | none => s)

/-! ### Thermal limits (R417) -/

/-- A reading is at or above PWR_THERM_WARN. -/
def warm (s : State) : Bool := decide (s.power.thermWarn.toNat ≤ hottest s.power.temps)

/-- New junction readings (R417): a crossing of PWR_THERM_WARN raises event code 3, moves ALERT_N, and is an edge of R423. -/
def takeTemps (s : State) (t : Temps) : State :=
  let s1 := modPower s (fun p => { p with temps := liveTemps s t })
  if warm s = warm s1 then s1 else
  let s2 := refreshAlert (powerEvent s1 3 s.power.st.toNat)
  if s2.power.wakeCfg.getLsbD 4 ∧ (s2.power.st ≠ 0 ∨ s2.power.entering.isSome) then wakeEdge s2 5 else s2

/-- THERMAL_WARN_CROSS (R417). -/
def execThermalWarnCross (t : Temps) (s : State) : Host.Outcome State Fault Refusal :=
  .next (if s.tap.pwrEn then takeTemps s t else s)

/-- THERMAL_THROTTLE (R417): from 103 °C until 101 °C, with event codes 4 and 5. -/
def execThermalThrottle (t : Temps) (s : State) : Host.Outcome State Fault Refusal :=
  .next (
    if !s.tap.pwrEn then s else
    let s1 := takeTemps s t
    let hot := hottest s1.power.temps
    if !s1.power.thermThr ∧ 103 ≤ hot then powerEvent (modPower s1 (fun p => { p with thermThr := true })) 4 s1.power.st.toNat
    else if s1.power.thermThr ∧ hot ≤ 101 then powerEvent (modPower s1 (fun p => { p with thermThr := false })) 5 s1.power.st.toNat
    else s1)

/-- Every domain but ISL is turned off with no ramp (R411, R417): the package is in Dark as if entered from Run. With no other
domain on there is nothing to turn off. A stage of bring-up that this cuts does not go on, and a registered package shows RUNNING
again (R436; log entry 14). -/
def forceDark (s : State) : State :=
  if s.boot.stage.toNat < 3 ∨ 9 < s.boot.stage.toNat ∨ s.power.st = 3 ∧ !s.power.exiting then s
  else
    let s1 := modPower (enterState (cutWork s) 3) (fun p => { p with thermThr := false, temps := Power.reset.temps })
    if s1.boot.complete ∧ s1.boot.stage ≠ 9 then setStage (modBoot s1 (fun b => { b with fromDark := false })) 9 else s1

/-- THERMAL_TRIP (R417). -/
def execThermalTrip (t : Temps) (s : State) : Host.Outcome State Fault Refusal :=
  .next (
    if !s.tap.pwrEn then s else
    let s1 := takeTemps s t
    if hottest s1.power.temps < 110 then s1 else
    refreshAlert (powerEvent (modPower (forceDark s1) (fun p => { p with tripped := true })) 7 3))

/-! ### The input (R411) -/

/-- VIN outside 31.0 to 40.5 V. -/
def vinOut (mv : W16) : Bool := decide (mv.toNat < 31000) || decide (40500 < mv.toNat)

/-- VIN outside 30.0 to 41.0 V. -/
def vinFault (mv : W16) : Bool := decide (mv.toNat < 30000) || decide (41000 < mv.toNat)

/-- VIN_WARN (R411). -/
def execVinWarn (mv : W16) (s : State) : Host.Outcome State Fault Refusal :=
  .next (
    if !s.tap.pwrEn || !vinOut mv then s else
    refreshAlert (powerEvent (modPower s (fun p => { p with vinMv := mv, vinBad := true })) 6 s.power.st.toNat))

/-- VIN_CLEAR (R411): VIN back within 31.0 to 40.5 V for 1 ms. -/
def execVinClear (mv : W16) (s : State) : Host.Outcome State Fault Refusal :=
  .next (
    if !s.tap.pwrEn || vinOut mv then s
    else refreshAlert (modPower s (fun p => { p with vinMv := mv, vinBad := false })))

end Sys2Proof.Machine
end

