-- ==== Sys2Proof/Machine/Schedule.lean ====
section
/-! DEFINITION. The admission queue (R345), the checks that a command passes before it is queued (R344), and the schedule (R45 to R47,
R358, R422). -/

namespace Sys2Proof.Machine

/-! ### The admission queue (R345) -/

/-- One admitted command comes before another (R345): arrivals by S, master ID and SEQUENCE; commands dispatched at tick T after
every arrival with S below T and before every other. Commands dispatched at one tick keep the order in which they came. -/
def hdrBefore (a b : CmdHdr) : Bool :=
  match a.posted, b.posted with
  | none, none =>
    decide (a.stamp.toNat < b.stamp.toNat) ||
    (a.stamp == b.stamp && (decide (a.master.toNat < b.master.toNat) ||
      (a.master == b.master && decide (a.seq.toNat < b.seq.toNat))))
  | some t, none => decide (t.toNat ≤ b.stamp.toNat)
  | none, some u => decide (a.stamp.toNat < u.toNat)
  | some t, some u => decide (t.toNat < u.toNat)

/-- A command takes its place in the queue. -/
def queueInsert (l : List QCmd) (q : QCmd) : List QCmd :=
  match l with
  | [] => [q]
  | e :: t => if hdrBefore q.hdr e.hdr then q :: e :: t else e :: queueInsert t q

/-- A command enters the admission queue. -/
def enqueue (s : State) (q : QCmd) : State := { s with cmd := { s.cmd with queue := queueInsert s.cmd.queue q } }

/-! ### Steps 5 to 7 of R344 -/

/-- The reserved header words of a message hold 0 (R338, R344 step 6), for header words 5 to 15 in `raw`. DESIGN CHOICE (log
entry 86): they take in the reserved byte of word 3, which R15 alone would have ignored. -/
def reservedZero (raw : List Byte) : Bool := leAt raw 14 1 == 0 && (raw.drop 40).all (· == 0)

/-- Steps 5 to 7 of R344: opcode, scope and length, access table; none when the command passes. SESSION_OPEN is never checked at
step 7. -/
def checkCmd (s : State) (op : Nat) (h : CmdHdr) (params : List Byte) (reserved : Bool) : Option Status :=
  match cmdLength op params with
  | none => some .badOpcode
  | some n =>
    if !scopeOk op h.stream || n != params.length || !reserved then some .badParam
    else if op ≠ 0x0101 ∧ !tableAdmits s 0x1200 h.master.toNat (op * 65536 + h.stream.toNat) .cmd then some .denied
    else none

/-- An admitted command enters the replay log, unless it is of the read class (R370). -/
def logCmd (s : State) (q : QCmd) : State :=
  if readClass q.opcode.toNat then s else logAdmit s q.hdr q.opcode q.params

/-! ### Posting (R45, R46, R358) -/

/-- An entry enters the schedule. -/
def postEntry (s : State) (e : SchedEntry) : State :=
  { s with cmd := { s.cmd with schedule := s.cmd.schedule ++ [{ e with id := s.cmd.nextEntry }], nextEntry := s.cmd.nextEntry + 1 } }

/-- A dispatch later than its tick is counted (R42, R46). -/
def countLate (s : State) : State := { s with inv := { s.inv with cntLatePost := satAdd s.inv.cntLatePost 1 } }

/-- The due tick of a posted command (R46). -/
def dueTick (s : State) (nb stamp : Nat) : Nat := roundUp (max nb (stamp + 2000)) s.inv.tickNs.toNat

/-- A command with NB is posted (R45 step 6, R46). A due tick above 2^64 - 1 never comes (DESIGN CHOICE, log entry 29). -/
def postCmd (s : State) (q : QCmd) (nb : Nat) : State :=
  let t := dueTick s nb q.hdr.stamp.toNat
  let s1 := postEntry s {
    id := 0, due := t, nb := BitVec.ofNat 64 nb, cmd := q, isPost := false, repeatNs := 0, times := 1, occurrence := 0 }
  let s2 := if roundUp nb s.inv.tickNs.toNat < t then countLate s1 else s1
  reply s2 q.hdr q.opcode.toNat .accepted []

/-- Steps 8 and 9 of R344 on a command that passed the earlier ones: its window, the schedule, the queue (R45, R345). -/
def windowCmd (s : State) (q : QCmd) (nb : Nat) : State × Bool :=
  let wc := q.wc.toNat
  let st := q.hdr.stamp.toNat
  let no := fun (e : Status) => (reply s q.hdr q.opcode.toNat e [], false)
  if nb ≠ 0 ∧ wc ≠ 0 ∧ wc ≤ nb then no .badParam
  else if wc ≠ 0 ∧ wc ≤ st then no .windowMissed
  else if nb ≠ 0 ∧ st + s.inv.horizon.toNat < nb then no .notYet
  else if nb ≠ 0 then (if 4096 ≤ s.cmd.schedule.length then no .busy else (postCmd s q nb, true))
  else if 1024 ≤ queuedArrivals s then no .busy
  else (enqueue s q, true)

/-- The header of an embedded message (R358), as it will stand at an occurrence. -/
def embeddedHdr (h : CmdHdr) (m : List Byte) : CmdHdr :=
  { h with stream := BitVec.ofNat 16 (leAt m 12 2), seq := par32 m 16, wake := bit (leAt m 5 1) 2, posted := none,
           occurrence := some 0 }

/-- The faults of an embedded message (R358). -/
def embeddedBad (h : CmdHdr) (m : List Byte) : Bool :=
  let op := leAt m 6 2
  let n := leAt m 36 4
  decide (m.length < 64) || leAt m 8 2 != h.session.toNat || leAt m 10 2 != h.master.toNat || decide (4000 < n) ||
    m.length != 64 + n || op / 256 == 1 || op / 256 == 8 || op == 0x0506

/-- SCHEDULE_POST (R358). -/
def doSchedulePost (h : CmdHdr) (due repeatNs : W64) (times : W32) (message : List Byte) (s : State) : State :=
  let t := s.inv.tickNs.toNat
  if !aligned due.toNat t ∨ !aligned repeatNs.toNat t ∨ embeddedBad h message then answer s h 0x0506 .badParam
  else if due.toNat < h.stamp.toNat + 2000 then answer s h 0x0506 .windowMissed
  else if h.stamp.toNat + s.inv.horizon.toNat < due.toNat then answer s h 0x0506 .notYet
  else if 4096 ≤ s.cmd.schedule.length then answer s h 0x0506 .busy
  else
    let q : QCmd := { hdr := embeddedHdr h message, opcode := par16 message 6, serial := bit (leAt message 5 1) 3,
                      params := message.drop 64, raw := message.take 64, tag := [], wc := 0 }
    let s1 := postEntry s {
      id := 0, due := due.toNat, nb := due, cmd := q, isPost := true, repeatNs := repeatNs, times := times, occurrence := 0 }
    reply s1 h 0x0506 .done (leBytes 4 s.cmd.nextEntry.toNat)

/-- SCHEDULE_POST (R358). -/
def execSchedulePost (h : CmdHdr) (due repeatNs : W64) (times : W32) (message : List Byte) (s : State) :
    Host.Outcome State Fault Refusal :=
  .next (cmdStart (.schedulePost h due repeatNs times message) h 0x0506 (doSchedulePost h due repeatNs times message) s)

/-- SCHEDULE_POST with ACTION CANCEL (R358). An entry that the schedule does not hold is BAD_PARAM. -/
def doScheduleCancel (h : CmdHdr) (entry : W32) (s : State) : State :=
  match s.cmd.schedule.find? (fun e => e.isPost && e.id == entry) with
  | none => answer s h 0x0506 .badParam
  | some e =>
    if e.cmd.hdr.session ≠ h.session then answer s h 0x0506 .denied
    else reply { s with cmd := { s.cmd with schedule := s.cmd.schedule.filter (fun x => x.id ≠ entry) } } h 0x0506 .done
      (leBytes 4 entry.toNat)

/-- SCHEDULE_POST with ACTION CANCEL (R358). -/
def execScheduleCancel (h : CmdHdr) (entry : W32) (s : State) : Host.Outcome State Fault Refusal :=
  .next (cmdStart (.scheduleCancel h entry) h 0x0506 (doScheduleCancel h entry) s)

/-! ### Dispatch (R47, R422) -/

/-- The order of dispatch (R47): by due tick, then NB, S, master ID and SEQUENCE; an entry of SCHEDULE_POST counts its due tick as
NB and S. -/
def entryBefore (a b : SchedEntry) : Bool :=
  let s := fun (e : SchedEntry) => if e.isPost then e.due else e.cmd.hdr.stamp.toNat
  let key := fun (e : SchedEntry) => [e.due, if e.isPost then e.due else e.nb.toNat, s e, e.cmd.hdr.master.toNat,
    e.cmd.hdr.seq.toNat]
  decide (key a < key b)

/-- An entry inserted into a list in order of dispatch. -/
def entryInsert (l : List SchedEntry) (e : SchedEntry) : List SchedEntry :=
  match l with
  | [] => [e]
  | x :: t => if entryBefore e x then e :: x :: t else x :: entryInsert t e

/-- The entries due by now, in order of dispatch. -/
def dueEntries (s : State) : List SchedEntry := (s.cmd.schedule.filter (fun e => decide (e.due ≤ now s))).foldl entryInsert []

/-- The command of an entry as it is dispatched: under its tick, and for SCHEDULE_POST as the occurrence, with S equal to the
due tick (R358). -/
def dispatchCmd (e : SchedEntry) : QCmd :=
  { e.cmd with hdr := { e.cmd.hdr with
      posted := some (BitVec.ofNat 64 e.due)
      stamp := if e.isPost then BitVec.ofNat 64 e.due else e.cmd.hdr.stamp
      occurrence := if e.isPost then some e.occurrence else none } }

/-- An entry due again after its repeat interval (R358). -/
def nextOccurrence (x : SchedEntry) : SchedEntry :=
  { x with due := x.due + x.repeatNs.toNat, occurrence := x.occurrence + 1 }

/-- An entry after an occurrence: gone, or due again (R358). -/
def afterOccurrence (s : State) (e : SchedEntry) : State :=
  let again := e.isPost && e.repeatNs != 0 && (e.times == 0 || decide (e.occurrence + 1 < e.times.toNat))
  let l := s.cmd.schedule
  let l1 := if again then l.map (fun x => if x.id = e.id then nextOccurrence x else x) else l.filter (fun x => x.id ≠ e.id)
  { s with cmd := { s.cmd with schedule := l1 } }

/-- An entry dispatched in Run (R47): queued, an occurrence of SCHEDULE_POST after steps 5 to 7 of R344. An exit that began late
is counted (R422). -/
def dispatchRun (s : State) (e : SchedEntry) : State :=
  let q := dispatchCmd e
  let s1 := if e.due + 250 < now s then countLate s else s
  let s2 := afterOccurrence s1 e
  if !e.isPost then enqueue s2 q
  else
    match checkCmd s2 q.opcode.toNat q.hdr q.params (reservedZero q.raw) with
    | some st => reply (noteAccess s2 st) q.hdr q.opcode.toNat st []
    | none => enqueue (logCmd s2 q) q

/-- An entry due in Bank or Dark (R422): with WAKE it begins the exit and waits; else its occurrence ends with BUSY and a SCHEDULE
event. -/
def dispatchOff (s : State) (e : SchedEntry) : State :=
  if e.cmd.hdr.wake then beginExit s 6
  else
    let q := dispatchCmd e
    let s1 := reply (afterOccurrence s e) q.hdr q.opcode.toNat .busy []
    if e.isPost then s1 else raiseOpen s1 evSchedule 1 (leBytes 4 q.hdr.seq.toNat)

/-- One due entry, in the power state as it stands. -/
def dispatchOne (s : State) (e : SchedEntry) : State :=
  match s.power.st.toNat with
  | 0 => dispatchRun s e
  | 1 => beginExit s 6
  | _ => dispatchOff s e

/-- SCHEDULE_DISPATCH (R47): every due entry, in its order. The look-ahead ramp of a dispatched start ends (R49). -/
def execScheduleDispatch (s : State) : Host.Outcome State Fault Refusal :=
  .next (
    if !served s then s else
    let s1 := (dueEntries s).foldl dispatchOne s
    match s.power.ramp with
    | some t => if t.toNat ≤ now s ∧ s.power.st = 0 then modPower s1 (fun p => { p with ramp := none, filler := false }) else s1
    | none => s1)

end Sys2Proof.Machine
end

