-- ==== Sys2Proof/Machine/Apune.lean ====
section
/-! DEFINITION. Apune messages (R336 to R344): parts, sessions, sequence numbers and admission. -/

namespace Sys2Proof.Machine

/-- A part or message discarded (R339, R343, R344). -/
def discardMsg (s : State) : State := modCmd s (fun c => { c with cntDiscard := satAdd c.cntDiscard 1 })

/-! ### Admission (R344) -/

/-- The header of part 0 (R339): PART is 0. -/
def partZero (h : List Byte) : List Byte := h.take 15 ++ [BitVec.ofNat 8 (leAt h 15 1 % 16)] ++ (h.drop 16).take 48

/-- A message that fails step 3 (R344): counted, and answered AUTH_FAIL, at most 1,000 times a second on a port. -/
def authFail (s : State) (h : CmdHdr) (op : Nat) : State × Bool :=
  let r := authCount s h
  if r.2 then (emit r.1 (mkReply r.1 h op .authFail [] 0 r.1.memblk.epoch), true) else r

/-- What R343 does with an authenticated message. -/
inductive SeqAction where
  | accept | discard | again | repeatReply (r : Option Reply)
  deriving DecidableEq, Repr

/-- The action of R343 on a SEQUENCE. -/
def seqAction (x : Session) (op : Nat) (seq : W32) : SeqAction :=
  if seq = 0 ∨ seq.toNat + 1024 ≤ x.h.toNat then .discard
  else match x.seen.find? (fun e => e.1 == seq) with
    | none => .accept
    | some (_, r) => if readClass op then .again else .repeatReply r

/-- A session after it admits a SEQUENCE (R343, R400): H rises, the window moves, and keys whose last message has left it are
erased. -/
def admitSeq (x : Session) (seq : W32) : Session :=
  let h := if x.h.toNat < seq.toNat then seq else x.h
  { x with
    h := h
    seen := x.seen.filter (fun e => decide (h.toNat < e.1.toNat + 1024)) ++ [(seq, none)]
    old := x.old.filter (fun k => decide (h.toNat ≤ k.2.toNat + 1024)) }

/-- Steps 5 to 9 of R344 on a message with its header words 5 to 15 (`raw`). The Bool says that a reply has been sent or will be.
`reservedZero` says which header words step 6 holds to 0: DESIGN CHOICE, log entry 86. -/
def admitCmd (s : State) (q : QCmd) : State × Bool :=
  let op := q.opcode.toNat
  match checkCmd s op q.hdr q.params (reservedZero q.raw) with
  | some st => (reply (noteAccess s st) q.hdr op st [], true)
  | none =>
    let r := windowCmd s q (leAt q.raw 20 8)
    if r.2 then (logCmd r.1 q, true) else (r.1, true)

/-- The latest reply of a command sent again to a duplicate (R343), to where the duplicate came from. -/
def resendReply (s : State) (p : CmdPort) (r : Option Reply) : State × Bool :=
  let s1 := modCmd s (fun c => { c with cntDup := satAdd c.cntDup 1 })
  match r with
  | some y => (emit s1 { y with resent := true, port := p }, true)
  | none => (s1, true)

/-- A session of `s` replaced. -/
def putSession (s : State) (slot : Nat) (x : Session) : State := modCmd s (fun c => { c with sessions := put c.sessions slot x })

/-- A session that admits a KEY_ROTATE fails every command of a higher SEQUENCE until its final reply (R400). -/
def noteRotate (x : Session) (op : Nat) (seq : W32) : Session :=
  if op = 0x0104 then { x with rotating := seq :: x.rotating } else x

/-- Steps 3 to 9 of R344 on an assembled message. The Bool says that a reply has been sent or will be. -/
def admitMsg (s : State) (port : CmdPort) (stamp : W64) (hdr params tag : List Byte) : State × Bool :=
  let raw := partZero hdr
  let op := leAt raw 6 2
  let flags := leAt raw 5 1
  let h : CmdHdr := { session := par16 raw 8, master := par16 raw 10, stream := par16 raw 12, seq := par32 raw 16,
                      stamp := stamp, wake := bit flags 2, port := port, posted := none, occurrence := none }
  let q : QCmd := { hdr := h, opcode := BitVec.ofNat 16 op, serial := bit flags 3, params := params, raw := raw, tag := tag,
                    wc := par64 raw 28 }
  if h.session = 0 ∧ op = 0x0101 then (if openNamed h tag then admitCmd s q else authFail s h op)
  else match sessionOf s h.session with
    | none => authFail s h op
    | some (slot, x) =>
      if h.master.toNat ≠ 0x2000 + slot ∨ 0xFFFFFF00 ≤ x.h.toNat ∨ x.rotating.any (fun r => decide (r.toNat < h.seq.toNat)) ∨
          tag ≠ kmac256 (keysFor x h.seq).kc (raw ++ params) 32 (ascii "APUNE CMD") then authFail s h op
      else
        let y := { x with last := s.inv.clk }
        match seqAction x op h.seq with
        | .discard => (discardMsg (putSession s slot y), false)
        | .repeatReply r => resendReply (putSession s slot y) port r
        | .again => admitCmd (putSession s slot y) q
        | .accept => admitCmd (putSession s slot (admitSeq (noteRotate y op h.seq) h.seq)) q

/-! ### Parts (R338, R339) -/

/-- Step 1 of R344 on the header of a part. -/
def headerOk (b : List Byte) : Bool :=
  decide (64 ≤ b.length) && leAt b 0 4 == 0x4150554E && leAt b 4 1 == 1 && leAt b 5 1 &&& 0xF3 == 0 &&
    decide (leAt b 15 1 / 16 ≤ leAt b 15 1 % 16)

/-- The slice of a part, with the tag after it in the last one; its length is in range (R339). -/
def partSlice (b : List Byte) : Option (List Byte) :=
  let l := b.drop 64
  if leAt b 15 1 / 16 = leAt b 15 1 % 16 then (if 32 ≤ l.length ∧ l.length ≤ 4032 then some l else none)
  else if l.length ≤ 4000 then some l else none

/-- A message whose slices are all here: it is admitted when they add up to PARAM_LEN, else discarded (R339). -/
def completeMsg (s : State) (port : CmdPort) (stamp : W64) (hdr all : List Byte) : State × Bool :=
  let n := all.length - 32
  if n ≠ leAt hdr 36 4 then (discardMsg s, false)
  else admitMsg (modCmd s (fun c => { c with cntRx := satAdd c.cntRx 1 })) port stamp hdr (all.take n) (all.drop n)

/-- The number of the next incomplete message. -/
def nextPartial (s : State) : Nat := (s.cmd.partials.map (fun p => p.key + 1)).foldl max 0

/-- Two parts come from one sender: over the fabric the port that each came in by does not matter. -/
def sameSender : CmdPort → CmdPort → Bool
  | .fabric a _, .fabric b _ => a == b
  | p, q => p == q

/-- A part of a message in several parts (R339): a part that repeats one that is here is ignored. -/
def joinPart (s : State) (port : CmdPort) (stamp : W64) (b sl : List Byte) : State × Bool :=
  let hdr := partZero b
  let i := leAt b 15 1 / 16
  let n := leAt b 15 1 % 16
  match s.cmd.partials.find? (fun p => sameSender p.port port && p.header == hdr) with
  | none =>
    if 64 ≤ s.cmd.partials.length then (discardMsg s, false)
    else
      let p : Partial := { key := nextPartial s, port := port, header := hdr, parts := n, slices := [(i, sl)], first := s.inv.clk }
      (modCmd s (fun c => { c with partials := c.partials ++ [p] }), false)
  | some p =>
    if (look p.slices i).isSome then (s, false)
    else
      let ss := put p.slices i sl
      if ss.length ≤ n then
        (modCmd s (fun c => { c with partials := c.partials.map (fun x => if x.key = p.key then { x with slices := ss } else x) }),
          false)
      else
        completeMsg (modCmd s (fun c => { c with partials := c.partials.filter (fun x => x.key ≠ p.key) })) port stamp hdr
          (ss.flatMap (·.2))

/-- A message part arrives with the stamp of its port (R45, R309, R339, R344). The Bool says that a reply has been sent or will be. -/
def partArrives (s : State) (port : CmdPort) (stamp : W64) (b : List Byte) : State × Bool :=
  if !headerOk b then (discardMsg s, false)
  else match partSlice b with
    | none => (discardMsg s, false)
    | some sl => if leAt b 15 1 % 16 = 0 then completeMsg s port stamp b sl else joinPart s port stamp b sl

/-- A management port answers at an address (R364): its link-local one, and the one in its registers unless that is 0. -/
def mgtAddress (s : State) (m : Fin 2) (a : W128) : Bool :=
  let ip := vgetD s.cmd.ip (2 * m.val + 1) 0 ++ vgetD s.cmd.ip (2 * m.val) 0
  a == Config.linkLocal m.val || (ip != 0 && a == ip)

/-- The transport of a message takes a part (R336, R421): a management port with link, a whole datagram to its address and to
CMD_UDP_PORT; the fabric while the IOD runs and PKG_ID is assigned (R433). -/
def portServes (s : State) (via : Datagram) : CmdPort → Bool
  | .mgt m _ _ => vgetD s.tap.mgtUp m.val false && !via.fragment && via.udp == s.cmd.udpPort && mgtAddress s m via.dst
  | .fabric _ _ => iodOn s && s.pkgId != 0xFFFF

/-- MESSAGE_PART_ARRIVAL (R336, R339). -/
def execMessagePartArrival (port : Arrival) (bytes : List Byte) (s : State) : Host.Outcome State Fault Refusal :=
  .next (if served s && portServes s port.via port.port then (partArrives s port.port s.inv.ft bytes).1 else s)

/-- MESSAGE_ASSEMBLY_TIMEOUT (R339): 10 ms after its first part an incomplete message is discarded. -/
def execMessageAssemblyTimeout (key : Nat) (s : State) : Host.Outcome State Fault Refusal :=
  .next (match s.cmd.partials.find? (fun p => p.key == key) with
    | some p =>
      if p.first.toNat + 10000000 ≤ clk s then
        discardMsg (modCmd s (fun c => { c with partials := c.partials.filter (fun x => x.key ≠ key) }))
      else s
    | none => s)

end Sys2Proof.Machine
end

