-- ==== Sys2Proof/Machine/Boot.lean ====
section
/-! DEFINITION. Boot and bring-up (R429 to R437), PWR_EN and RESET_N (R411, R429, R454), firmware staging and activation (R393,
R394). -/

namespace Sys2Proof.Machine

/-! ### Power-on and restart (R429, R394) -/

/-- What a stack keeps in the flash repair log (R252). -/
def coldStack (u : StackUnit) : StackUnit := { StackUnit.reset with repairs := u.repairs }

/-- What a die keeps in the flash repair log (R380). -/
def coldDie (d : Die) : Die := { Die.reset with spares := loggedSpares d, remapBad := d.remapBad, remapCnt := d.remapCnt }

/-- What the security block keeps in flash and fuses (R389): everything else is as at power-on. -/
def coldCob (c : Cob) : Cob :=
  { Cob.reset with
    creds := c.creds, ordinals := c.ordinals, ctrs := c.ctrs, keyHashes := c.keyHashes, revoked := c.revoked, rma := c.rma
    dikPresent := c.dikPresent, provOk := c.provOk, flash := c.flash }

/-- The boot record (R431), which flash keeps, and the announcements sent. -/
def coldBoot (b : Boot) : Boot :=
  { Boot.reset with active := b.active, lastGood := b.lastGood, trial := b.trial, tries := b.tries, anns := b.anns }

/-- Bytes of the header that FW_STAGE and IMG_BEGIN erase (R390). -/
def imageHeaderLen : Nat := 12288

/-- An image transfer that a restart ends leaves its slot without a header (R447). -/
def endTransfer (s : State) : State :=
  match s.i3c.image with
  | some slot => flashErase s slot 0 imageHeaderLen
  | none => s

/-- The package as at power-on (R429, R394): the flash, the fuses, the pins and what has been sent stay; INCARN counts on. -/
def cold (s : State) : State :=
  { State.reset with
    pending := s.pending
    fresh := s.fresh
    lastStatus := s.lastStatus
    dies := s.dies.map coldDie
    stk := s.stk.map coldStack
    cob := coldCob (endTransfer s).cob
    boot := coldBoot s.boot
    i3c := { s.i3c with buffer := [], image := none }
    tap := { s.tap with alert := false }
    fab := { Fab.reset with incarn := s.fab.incarn, incarnAt := s.fab.incarnAt }
    cmd := { Cmd.reset with sent := s.cmd.sent, mgtOut := s.cmd.mgtOut, gens := s.cmd.gens }
    twin := { Twin.reset with sent := s.twin.sent } }

/-- A restart while ISL stays powered: FT counts on (R37), and the readings of VIN stay (log entry 15). -/
def restartIsl (s : State) : State :=
  { cold s with
    inv := { Invar.reset with ft := s.inv.ft, clk := s.inv.clk, seconds := s.inv.seconds }
    power := { Power.reset with vinMv := s.power.vinMv, vinBad := s.power.vinBad } }

/-- Stage 2 begins (R429, R430): INCARN rises (R307) and Cobalt draws a challenge (R407). -/
def beginStage2 (s : State) : State :=
  let s1 := raiseIncarn (useFresh (modCob s (fun c => { c with chal := Config.challenge s.fresh })) 1)
  setStage (modBoot s1 (fun b => { b with ftStart := s1.inv.ft, annSeq := 0, fail := 0, warn := 0 })) 2

/-- A restart from stage 2 (R429, R394, R432). -/
def restart (s : State) : State := beginStage2 (restartIsl s)

/-- PWR_EN_ASSERT (R429): boot begins once RESET_N is high too. -/
def execPwrEnAssert (s : State) : Host.Outcome State Fault Refusal :=
  .next (
    if s.tap.pwrEn then s else
    let s1 := { s with tap := { s.tap with pwrEn := true } }
    if s1.tap.resetN then beginStage2 s1 else s1)

/-- Every domain turns off, ISL last (R411). -/
def islOff (s : State) : State :=
  { cold s with tap := { Tap.reset with resetN := s.tap.resetN }, i3c := { I3c.reset with ibis := s.i3c.ibis, ids := s.i3c.ids } }

/-- PWR_EN_DEASSERT (R411): every domain turns off, ISL last. -/
def execPwrEnDeassert (s : State) : Host.Outcome State Fault Refusal := .next (if !s.tap.pwrEn then s else islOff s)

/-- VIN below the 18 V from which the always-on converter keeps the island running (R411): VIN counts as absent (R451). -/
def vinAbsent (mv : W16) : Bool := decide (mv.toNat < 18000)

/-- VIN_FAULT_OFF (R411): the package is in Dark. With VIN absent the island too is off, as after PWR_EN_DEASSERT, and the board must
assert PWR_EN again with VIN back (R429; log entry 90). -/
def execVinFaultOff (mv : W16) (s : State) : Host.Outcome State Fault Refusal :=
  .next (
    if !s.tap.pwrEn || !vinFault mv then s
    else if vinAbsent mv then islOff s
    else
      let s1 := forceDark (modPower s (fun p => { p with vinMv := mv, vinBad := true }))
      refreshAlert (powerEvent s1 6 s1.power.st.toNat))

/-- RESET_N_LOW (R429): every domain except ISL turns off, and the package holds at stage 1 until RESET_N rises. -/
def execResetNLow (s : State) : Host.Outcome State Fault Refusal :=
  .next (
    if !s.tap.resetN then s else
    let s1 := { s with tap := { s.tap with resetN := false } }
    if s1.tap.pwrEn then setStage (restartIsl s1) 1 else s1)

/-- RESET_N_RISE (R454, R429): the TAP enters Test-Logic-Reset, the lands are released, the test-mode IOD domain turns off, and
boot starts at stage 2. -/
def execResetNRise (s : State) : Host.Outcome State Fault Refusal :=
  .next (
    if s.tap.resetN then s else
    let s1 := { s with tap := { s.tap with resetN := true, ir := 0x02, landsTaken := false, testIod := false } }
    if s1.tap.pwrEn then beginStage2 s1 else s1)

/-! ### Stage 2 (R430 to R432) -/

/-- The boot record of one state, as the record of another (R431). -/
def keepRecord (s t : State) : State :=
  modBoot s (fun b => { b with active := t.boot.active, lastGood := t.boot.lastGood, trial := t.boot.trial, tries := t.boot.tries })

/-- The selection of R431: the slot that boots, with the record as it is written; with no valid slot none is written. -/
def selectImage (s : State) : State × Option Bool :=
  let b := s.boot
  let s1 :=
    if b.trial then
      (if b.tries = 3 then setWarn (modBoot s (fun b => { b with active := b.lastGood, trial := false, tries := 0 })) 6
       else modBoot s (fun b => { b with tries := b.tries + 1 }))
    else s
  if slotValid s1 s1.boot.active then (s1, some s1.boot.active)
  else if slotValid s1 (!s1.boot.active) then
    (setWarn (modBoot s1 (fun b => { b with active := !b.active, trial := false, tries := 0 })) 4, some (!s1.boot.active))
  else (keepRecord s1 s, none)

/-- RECOVERY (R432): only ISL runs, and announcements carry FAIL 0x21. -/
def enterRecovery (s : State) : State := setStage (modBoot s (fun b => { b with fail := 0x21 })) 14

/-- The components of an image extend MR1 to MR4 in table order (R392). No other register is ever extended for a component: one that
names another extends none (log entry 15). -/
def measureImage (s : State) (slot : Bool) : State :=
  let img := flashByte s slot
  ((List.range (imgComps img)).filter (fun i => 1 ≤ imgNat img (compAt i + 8) 1 && imgNat img (compAt i + 8) 1 ≤ 4)).foldl (fun t i =>
    extendMr t (imgNat img (compAt i + 8) 1) (imgBytes img (compAt i + 16) 64)) s

/-- The running image (R409, R434): slot, BUILD, key slot, COMMIT_SVN and the SVNs of its components. -/
def runImage (s : State) (slot : Bool) : State :=
  let img := flashByte s slot
  modCob (measureImage s slot) (fun c => { c with
    bootSlot := slot, build := BitVec.ofNat 64 (imgNat img 24 8), keyslot := BitVec.ofNat 4 (imgNat img 16 1)
    commitSvn := bit (imgNat img 17 1) 0
    svns := (List.range (imgComps img)).map (fun i => (imgNat img (compAt i + 9) 1, imgNat img (compAt i + 10) 1)) })

/-- MR0 and MR5 (R392). -/
def measureIsland (s : State) : State :=
  extendMr (extendMr s 0 (sha3_512 Config.bootRom)) 5 (sha3_512 (Config.fuseBytes s.cob.ctrs s.cob.keyHashes s.cob.revoked s.cob.rma))

/-- MR0 and MR5, and the tag of the provisioning area (R389, R392). The manual lays out neither the area nor the key of its tag, and
no command changes the one without the other: whether the tag still holds at a boot is a free value (log entries 3 and 15). -/
def islandMeasure (s : State) : State :=
  let s1 := modCob (useFresh (measureIsland s) 1) (fun c => { c with provOk := Config.freeBool s.fresh })
  if s1.cob.provOk then s1 else setWarn s1 5

/-- BOOT_ISLAND (R430, R431): stage 2. -/
def execBootIsland (flashOk : Bool) (s : State) : Host.Outcome State Fault Refusal :=
  .next (
    if s.boot.stage ≠ 2 then s
    else if !flashOk then bootFatal (measureIsland s) 0x20
    else
      let r := selectImage (islandMeasure s)
      match r.2 with
      | some slot => setStage (runImage r.1 slot) 3
      | none => enterRecovery r.1)

/-- RECOVERY (R432): stage 2 has found no valid image in either slot. -/
def execRecovery (s : State) : Host.Outcome State Fault Refusal :=
  .next (if s.boot.stage = 2 ∧ !slotValid s false ∧ !slotValid s true then enterRecovery (selectImage (islandMeasure s)).1 else s)

/-! ### Stages 3 to 7 (R430, R436) -/

/-- Bring-up runs: it is not cut by a Dark that no exit has left (R411, R417, R436). -/
def bootLive (s : State) : Bool := s.power.st != 3 || s.power.exiting

/-- BOOT_IOD (R430): stage 3. -/
def execBootIod (domainOk firmwareOk : Bool) (s : State) : Host.Outcome State Fault Refusal :=
  .next (
    if s.boot.stage ≠ 3 ∨ !bootLive s then s
    else if !domainOk then bootFatal s 0x30
    else if !firmwareOk then bootFatal s 0x31
    else setStage s 4)

/-- The domain of a die powers up for bring-up; in an exit from Dark its registers stay, and a fenced die stays off. -/
def bootDie (s : State) (k : Nat) : State :=
  if s.boot.fromDark then (if dieFenced s k then s else modDie s k (fun d => { d with on := true }))
  else powerDie s k

/-- BOOT_DIE_LINKS (R430): stage 4. The IOD edges train first, then the ring (`trainAll`); an edge below full width
sets warning bit 2. -/
def execBootDieLinks (up : DieLinksUp) (s : State) : Host.Outcome State Fault Refusal :=
  .next (
    if s.boot.stage ≠ 4 ∨ !bootLive s then s else
    let s1 := (List.range 4).foldl bootDie s
    let s0 := trainAll up s1
    let s2 := if (List.range 8).any (fun e => edgeState s0 e == 2) then setWarn s0 2 else s0
    let s3 := if s2.dies.toList.any (fun d => d.st == .fenced) then setWarn s2 0 else s2
    if s3.dies.toList.all (fun d => d.st == .fenced) then bootFatal s3 0x40 else setStage s3 5)

/-- A stack of a live die comes UP with zeros, or is fenced (R247). A stack fenced before an exit from Dark stays fenced. -/
def bootStack (ok : W16) (s : State) (k : Nat) : State :=
  if dieFenced s (k / 4) ∨ (stackUnit s k).st = .fenced then s
  else if ok.getLsbD k then stackUp s k
  else setWarn (fenceStack s k) 1

/-- BOOT_DIES_STACKS (R430, R431): stage 5; at its end LAST_GOOD = ACTIVE and TRIAL = 0. -/
def execBootDiesStacks (ok : W16) (s : State) : Host.Outcome State Fault Refusal :=
  .next (
    if s.boot.stage ≠ 5 ∨ !bootLive s then s else
    let s1 := (List.range 4).foldl (fun t k => if dieFenced t k then t else zeroClusters t k) s
    let s2 := (List.range 16).foldl (bootStack ok) s1
    let s3 := modBoot s2 (fun b => { b with lastGood := b.active, trial := false })
    setStage (if s.boot.fromDark then s3 else portsStart s3) 6)

/-- Stage 8, or after an exit from Dark with PKG_ID assigned RUNNING, with one announcement (R436). -/
def reachEight (s : State) : State :=
  if s.boot.fromDark ∧ s.pkgId ≠ 0xFFFF then
    let s1 := modBoot s (fun b => { b with stage := 9, fromDark := false })
    inBand (announceOn (announceOn s1 0) 1) false
  else setStage (modBoot s (fun b => { b with fromDark := false })) 8

/-- Stage 7 begins: firmware writes FT_PARENT = 0xFD (R430). An exit from Dark skips it unless FT_STATE is FREE (R436). -/
def reachSeven (s : State) : State :=
  if s.boot.fromDark ∧ s.inv.state ≠ 0 then reachEight s
  else setStage (if s.inv.parent = 0xFD then s else changeParent s 0xFD) 7

/-- A port has come to the end of its bring-up (R430): UP, or without signal, or it has exceeded a budget once. -/
def portSettled (p : Port) : Bool := p.mode != 1 || p.isUp || p.overran || p.pstate == 1 || p.pstate == 7

/-- BOOT_FABRIC (R430): stage 6 ends. -/
def execBootFabric (s : State) : Host.Outcome State Fault Refusal :=
  .next (if s.boot.stage = 6 ∧ s.power.st = 0 ∧ s.fab.ports.toList.all portSettled then reachSeven s else s)

/-- BOOT_TIME (R430): stage 7 ends with FT_STATE COARSE or LOCKED; else once its 10 s have run out FT stays FREE with
warning bit 3. -/
def execBootTime (s : State) : Host.Outcome State Fault Refusal :=
  .next (
    if s.boot.stage ≠ 7 then s
    else if s.inv.state = 2 ∨ s.inv.state = 3 then reachEight s
    else if clk s < s.boot.since.toNat + 10000000000 then s
    else reachEight (setWarn (ftFree s) 3))

/-! ### Firmware (R393, R394) -/

/-- What a slice of an FW_STAGE meets at its source (R31, R353, R402). -/
def stageStatus (s : State) (mid a n : Nat) : Status :=
  firstBad [cmdAccess s mid a n .r, if poisoned s a n then .degraded else .done]

/-- The bytes of the image from `lo` up to `hi` are programmed, but for its header. -/
def programBody (s : State) (src : Nat) (slot : Bool) (lo hi : Nat) : State :=
  let a := max lo imageHeaderLen
  if hi ≤ a then s else flashProgram s slot a (rdBytes s (src + a) (hi - a))

/-- One slice of an FW_STAGE (R393): `n` bytes are programmed, the header last of all, so that a stage cut short leaves none; at the
end the flash copy is read back and checked. A source that fails its check ends the stage, and one behind an edge that trains is waited
for (R276). -/
def stageSlice (s : State) (o : LongOp) (src : W64) (len : Nat) (slot : Bool) (done : Nat) (ok : Bool) (n : Nat) : State :=
  let k := min n (len - done)
  let mid := o.hdr.master.toNat
  let d := done + k
  let a := if d < len then src.toNat + done else src.toNat
  let m := if d < len then k else len
  if trainHolds s mid a m then s else
  if stageStatus s mid a m ≠ .done then endStage (noteAccess s (stageStatus s mid a m)) o (stageStatus s mid a m) else
  let s0 := programBody (meshTrip s mid (src.toNat + done) k false) src.toNat slot done d
  let s1 := if d < len then s0 else flashProgram s0 slot 0 (rdBytes s0 src.toNat (min len imageHeaderLen))
  let s2 := modLong s1 o.id (fun x => { x with kind := .fwStage src len slot d ok, cursor := BitVec.ofNat 64 d })
  if d < len then s2 else
  let o2 := { o with cursor := BitVec.ofNat 64 d }
  if ok ∧ imageValid s2 (flashByte s2 slot) len then endStage s2 o2 .done
  else endStage (flashErase s2 slot 0 imageHeaderLen) o2 .degraded

/-- FW_STAGE (R393). -/
def doFwStage (h : CmdHdr) (src : W64) (len : W32) (slot : Byte) (flashOk : Bool) (slice : Nat) (s : State) : State :=
  let a := src.toNat
  let n := len.toNat
  let b := slot == 1
  let acc := cmdAccess s h.master.toNat a n .r
  if slotLen < n ∨ 1 < slot.toNat ∨ acc = .badParam ∨ !inStacks a n then answer s h 0x0801 .badParam
  else if b = s.cob.bootSlot ∨ s.cob.staging.isSome then answer s h 0x0801 .busy
  else if acc ≠ .done then answer (noteAccess s acc) h 0x0801 acc
  else if poisoned s a n then answer s h 0x0801 .degraded
  else if !imageValid s (fun i => if i < n then rdByte s (a + i) else 0) n then answer s h 0x0801 .badParam
  else
    let s1 := modCob (flashErase s b 0 imageHeaderLen) (fun c => { c with staging := some b })
    let s2 := startLong s1 h 0x0801 (.fwStage src n b 0 flashOk)
    match longOp s2 s.cmd.nextLong with
    | none => s2
    | some o =>
      let s3 := stageSlice s2 o src n b 0 flashOk slice
      match longOp s3 o.id with
      | some o3 => replyFull s3 h 0x0801 .inProgress [] o3.cursor.toNat s3.memblk.epoch
      | none => s3

/-- FW_STAGE (R393). -/
def execFwStage (h : CmdHdr) (src : W64) (len : W32) (slot : Byte) (flashOk : Bool) (slice : Nat) (s : State) :
    Host.Outcome State Fault Refusal :=
  .next (cmdStart (.fwStage h src len slot flashOk slice) h 0x0801 (doFwStage h src len slot flashOk slice) s)

/-- The slot goes into the boot record, on trial (R431). -/
def writeRecord (s : State) (slot : Bool) : State := modBoot s (fun b => { b with active := slot, trial := true, tries := 0 })

/-- FW_ACTIVATE with WHEN 0 (R394). -/
def doFwActivateNextBoot (h : CmdHdr) (slot : Byte) (s : State) : State :=
  if 1 < slot.toNat ∨ !slotValid s (slot == 1) then answer s h 0x0802 .badParam
  else answer (writeRecord s (slot == 1)) h 0x0802 .done

/-- FW_ACTIVATE with WHEN 0 (R394). -/
def execFwActivateNextBoot (h : CmdHdr) (slot : Byte) (s : State) : Host.Outcome State Fault Refusal :=
  .next (cmdStart (.fwActivateNextBoot h slot) h 0x0802 (doFwActivateNextBoot h slot) s)

/-- FW_ACTIVATE with WHEN 1 (R394): DONE, then a restart. -/
def doFwActivateNow (h : CmdHdr) (slot : Byte) (s : State) : State :=
  if 1 < slot.toNat ∨ !slotValid s (slot == 1) then answer s h 0x0802 .badParam
  else if s.memblk.stepOn || anyRuns s || ckptBusy s || s.cob.staging.isSome then answer s h 0x0802 .busy
  else restart (answer (writeRecord s (slot == 1)) h 0x0802 .done)

/-- FW_ACTIVATE with WHEN 1 (R394). -/
def execFwActivateNow (h : CmdHdr) (slot : Byte) (s : State) : Host.Outcome State Fault Refusal :=
  .next (cmdStart (.fwActivateNow h slot) h 0x0802 (doFwActivateNow h slot) s)

end Sys2Proof.Machine
end

