-- ==== Sys2Proof/Machine/Ctl.lean ====
section
/-! DEFINITION. CTL instructions (R133, R134): they execute in the sequencer at issue, and every fault of one is found
there (R117). -/

namespace Sys2Proof.Machine

/-- FN, IMMB, XD, XA, XB and IMM of a CTL instruction (R133). -/
def Issued.fn (i : Issued) : Nat := i.f 0 21 18
def Issued.cxd (i : Issued) : Nat := i.f 0 15 12
def Issued.cxa (i : Issued) : Nat := i.f 0 11 8
def Issued.cxb (i : Issued) : Nat := i.f 0 7 4
def Issued.cimm (i : Issued) : Nat := i.f 1 63 0
/-- The second operand (R133). -/
def Issued.opnd (i : Issued) : Nat := if i.f 0 17 17 = 1 then i.cimm else i.xr i.cxb
/-- OFF, signed, in instructions (R133). -/
def Issued.off (i : Issued) : Int := sext 32 (i.f 3 31 0)
/-- The address of LDX and STX, the count of YIELD (R133). -/
def Issued.sum (i : Issued) : Nat := (i.xr i.cxa + i.cimm) % 2 ^ 64

/-- One CTL instruction: its effect on the context, or a fault at issue. -/
def ctlIssue (n : Nat) (c : Ctx) (op : Nat) (act : State → Issued → Issue) (s : State) : State :=
  issue s n c 4 op (fun t i _ => act t i)

/-- An operation for which every non-zero FN is reserved (R133). -/
def fnZero (i : Issued) (r : Issue) : Issue := if i.fn = 0 then r else .fault .badParam

/-- CTL_NOP (R133). -/
def execCtlNop (n : Nat) (c : Ctx) (s : State) : Host.Outcome State Fault Refusal :=
  .next (ctlIssue n c 0x0 (fun t i => fnZero i (.done t)) s)

/-- CTL_SETI (R133). -/
def execCtlSeti (n : Nat) (c : Ctx) (s : State) : Host.Outcome State Fault Refusal :=
  .next (ctlIssue n c 0x1 (fun t i => fnZero i (.done (modStream t n c (fun u => u.setX i.cxd i.cimm)))) s)

/-- CTL_ALU (R133). -/
def execCtlAlu (n : Nat) (c : Ctx) (s : State) : Host.Outcome State Fault Refusal :=
  .next (ctlIssue n c 0x2 (fun t i =>
    match aluOp i.fn (i.xr i.cxa) i.opnd with
    | some v => .done (modStream t n c (fun u => u.setX i.cxd v))
    | none => .fault .badParam) s)

/-- The byte offset of an instruction at OFF from one at `pc` (R133). -/
def jumpTo (pc : Nat) (off : Int) : Nat := wrap 64 ((pc : Int) + 16 * off)

/-- The loops that a branch to a target leaves are popped, innermost first (R134). -/
def popLoops (target : Nat) : List Loop → List Loop
  | [] => []
  | l :: r => if l.start ≤ target ∧ target ≤ l.stop then l :: r else popLoops target r

/-- CTL_BR (R133, R134): a taken branch goes to its target, out of every loop whose body the target leaves. -/
def execCtlBr (n : Nat) (c : Ctx) (s : State) : Host.Outcome State Fault Refusal :=
  .next (ctlIssue n c 0x3 (fun t i =>
    match brCond i.fn (i.xr i.cxa) i.opnd (stream t n c).c with
    | some true =>
      let target := jumpTo i.pc i.off
      .jump (modStream t n c (fun u => { u with pc := target, loops := popLoops target u.loops }))
    | some false => .done t
    | none => .fault .badParam) s)

/-- CTL_LOOP (R133, R134): the body is the next instruction to PC + 16 × OFF; count 0 skips it. -/
def execCtlLoop (n : Nat) (c : Ctx) (s : State) : Host.Outcome State Fault Refusal :=
  .next (ctlIssue n c 0x4 (fun t i => fnZero i (
    if i.off ≤ 0 ∨ 4 ≤ (stream t n c).loops.length then .fault .badParam else
    let stop := jumpTo i.pc i.off
    let count := i.xr i.cxa
    .jump (modStream t n c (fun u =>
      if count = 0 then seqNext u stop u.loops
      else { u with
        pc := (i.pc + 16) % 2 ^ 64
        loops := { count := BitVec.ofNat 64 count, index := 0, start := (i.pc + 16) % 2 ^ 64, stop := stop,
                   xd := BitVec.ofNat 4 i.cxd } :: u.loops }.setX i.cxd 0)))) s)

/-- CTL_LDX (R133). -/
def execCtlLdx (n : Nat) (c : Ctx) (s : State) : Host.Outcome State Fault Refusal :=
  .next (ctlIssue n c 0x5 (fun t i => fnZero i (
    if aligned i.sum 8 && inStore i.sum 8 then .done (modStream t n c (fun u => u.setX i.cxd (stNat t n i.sum 8)))
    else .fault .badParam)) s)

/-- CTL_STX (R133). -/
def execCtlStx (n : Nat) (c : Ctx) (s : State) : Host.Outcome State Fault Refusal :=
  .next (ctlIssue n c 0x6 (fun t i => fnZero i (
    if aligned i.sum 8 && inStore i.sum 8 then .done (stPut t n i.sum (leBytes 8 (i.xr i.cxb))) else .fault .badParam)) s)

/-- CTL_FENCE (R133): not issued while an earlier instruction of a class of FN has not completed (R140). -/
def execCtlFence (n : Nat) (c : Ctx) (s : State) : Host.Outcome State Fault Refusal :=
  .next (ctlIssue n c 0x7 (fun t i =>
    if (outstanding t n c).any (fun o => bit i.fn o.2.2) then .hold else .done t) s)

/-- CTL_YIELD (R133). -/
def execCtlYield (n : Nat) (c : Ctx) (s : State) : Host.Outcome State Fault Refusal :=
  .next (ctlIssue n c 0x8 (fun t i => fnZero i (
    .done (modStream t n c (fun u => { u with yieldUntil := ftAfterCk t i.sum })))) s)

/-- CTL_HALT (R114, R133, R141): once every earlier instruction of the context has completed. -/
def execCtlHalt (n : Nat) (c : Ctx) (s : State) : Host.Outcome State Fault Refusal :=
  .next (ctlIssue n c 0x9 (fun t i => fnZero i (
    if !streamQuiet t n c then .hold else
    .jump (useFresh (modStream t n c (fun u =>
      let v := { u with st := .halted, pc := (i.pc + 16) % 2 ^ 64 }
      { v with record := { stopRecord t n v with haltCode := BitVec.ofNat 32 i.cimm } })) 1))) s)

/-- The special registers of RDSR (R133); none for a reserved FN. WIN is read as the signed value that it is. -/
def specialReg (s : State) (n : Nat) (c : Ctx) (fn : Nat) : Option Nat :=
  let t := stream s n c
  match fn with
  | 0 => some n
  | 1 => some (ctxIdx c).val
  | 2 => some (now s)
  | 3 => some t.sticky
  | 4 => some (wrap 64 (sext 10 t.win.toNat))
  | 5 => some s.memblk.epoch.toNat
  | _ => none

/-- CTL_RDSR (R133). -/
def execCtlRdsr (n : Nat) (c : Ctx) (s : State) : Host.Outcome State Fault Refusal :=
  .next (ctlIssue n c 0xA (fun t i =>
    match specialReg t n c i.fn with
    | some v => .done (modStream t n c (fun u => u.setX i.cxd v))
    | none => .fault .badParam) s)

/-- CTL_CLRF (R133). -/
def execCtlClrf (n : Nat) (c : Ctx) (s : State) : Host.Outcome State Fault Refusal :=
  .next (ctlIssue n c 0xB (fun t i =>
    if i.fn < 8 then .done (modStream t n c (fun u => u.clearSticky i.fn)) else .fault .badParam) s)

/-- STREAM_FAULT (R117): a fault found after issue stops a RUNNING stream as STREAM_STOP does. -/
def execStreamFault (n : Nat) (c : Ctx) (s : State) : Host.Outcome State Fault Refusal :=
  .next (
    let t := stream s n c
    if t.st == .running && t.fault.isSome then stopStream s n c else s)

/-- STREAM_STOPPED (R140, R141, R115): a STOPPING stream with nothing left in flight reaches STOPPED or FAULTED. -/
def execStreamStopped (k : Nat) (s : State) : Host.Outcome State Fault Refusal :=
  .next (streamReached s (k / 4) (ctxOf k))

end Sys2Proof.Machine
end

