-- ==== Sys2Proof/Machine/DieLink.lean ====
section
/-! DEFINITION. Die links (R269 to R277): flits, retries, training and watchdogs; and the mesh (R281 to R283). -/

namespace Sys2Proof.Machine

/-! ### Flits (R269 to R272) -/

/-- A bundle direction before its first flit. -/
def Bundle.fresh : Bundle :=
  { rxExpect := 0, nakOut := false, nakOwed := false, ackOwed := false, nakFrom := none, txNext := 0, replay := [] }

/-- A bundle of an end. -/
def bundleOf (l : LinkEnd) (b : Nat) : Bundle := lookD l.bundles b Bundle.fresh

/-- A bundle of an end changed. -/
def modBundle (l : LinkEnd) (b : Nat) (f : Bundle → Bundle) : LinkEnd := { l with bundles := put l.bundles b (f (bundleOf l b)) }

/-- The CRC of a flit and its sideband holds (R270). -/
def d2dCrcOk (data : List Byte) (side : W64) : Bool :=
  data.length == 256 && (crc32c (data ++ leBytes 4 (side.toNat / 2 ^ 32))).toNat == side.toNat % 2 ^ 32

/-- A flit from its bytes (R269). -/
def parseD2d (data : List Byte) : D2dFlit :=
  let w := leAt data 0 4
  { bseq := BitVec.ofNat 12 (bits w 27 16), typ := BitVec.ofNat 4 (bits w 31 28), eseq := BitVec.ofNat 16 w,
    units := BitVec.ofNat 8 (leAt data 4 4 / 2 ^ 24), payload := (data.drop 16).take 240, sends := 1 }

/-- The bytes that a flit delivers. -/
def D2dFlit.bytes (f : D2dFlit) : List Byte := f.payload.take (16 * min f.units.toNat 15)

/-- A mesh packet from its bytes (R281): a READ names LEN bytes and carries none. -/
def parseMesh (l : List Byte) : MeshPkt :=
  let w := leAt l 0 4
  let n := bits (leAt l 12 4) 15 4
  { net := bit w 31, typ := BitVec.ofNat 5 (bits w 30 26), ddie := BitVec.ofNat 2 (bits w 25 24), dx := BitVec.ofNat 8 (w / 65536),
    dy := BitVec.ofNat 8 (w / 256), mcend := BitVec.ofNat 8 w, master := BitVec.ofNat 16 (leAt l 4 4 / 65536),
    tag := BitVec.ofNat 16 (leAt l 4 4), addr := BitVec.ofNat 48 (leAt l 8 4 + 2 ^ 32 * (leAt l 12 4 / 65536)),
    len := BitVec.ofNat 12 n, data := (l.drop 16).take (if bits w 30 26 = 0 then 0 else n) }

/-- Whole packets at the front of a byte stream, and what is left. -/
def takeMesh : Nat → List Byte → List MeshPkt × List Byte
  | 0, l => ([], l)
  | f + 1, l =>
    if l.length < 16 then ([], l) else
    let p := parseMesh l
    let n := 16 + roundUp p.data.length 16
    if l.length < 16 + (if p.typ = 0 then 0 else roundUp p.len.toNat 16) then ([], l)
    else let q := takeMesh f (l.drop n); (p :: q.1, q.2)

/-- The bytes of a mesh packet (R281): the header, and its data in whole units of 16 B. -/
def meshBytes (p : MeshPkt) : List Byte :=
  let n := roundUp p.data.length 16
  wordsBytes [fieldAt (b2n p.net) 1 31 + fieldAt p.typ.toNat 5 26 + fieldAt p.ddie.toNat 2 24 + fieldAt p.dx.toNat 8 16 +
      fieldAt p.dy.toNat 8 8 + p.mcend.toNat,
    fieldAt p.master.toNat 16 16 + p.tag.toNat, p.addr.toNat % 2 ^ 32,
    fieldAt (p.addr.toNat / 2 ^ 32) 16 16 + fieldAt p.len.toNat 12 4] ++ p.data ++ List.replicate (n - p.data.length) 0

/-- The active bundles of an end. -/
def activeBundles (l : LinkEnd) : List Nat := (List.range 32).filter (fun i => l.mask.getLsbD i)

/-- The bundle that a flit of a network takes (R271): its flits go over the active bundles in rotation. -/
def bundleFor (l : LinkEnd) (eseq : W16) : Nat :=
  let bs := activeBundles l
  bs.getD (eseq.toNat % max bs.length 1) 0

/-- The 256 bytes of a flit (R269). -/
def d2dBytes (x : D2dFlit) : List Byte :=
  wordsBytes [fieldAt x.typ.toNat 4 28 + fieldAt x.bseq.toNat 12 16 + x.eseq.toNat, fieldAt x.units.toNat 8 24, 0, 0] ++
    slice x.payload 0 240

/-- A flit leaves by a bundle, with its sideband (R270): the credits owed, up to 15 of each network, the bundle's acknowledgement or
NAK, and the CRC over both. -/
def wireD2d (l : LinkEnd) (b : Nat) (x : D2dFlit) : LinkEnd :=
  let y := bundleOf l b
  let ack := if y.nakOwed then y.rxExpect.toNat else (y.rxExpect - 1).toNat
  let hi := fieldAt ack 12 0 + fieldAt (b2n y.nakOwed) 1 12 + fieldAt (min l.owedReq 15) 4 13 + fieldAt (min l.owedRsp 15) 4 17
  let crc := (crc32c (d2dBytes x ++ leBytes 4 hi)).toNat
  modBundle { l with
    wire := (b, d2dBytes x, BitVec.ofNat 64 (hi * 2 ^ 32 + crc)) :: l.wire
    owedReq := l.owedReq - min l.owedReq 15
    owedRsp := l.owedRsp - min l.owedRsp 15 } b (fun y => { y with nakOwed := false, ackOwed := false })

/-- A flit of no network: TYPE 0 IDLE or 3 TRAIN. -/
def plainFlit (typ : BitVec 4) (payload : List Byte) : D2dFlit :=
  { bseq := 0, typ := typ, eseq := 0, units := 0, payload := payload, sends := 1 }

/-- A flit sent over a bundle, which keeps it in its replay buffer (R272). -/
def putD2d (l : LinkEnd) (b : Nat) (x : D2dFlit) : LinkEnd :=
  let f := { x with bseq := (bundleOf l b).txNext, sends := 1 }
  modBundle (wireD2d l b f) b (fun y => { y with txNext := y.txNext + 1, replay := y.replay ++ [f] })

/-- The waiting packet of a network that sends next: one that has begun, else a COUNT, which no data blocks (R283), else the oldest. -/
def nextWait (l : LinkEnd) (rsp : Bool) : Option (MeshPkt × Nat) :=
  let mine := l.txWait.filter (fun x => x.1.net == rsp)
  (mine.find? (fun x => x.2 != 0)).orElse (fun _ => (mine.find? (fun x => !rsp && x.1.typ == 3)).orElse (fun _ => mine.head?))

/-- The REQ credits that data leaves to COUNTs (R283): one slot in every 16 of the 128. -/
def countSlots : Nat := 8

/-- The credits without which a flit does not leave (R271, R283). A data packet of REQ begins only with credits for all its flits
beyond the slots of COUNTs, so that none of it keeps a COUNT waiting (log entry 79). -/
def needCredits (rsp : Bool) (x : MeshPkt × Nat) : Nat :=
  if rsp || x.1.typ == 3 || x.2 != 0 then 1 else countSlots + ceilDiv (meshBytes x.1).length 240

/-- A bundle takes no new flit: its replay buffer holds 64, or something of it is to be sent again first (R272). -/
def bundleFull (l : LinkEnd) (b : Nat) : Bool := decide (64 ≤ (bundleOf l b).replay.length) || (bundleOf l b).nakFrom.isSome

/-- The next flit of a network that a training kept goes out again on the trained edge (R273). -/
def resendFirst (l : LinkEnd) (x : D2dFlit) : Option LinkEnd :=
  let rsp := x.typ == 2
  let b := bundleFor l x.eseq
  if (if rsp then l.crRsp else l.crReq) = 0 ∨ bundleFull l b then none else
  some (putD2d { l with
    requeue := l.requeue.erase x
    crReq := if rsp then l.crReq else l.crReq - 1
    crRsp := if rsp then l.crRsp - 1 else l.crRsp
    cntReplay := satAdd l.cntReplay 1 } b x)

/-- A flit of a network leaves (R269): of those that a training kept the first, else one of the next waiting packet. -/
def sendFirst (l : LinkEnd) (rsp : Bool) : Option LinkEnd :=
  match l.requeue.find? (fun x => (x.typ == 2) == rsp), nextWait l rsp with
  | some x, _ => resendFirst l x
  | none, none => none
  | none, some x =>
    let e := if rsp then l.txEseqRsp else l.txEseqReq
    let b := bundleFor l e
    if (if rsp then l.crRsp else l.crReq) < needCredits rsp x ∨ bundleFull l b then none else
    let h := ((meshBytes x.1).drop x.2).take 240
    let n := x.2 + h.length
    let f : D2dFlit := { bseq := 0, typ := if rsp then 2 else 1, eseq := e, units := BitVec.ofNat 8 (ceilDiv h.length 16),
                         payload := h, sends := 1 }
    let l1 := { l with
      txWait := if n = (meshBytes x.1).length then l.txWait.erase x else l.txWait.map (fun y => if y = x then (x.1, n) else y)
      crReq := if rsp then l.crReq else l.crReq - 1
      crRsp := if rsp then l.crRsp - 1 else l.crRsp
      txEseqReq := if rsp then l.txEseqReq else e + 1
      txEseqRsp := if rsp then e + 1 else l.txEseqRsp }
    some (putD2d l1 b f)

/-- The waiting packets sent while the end is UP and their network has credits; neither network waits for the other (R271). -/
def pumpFlits : Nat → LinkEnd → LinkEnd
  | 0, l => l
  | f + 1, l =>
    if l.tstate ≠ 5 then l else
    match sendFirst l true with
    | some m => pumpFlits f m
    | none =>
      match sendFirst l false with
      | some m => pumpFlits f m
      | none => l

/-- What waits at an end sent: no packet needs more than two flits. -/
def pumpEnd (l : LinkEnd) : LinkEnd := pumpFlits (l.requeue.length + 2 * l.txWait.length) l

/-- What no other flit has taken goes out in IDLE flits: acknowledgements and NAKs over their bundles, and credits (R270, R271). Of the
flits of the unbroken stream that say nothing new none is kept (log entry 44). -/
def flushEnd (l : LinkEnd) : LinkEnd :=
  if l.tstate ≠ 5 then l else
  let l1 := (activeBundles l).foldl (fun t b =>
    if (bundleOf t b).nakOwed || (bundleOf t b).ackOwed then wireD2d t b (plainFlit 0 []) else t) l
  (List.range (ceilDiv (max l1.owedReq l1.owedRsp) 15)).foldl (fun t _ => wireD2d t (bundleFor t 0) (plainFlit 0 [])) l1

/-- The packets that merge with a COUNT: COUNTs of the same word (R283). -/
def mergeable (p o : MeshPkt) : Bool :=
  !p.net && !o.net && p.typ == 3 && o.typ == 3 && sameWord p.addr.toNat o.addr.toNat

/-- The addend of a COUNT. -/
def countAddend (p : MeshPkt) : Nat := leAt p.data 0 8

/-- A waiting packet that a COUNT meets in the queue and merges with (R283): one that has not begun. A COUNT whose addend R320 does not
admit stays as it is (log entry 79). -/
def meetsCount (p : MeshPkt) (x : MeshPkt × Nat) : Bool :=
  x.2 == 0 && mergeable p x.1 && decide (countAddend p < 2 ^ 48) && decide (countAddend x.1 < 2 ^ 48)

/-- Two COUNTs as one, with the sum of their addends (R283). -/
def mergeCounts (p o : MeshPkt) : MeshPkt := { o with data := leBytes 8 ((countAddend p + countAddend o) % 2 ^ 48), len := 8 }

/-- A mesh packet taken by an end for sending: a COUNT merges with one of its word that waits there. -/
def queueMesh (p : MeshPkt) (l : LinkEnd) : LinkEnd :=
  match l.txWait.find? (meetsCount p) with
  | some x => { l with txWait := l.txWait.map (fun y => if y = x then (mergeCounts p x.1, 0) else y) }
  | none => pumpEnd { l with txWait := l.txWait ++ [(p, 0)] }

/-- A packet that enters a die's mesh is counted (R289). -/
def countMesh (s : State) (k : Option Nat) (p : MeshPkt) : State :=
  match k with
  | some d => modDie s d (fun x => if p.net then { x with meshRsp := satAdd x.meshRsp 1 } else { x with meshReq := satAdd x.meshReq 1 })
  | none => s

/-- A queue of a die's routers holds `n` packets of a network (R289). -/
def noteDepth (s : State) (k : Option Nat) (rsp : Bool) (n : Nat) : State :=
  match k with
  | some d => modDie s d (fun x =>
    if rsp then { x with meshRspMax := BitVec.ofNat 8 (max x.meshRspMax.toNat (min n 255)) }
    else { x with meshReqMax := BitVec.ofNat 8 (max x.meshReqMax.toNat (min n 255)) })
  | none => s

/-- The physical position of a cluster of a die (R24, R386): row and column. -/
def clusterSpot (s : State) (n : Nat) : Nat × Nat :=
  match (die s (n / 1024)).spares.find? (fun e => e.2.1 && e.2.2.2.2 == n % 1024) with
  | some e => (e.1, 32)
  | none => (n % 1024 / 32, n % 32)

/-- The cluster that a packet comes from: its master, or for a reply the cluster that its address names; none for another unit. -/
def sourceCluster (p : MeshPkt) : Option Nat :=
  if p.net then (match place p.addr.toNat with
    | .store n _ => some n
    | _ => none)
  else if p.master.toNat < 0x1000 then some p.master.toNat else none

/-- The bundle whose router takes a packet off its die (R280): that in the row, or column, of its source, or the next active one in
increasing index. For a source on another die or off the grid, and for an IOD edge, the manual gives no number (log entry 61). The
ring edges of a die lie on two sides, of which those with an even number are taken to run along the rows (log entry 79). -/
def exitBundle (s : State) (out : EdgeEnd) (p : MeshPkt) : Nat :=
  let e := out.edge.val
  let first := match (sourceCluster p).filter (fun n => e < 4 && nearDie out == some (n / 1024)) with
    | some n => if e % 2 = 0 then (clusterSpot s n).1 else (clusterSpot s n).2
    | none => Config.edgePort p.master.toNat
  let up := (List.range 32).filter (fun i => (linkEnd s out).mask.getLsbD i)
  (((List.range 32).map (fun i => (first + i) % 32)).find? (fun i => up.contains i)).getD (first % 32)

/-- A packet that leaves a die by an end: a fenced end takes it with the die behind it (R277, R278). The packets that wait with it at
one router are a queue of that router (R289), and a COUNT that another absorbs is counted (R283). -/
def routeMesh (s : State) (out : EdgeEnd) (p : MeshPkt) : State :=
  if (linkEnd s out).tstate = 6 then loseMesh s [p] else
  let merges := (linkEnd s out).txWait.any (meetsCount p)
  let s0 := countMesh s (nearDie out) p
  let s1 := match nearDie out with
    | some d => if merges then modDie s0 d (fun x => { x with meshCombined := satAdd x.meshCombined 1 }) else s0
    | none => s0
  let s2 := modEnd s1 out (queueMesh p)
  noteDepth s2 (nearDie out) p.net
    ((linkEnd s2 out).txWait.countP (fun x => x.1.net == p.net && exitBundle s2 out x.1 == exitBundle s2 out p))

/-- The flits of one network that can be delivered in ESEQ order, from the next one on (R271): each leaves its receive buffer, whose
credit is owed to the partner. -/
def deliverEseq (rsp : Bool) : Nat → LinkEnd → LinkEnd
  | 0, l => l
  | f + 1, l =>
    let t : BitVec 4 := if rsp then 2 else 1
    let next := if rsp then l.rxEseqRsp else l.rxEseqReq
    match l.held.find? (fun x => x.typ == t && x.eseq == next) with
    | none => l
    | some x =>
      let l1 := { l with held := l.held.filter (fun y => !(y.typ == t && y.eseq == next)) }
      deliverEseq rsp f (if rsp then { l1 with rxEseqRsp := next + 1, owedRsp := l1.owedRsp + 1
                                               streamRsp := l1.streamRsp ++ x.bytes }
        else { l1 with rxEseqReq := next + 1, owedReq := l1.owedReq + 1, streamReq := l1.streamReq ++ x.bytes })

/-- The receive buffer of a flit's network is full (R271): its partner spends no credit that it does not have, so such a flit is none
of its own, and is not accepted (log entry 79). -/
def noRoom (l : LinkEnd) (x : D2dFlit) : Bool := decide (128 ≤ netCount (x.typ == 2) l.held)

/-- A flit accepted in its bundle's order (R271 to R273): one that its ESEQ shows as delivered already is discarded, and its buffer
is free. -/
def acceptD2d (l : LinkEnd) (x : D2dFlit) : LinkEnd :=
  let rsp := x.typ == 2
  let next := if rsp then l.rxEseqRsp else l.rxEseqReq
  if (x.eseq - next).toNat < 32768 ∧ !l.held.any (fun y => y.typ == x.typ && y.eseq == x.eseq) then
    deliverEseq rsp (l.held.length + 1) { l with held := l.held ++ [x] }
  else if rsp then { l with owedRsp := l.owedRsp + 1 } else { l with owedReq := l.owedReq + 1 }

/-- The die that sends to an end: the die or I/O die at the other end. -/
def farDie (e : EdgeEnd) : Option (Fin 4) :=
  let k := e.edge.val
  if k < 4 then some (Fin.ofNat 4 (if e.upper then k else k + 1))
  else if e.upper then some (Fin.ofNat 4 (k - 4)) else none

/-- The sideband of a good flit (R270): credits, and the acknowledgement of sent flits; what waited for them is sent. -/
def takeSideband (l : LinkEnd) (b : Nat) (side : W64) : LinkEnd :=
  let v := side.toNat
  let ack : BitVec 12 := BitVec.ofNat 12 (bits v 43 32)
  let l1 := { l with crReq := l.crReq + bits v 48 45, crRsp := l.crRsp + bits v 52 49 }
  let l2 := modBundle l1 b (fun x =>
    if bit v 44 then { x with nakFrom := some ack, replay := x.replay.filter (fun f => (f.bseq - ack).toNat < 2048) }
    else { x with replay := x.replay.filter (fun f => (f.bseq - ack).toNat < 2048 && f.bseq != ack) })
  pumpEnd l2

/-- A good flit at an end that is UP (R272): only REQ and RSP flits are sequenced (log entry 6). -/
def takeD2d (l : LinkEnd) (b : Nat) (x : D2dFlit) : LinkEnd :=
  if (x.typ ≠ 1 ∧ x.typ ≠ 2) ∨ noRoom l x then l
  else if x.bseq = (bundleOf l b).rxExpect then
    acceptD2d (modBundle { l with cntFlits := satAdd l.cntFlits 1 } b (fun y =>
      { y with rxExpect := y.rxExpect + 1, nakOut := false, ackOwed := true })) x
  else modBundle l b (fun y => { y with nakOwed := y.nakOwed || !y.nakOut, nakOut := true })

/-- The clock of an end's die link runs (R414, R418: it runs on in Hold), and the end listens. -/
def endLive (s : State) (e : EdgeEnd) : Bool :=
  modePhase s != 3 && iodOn s && (edgeDies e.edge.val).all (fun k => (die s k).on) &&
    (linkEnd s e).tstate != 0 && (linkEnd s e).tstate != 6

/-- The flits of a bundle from a named one on sent again, in order (R272). -/
def resendBundle (l : LinkEnd) (b : Nat) (q : BitVec 12) : LinkEnd :=
  let again := fun (f : D2dFlit) => decide ((f.bseq - q).toNat < 2048)
  let fs := (bundleOf l b).replay.filter again
  modBundle { fs.foldl (fun t f => wireD2d t b f) l with cntReplay := satAdd l.cntReplay fs.length } b (fun y =>
    { y with nakFrom := none
             replay := y.replay.map (fun f => if again f then { f with sends := f.sends + 1 } else f) })

/-- D2D_NAK_RESEND (R272): the flits from the named one on are sent again, in order, ahead of new ones. -/
def execD2dNakResend (e : EdgeEnd) (b : Nat) (s : State) : Host.Outcome State Fault Refusal :=
  .next (
    let l := linkEnd s e
    match (bundleOf l b).nakFrom with
    | none => s
    | some q =>
      if !endLive s e ∨ l.tstate ≠ 5 then s else
      modEnd s e (fun l => pumpEnd (resendBundle l b q)))

/-! ### Training (R273 to R277) -/

/-- The training of an edge has failed three attempts (R275): it stays DOWN, and its die is fenced. -/
def failTraining (s : State) (e : Nat) : State :=
  let s1 := modEdge s e (fun l => { l with tstate := 0 })
  modeSettle (endEdgeOps (fenceDie s1 (edgeVictim e)) e .dieLost)

/-- A failed attempt (R275): the next one begins, or the training has failed. -/
def failAttempt (s : State) (e : EdgeEnd) : State :=
  if 3 ≤ (linkEnd s e).attempt.toNat then failTraining s e.edge.val else
  modEnd s e (fun l => { l with
    tstate := 1, attempt := l.attempt + 1, passed := 0, allowed := fullMask e.edge.val &&& ~~~l.exclude, second := false
    cntTrain := satAdd l.cntTrain 1 })

/-- The held flits go out again over the bundles of the trained edge, in ESEQ order (R273), and then what waited. -/
def resendHeld (partner l : LinkEnd) : LinkEnd := pumpEnd (startCredits l partner)

/-- An end enters UP on the bundles of its last MASK round, whose partner's mask D2D_PEER_MASK then shows (R275, R289); the edge is UP
once both ends are (R274, R276), and what waited for it goes on. -/
def endUp (s : State) (e : EdgeEnd) : State :=
  let s1 := modEnd s e (fun l => resendHeld (linkEnd s (otherEnd e)) { l with tstate := 5, mask := l.allowed, peerMask := l.peerIn })
  if (linkEnd s1 (otherEnd e)).tstate = 5 then
    let s2 := endEdgeOps (refreshEdgeDies (edgeEvent s1 e.edge.val true) e.edge.val) e.edge.val .done
    modeSettle (resumeSyn (releaseHeld s2))
  else s1

/-- The MASK round (R275): the partner's ATTEMPT and MASK. -/
def maskRound (s : State) (e : EdgeEnd) (attempt : Byte) (m : W32) : State :=
  let l := linkEnd s e
  if attempt.toNat < l.attempt.toNat ∨ 3 < attempt.toNat then s else
  let s1 := modEnd s e (fun l => { l with attempt := attempt })
  let own := l.passed &&& ~~~l.exclude
  let both := own &&& m
  if popCount 32 both.toNat < 4 ∨ (l.second ∧ both ≠ l.allowed) then failAttempt s1 e
  else if both = own ∧ both = m then
    modEnd s1 e (fun l => { l with tstate := 4, allowed := both, peerIn := m })
  else if l.second then failAttempt s1 e
  else modEnd s1 e (fun l => { l with tstate := 2, allowed := both, passed := 0, second := true })

/-- The TRAIN flits of the MASK state (R274): ATTEMPT, the mask and the edge's name code, over every bundle that passed. -/
def sendTrain (e : EdgeEnd) (l : LinkEnd) : LinkEnd :=
  let own := l.passed &&& ~~~l.exclude
  let f := plainFlit 3 (wordsBytes [l.attempt.toNat, own.toNat, e.edge.val])
  ((List.range 32).filter (fun b => l.passed.getLsbD b)).foldl (fun t b => wireD2d t b f) l

/-- D2D_TRAIN_STAGE_END (R274, R275). -/
def execD2dTrainStageEnd (e : EdgeEnd) (r : EdgeStage) (s : State) : Host.Outcome State Fault Refusal :=
  .next (
    if !endLive s e then s else
    let l := linkEnd s e
    match l.tstate.toNat, r with
    | 1, .passed _ => modEnd s e (fun l => { l with tstate := 2 })
    | 2, .passed m => modEnd s e (fun l => sendTrain e { l with tstate := 3, passed := m &&& l.allowed })
    | 3, .masks a m => maskRound s e a m
    | 4, .passed _ => endUp s e
    | 5, _ => s
    | _, .failed => failAttempt s e
    | _, _ => s)

/-- An end leaves UP for a training. -/
def leaveUp (s : State) (e : EdgeEnd) (cause : Nat) : State :=
  let was := decide (edgeState s e.edge.val = 1 ∨ edgeState s e.edge.val = 2)
  let s1 := modEnd s e (trainEnd e.edge.val cause)
  if was then edgeEvent s1 e.edge.val false else s1

/-- D2D_BUNDLE_EXCLUDE (R273): a flit of the bundle has been sent 16 times without acknowledgement. -/
def execD2dBundleExclude (e : EdgeEnd) (b : Nat) (s : State) : Host.Outcome State Fault Refusal :=
  .next (
    let l := linkEnd s e
    if endLive s e ∧ l.tstate = 5 ∧ (bundleOf l b).replay.any (fun f => decide (16 ≤ f.sends)) then
      leaveUp (modEnd s e (fun l => { l with exclude := l.exclude ||| (1 <<< b) })) e 2
    else s)

/-- D2D_TRAIN_FLIT_WHILE_UP (R276). -/
def execD2dTrainFlitWhileUp (e : EdgeEnd) (s : State) : Host.Outcome State Fault Refusal :=
  .next (if endLive s e ∧ (linkEnd s e).tstate = 5 then leaveUp s e 4 else s)

/-- Both dies of a ring edge have their IOD edges UP. -/
def iodEdgesUp (s : State) (e : Nat) : Bool := (edgeDies e).all (fun k => edgeState s (4 + k) == 1 || edgeState s (4 + k) == 2)

/-- D2D_WATCHDOG_EXPIRY (R277): the end enters FENCED; its die is fenced, or a ring edge retrains. -/
def execD2dWatchdogExpiry (e : EdgeEnd) (s : State) : Host.Outcome State Fault Refusal :=
  .next (
    if !endLive s e then s else
    let k := e.edge.val
    let was := decide (edgeState s k = 1 ∨ edgeState s k = 2)
    let s1 := modEnd s e fenceEnd
    let s2 := if was then edgeEvent s1 k false else s1
    if 4 ≤ k then fenceDie s2 (k - 4)
    else if iodEdgesUp s k then modEnd s2 e (trainEnd k 3)
    else s2)

/-! ### Commands on an edge (R276, R456) -/

/-- An edge of a fenced die. -/
def edgeLost (s : State) (e : Nat) : Bool := (edgeDies e).any (dieFenced s)

/-- LINK_RETRAIN of a die-link edge (R276, R363). -/
def doLinkRetrainEdge (h : CmdHdr) (i : Byte) (s : State) : State :=
  if 7 < i.toNat then answer s h 0x0A03 .badParam
  else if edgeLost s i.toNat then answer s h 0x0A03 .dieLost
  else startLongReply (startEdge s i.toNat 5) h 0x0A03 (.edge (Fin.ofNat 8 i.toNat) none)

/-- LINK_RETRAIN of a die-link edge (R276). -/
def execLinkRetrainEdge (h : CmdHdr) (index : Byte) (s : State) : Host.Outcome State Fault Refusal :=
  .next (cmdStart (.linkRetrainEdge h index) h 0x0A03 (doLinkRetrainEdge h index) s)

/-- The BUSY rule of every TEST_RUN (R363). -/
def testBusy (s : State) : Bool := s.memblk.stepOn || anyRuns s

/-- An edge carries PRBS31 and no traffic: both its ends leave UP, which is reported (R351), and keep what they hold. For D2D_TSTATE
meanwhile the manual gives no code, and the model takes DOWN (log entry 79). -/
def startPrbs (s : State) (e : Nat) : State :=
  let was := decide (edgeState s e = 1 ∨ edgeState s e = 2)
  let s1 := modEdge s e (fun l => { l with tstate := 0 })
  if was then edgeEvent s1 e false else s1

/-- TEST_RUN EDGE_PRBS (R456): PRBS31 for 1 ms, then the edge trains. -/
def doTestEdgePrbs (h : CmdHdr) (t : W16) (s : State) : State :=
  if 7 < t.toNat then answer s h 0x0A02 .badParam
  else if edgeLost s t.toNat then answer s h 0x0A02 .dieLost
  else if testBusy s then answer s h 0x0A02 .busy
  else startLongReply (startPrbs s t.toNat) h 0x0A02 (.edge (Fin.ofNat 8 t.toNat) (some s.inv.clk))

/-- TEST_RUN EDGE_PRBS (R456). -/
def execTestEdgePrbs (h : CmdHdr) (target : W16) (s : State) : Host.Outcome State Fault Refusal :=
  .next (cmdStart (.testEdgePrbs h target) h 0x0A02 (doTestEdgePrbs h target) s)

/-- The PRBS31 of an EDGE_PRBS ends after 1 ms: the edge trains, unless a training has begun meanwhile (R456). The manual gives the
training no cause of its own; it takes that of LINK_RETRAIN (log entry 79). -/
def sliceEdge (s : State) (o : LongOp) : State :=
  match o.kind with
  | .edge e (some t) =>
    if clk s < t.toNat + 1000000 ∨ (edge s e.val).1.tstate ≠ 0 ∨ (edge s e.val).2.tstate ≠ 0 then s
    else startEdge s e.val 5
  | _ => s

/-! ### The mesh (R281 to R283) -/

/-- Where a reply goes in its die (R281): the position of its master's cluster, or the edge router port of another unit, whose
number the manual does not give (log entry 61). Column, then row. -/
def replySpot (s : State) (mid : Nat) : Nat × Nat :=
  if mid < 0x1000 then ((clusterSpot s mid).2, (clusterSpot s mid).1)
  else (64 + Config.edgePort mid % 64, Config.edgePort mid / 64 % 32)

/-- A reply packet of the RSP network, from a die or the I/O die to the unit of its master: there, or over the edges of its path
(R22). For a master on the I/O die DDIE keeps the die that answers. -/
def meshReply (s : State) (k : Option Nat) (p : MeshPkt) (typ : Nat) (data : List Byte) : State :=
  let m := masterDie p.master.toNat
  let to_ := replySpot s p.master.toNat
  let r : MeshPkt := { p with
    net := true, typ := BitVec.ofNat 5 typ, len := BitVec.ofNat 12 data.length, data := data, mcend := 0xFF
    dx := BitVec.ofNat 8 to_.1, dy := BitVec.ofNat 8 to_.2, ddie := BitVec.ofNat 2 (m.getD (k.getD 0)) }
  match edgeToward k m with
  | some out => routeMesh s out r
  | none => deliverReply (countMesh s k r) m r

/-- A read or write of a mesh packet, its target having decided (R30, R257): a refusal is counted and answered by nothing that
R281 lays out. -/
def meshAccess (s : State) (p : MeshPkt) (n : Nat) (need : Perm) (act : State → State) : State :=
  match firstBad [spaceStatus s p.master.toNat p.addr.toNat n need, cmdAccess s p.master.toNat p.addr.toNat n need] with
  | .done => act s
  | st => noteAccess s st

/-- The logical cluster at a physical position of a die (R24, R386). -/
def clusterAt (s : State) (k row col : Nat) : Option Nat :=
  let d := die s k
  if col = 32 then
    (match look d.spares row with
     | some (true, _, _, n) => some (1024 * k + n)
     | _ => none)
  else if d.spares.any (fun e => e.2.1 && e.2.2.2.2 == 32 * row + col) then none
  else some (1024 * k + 32 * row + col)

/-- The positions of a line from one index to another, in order. -/
def lineFrom (a b : Nat) : List Nat :=
  if a ≤ b then (List.range (b - a + 1)).map (a + ·) else (List.range (a - b + 1)).map (a - ·)

/-- A packet is a multicast write within a die (R281, R282): REQ, MC_WRITE, that die, and bytes of one cluster's 4 MiB. -/
def mcForm (k : Nat) (p : MeshPkt) : Bool :=
  !p.net && p.typ == 6 && p.ddie.toNat == k &&
  (match place p.addr.toNat with
   | .store _ o => decide (o + p.data.length ≤ 0x400000)
   | _ => false)

/-- The routers that an MC_WRITE visits (R282); none for any other shape. -/
def mcLine (k row col : Nat) (p : MeshPkt) : Option (List (Nat × Nat)) :=
  let stop := p.mcend.toNat
  if 31 < row ∨ 32 < col ∨ mcForm k p = false then none
  else if p.dy.toNat = row ∧ stop ≤ 32 then some ((lineFrom col stop).map (fun c => (row, c)))
  else if p.dx.toNat = col ∧ stop ≤ 31 then some ((lineFrom row stop).map (fun r => (r, col)))
  else none

/-- One copy of a multicast write at a cluster (R282). -/
def mcCopy (s : State) (p : MeshPkt) (n : Nat) : State :=
  let a := storeAddr n ((p.addr.toNat - storeBase) % storeStride)
  meshAccess s { p with addr := BitVec.ofNat 48 a } p.data.length .w (fun t => wrBytes t a p.data)

/-- A multicast from a router of a die (R282): copies along one row or one column, or a discard for which its source receives
BAD_PARAM. -/
def mcWrite (s : State) (k row col : Nat) (p : MeshPkt) : State :=
  match mcLine k row col p with
  | none => { modDie s k (fun d => { d with meshBad := satAdd d.meshBad 1 }) with lastStatus := .badParam }
  | some ps => (ps.filterMap (fun q => clusterAt s k q.1 q.2)).foldl (fun t n => mcCopy t p n) { s with lastStatus := .done }

/-- A multicast that a router of a die meets: it starts at the router of its master, a cluster of that die; none crosses a die link
(R282). -/
def mcArrive (s : State) (k : Nat) (p : MeshPkt) : State :=
  if masterDie p.master.toNat = some k ∧ p.master.toNat < 0x1000 then
    mcWrite s k (clusterSpot s p.master.toNat).1 (clusterSpot s p.master.toNat).2 p
  else { modDie s k (fun d => { d with meshBad := satAdd d.meshBad 1 }) with lastStatus := .badParam }

/-- What merged COUNTs add to their word (R283): the sum of their addends, which no order of merging changes; an addend that R320 does
not admit adds nothing. -/
def countSum (ps : List MeshPkt) : Nat :=
  let ns := (ps.map countAddend).filter (fun n => decide (n < 2 ^ 48))
  if ns.isEmpty then 2 ^ 48 else ns.sum % 2 ^ 48

/-- A request served at its destination, a die or the I/O die (R281, R283). -/
def meshServe (s : State) (k : Option Nat) (p : MeshPkt) (others : List MeshPkt) : State :=
  let a := p.addr.toNat
  let m := p.master.toNat
  match p.typ.toNat with
  | 0 => meshAccess s p p.len.toNat .r (fun t =>
      if poisoned t a p.len.toNat then t else (let r := spaceRead t m a p.len.toNat; meshReply r.1 k p 4 r.2))
  | 1 => meshAccess s p p.data.length .w (fun t =>
      let r := spaceWrite t a p.data
      if r.2 = .done then meshReply r.1 k p 5 [] else r.1)
  | 2 => let r := syncRequest s m a p.data; meshReply r.1 k p 5 (leBytes 8 r.2.2)
  | 3 => (localAdd s m a (countSum (p :: others))).1
  | 6 =>
    (match k with
     | some d => mcArrive s d p
     | none => s)
  | _ => s

/-- MESH_PACKET_DELIVER (R281, R283): a packet, and the COUNTs merged with it, reach the destination router. A request to a unit that Hold has
stopped stays (R461), and so does a read that the hold keeps waiting (R257). A reply goes to the die's units; the TYPE of the other network has no effect there (R279). -/
def execMeshPacketDeliver (k : Fin 4) (p : MeshPkt) (others : List MeshPkt) (s : State) : Host.Outcome State Fault Refusal :=
  .next (
    let d := die s k.val
    let os := others.filter (mergeable p)
    let here := if p.net || p.typ == 6 then p.ddie.toNat == k.val else (place p.addr.toNat).die == some k.val
    if !d.on || dieFenced s k.val || !here || (!p.net && placeStopped s (place p.addr.toNat)) ||
        (!p.net && p.typ == 0 && observerStatus s p.addr.toNat p.len.toNat == .busy) then s
    else
      let s1 := { s with waitingReqs := s.waitingReqs.filter (fun r => !(r.pkt == p || os.contains r.pkt)) }
      let s2 := modDie s1 k.val (fun d => if p.net then { d with meshRsp := satAdd d.meshRsp 1 }
        else { d with meshReq := satAdd d.meshReq (1 + os.length), meshCombined := satAdd d.meshCombined os.length })
      if !p.net then meshServe s2 (some k.val) p os
      else if p.typ = 4 ∨ p.typ = 5 then deliverReply s2 (some k.val) p
      else s2)

/-- MESH_MC_WRITE (R282): copies along one row or one column, or a discard for which its source receives BAD_PARAM. -/
def execMeshMcWrite (k : Fin 4) (srcRow srcCol : Nat) (p : MeshPkt) (s : State) : Host.Outcome State Fault Refusal :=
  .next (
    if !(die s k.val).on || dieFenced s k.val || !clocksOn s then s else
    mcWrite (modDie s k.val (fun d => { d with meshReq := satAdd d.meshReq 1 })) k.val srcRow srcCol p)

/-! ### Arrival over an edge (R270 to R272, R280) -/

/-- A packet completed at an end enters the mesh there (R22, R280): it crosses to the next edge on its path, waits for the router of
its destination, or has reached the I/O die, which serves it. No path goes back over the edge it came by, and none from one compute die
to another crosses the I/O die, which forwards no such packet. A request that comes over the first edge of its path is in flight from
then on (R278). -/
def meshArrive (e : EdgeEnd) (s : State) (p : MeshPkt) : State :=
  let k := nearDie e
  let t := if (farDie e).map (·.val) = masterDie p.master.toNat then openReq s p else s
  let wait :=
    let u : State := { t with waitingReqs := t.waitingReqs ++ [⟨farDie e, p⟩] }
    noteDepth u k p.net (u.waitingReqs.countP (fun r => r.pkt.net == p.net && meshTarget r.pkt == k && r.pkt.dx == p.dx && r.pkt.dy == p.dy))
  match edgeToward k (meshTarget p), k with
  | some out, some _ => if out = e then wait else routeMesh t out p
  | some _, none => s
  | none, some _ => wait
  | none, none => if p.net then deliverReply t none p else meshServe t none p []

/-- The packets completed at an end (R271). -/
def meshEnter (s : State) (e : EdgeEnd) : State :=
  let l := linkEnd s e
  let q := takeMesh (l.streamReq.length / 16 + 1) l.streamReq
  let r := takeMesh (l.streamRsp.length / 16 + 1) l.streamRsp
  (q.1 ++ r.1).foldl (meshArrive e) (modEnd s e (fun l => { l with streamReq := q.2, streamRsp := r.2 }))

/-- The MASK round with a TRAIN flit of the partner (R274, R275). -/
def takeTrain (s : State) (e : EdgeEnd) (x : D2dFlit) : State :=
  maskRound s e (BitVec.ofNat 8 (leAt x.payload 0 4)) (BitVec.ofNat 32 (leAt x.payload 4 4))

/-- A flit that fails its CRC is discarded whole, and asked for again (R270, R272). -/
def badD2d (b : Nat) (l : LinkEnd) : LinkEnd :=
  flushEnd (modBundle { l with cntCrc := satAdd l.cntCrc 1 } b (fun y => { y with nakOut := true, nakOwed := true }))

/-- D2D_FLIT_RECEIVE (R270, R272): a flit on an active bundle of an end in UP; in the MASK state a TRAIN flit on a bundle that
passed. A TRAIN flit in UP starts a training (R276). -/
def execD2dFlitReceive (e : EdgeEnd) (b : Nat) (data : List Byte) (side : W64) (s : State) : Host.Outcome State Fault Refusal :=
  .next (
    let l := linkEnd s e
    let x := parseD2d data
    if !endLive s e then s
    else if l.tstate = 3 ∧ l.passed.getLsbD b then
      (if !d2dCrcOk data side then modEnd s e (fun l => { l with cntCrc := satAdd l.cntCrc 1 })
       else if x.typ = 3 then takeTrain s e x else s)
    else if l.tstate ≠ 5 ∨ !l.mask.getLsbD b then s
    else if !d2dCrcOk data side then modEnd s e (badD2d b)
    else if x.typ = 3 then leaveUp s e 4
    else meshEnter (modEnd s e (fun l => flushEnd (takeD2d (takeSideband l b side) b x))) e)

end Sys2Proof.Machine
end

