-- ==== Sys2Proof/Machine/Mover.lean ====
section
/-! DEFINITION. The DMA mover (R130, R131): descriptors, runs, completion units, and its errors (R117, R142, R250). -/

namespace Sys2Proof.Machine

/-! ### Runs and units (R130, R131) -/

/-- Runs of a descriptor. -/
def DmaDesc.runs (d : DmaDesc) : Nat := d.cnt1.toNat * d.cnt2.toNat

/-- Address of a run: base, strides and the run's number g × CNT1 + i. -/
def strideAt (b : W64) (s1 s2 : W32) (c1 r : Nat) : Nat :=
  wrap 64 ((b.toNat : Int) + (r / c1 : Nat) * sext 32 s2.toNat + (r % c1 : Nat) * sext 32 s1.toNat)

/-- Source and destination of a run. -/
def DmaDesc.srcAt (d : DmaDesc) (r : Nat) : Nat := strideAt d.src d.sstr1 d.sstr2 d.cnt1.toNat r
def DmaDesc.dstAt (d : DmaDesc) (r : Nat) : Nat := strideAt d.dst d.dstr1 d.dstr2 d.cnt1.toNat r

/-- Completion units of a descriptor (R130). -/
def DmaDesc.units (d : DmaDesc) : Nat :=
  match d.cgran.toNat with
  | 1 => d.runs
  | 2 => d.cnt2.toNat
  | _ => 1

/-- The unit of a run. -/
def DmaDesc.unitOf (d : DmaDesc) (r : Nat) : Nat :=
  match d.cgran.toNat with
  | 1 => r
  | 2 => r / d.cnt1.toNat
  | _ => 0

/-- The first run of a unit. -/
def DmaDesc.firstRun (d : DmaDesc) (u : Nat) : Nat :=
  match d.cgran.toNat with
  | 1 => u
  | 2 => u * d.cnt1.toNat
  | _ => if u = 0 then 0 else d.runs

/-- Where an address of a descriptor lies: local by its LOC bit or R32, or another package. -/
def dmaPlace (s : State) (loc : Bool) (a : Nat) : SynTarget :=
  if loc then .here a else
  match localOf s (BitVec.ofNat 64 a) with
  | some x => .here x
  | none => .away (a / 2 ^ 48) (a % 2 ^ 48)

/-! ### Decisions on a run (R30, R250, R257) -/

/-- The decision on the source of a run. BUSY: the run waits, for the hold (R257) or for an edge that trains (R276). -/
def runSource (s : State) (cl : Nat) (d : DmaDesc) (r : Nat) : Status :=
  match dmaPlace s d.sloc (d.srcAt r) with
  | .here a =>
    (match spaceStatus s cl a d.len0.toNat .r with
     | .done =>
       if trainHolds s cl a d.len0.toNat then .busy else
       (match observerStatus s a d.len0.toNat with
        | .done => if poisoned s a d.len0.toNat then .degraded else .done
        | st => st)
     | st => st)
  | .away _ a => if 2 ^ 48 < a + d.len0.toNat then .badParam else .done

/-- The decision on the destination of a run; a write that leaves a poisoned line poisoned is DEGRADED (R249). -/
def runDest (s : State) (cl : Nat) (d : DmaDesc) (r : Nat) : Status :=
  match dmaPlace s d.dloc (d.dstAt r) with
  | .here a =>
    (match spaceStatus s cl a d.len0.toNat .w with
     | .done => if trainHolds s cl a d.len0.toNat then .busy else if partialPoison s a d.len0.toNat then .degraded else .done
     | st => st)
  | .away _ a => if 2 ^ 48 < a + d.len0.toNat then .badParam else .done

/-- The decision on a run. -/
def runStatus (s : State) (cl : Nat) (d : DmaDesc) (r : Nat) : Status := firstBad [runSource s cl d r, runDest s cl d r]

/-- Two ranges of one address space meet. -/
def placesMeet (p q : SynTarget) (n : Nat) : Bool :=
  match p, q with
  | .here a, .here b =>
    (pagePieces a n).any (fun x => (pagePieces b n).any (fun y => spansMeet (keyOf x.1) x.2 (keyOf y.1) y.2))
  | .away k a, .away j b => k == j && spansMeet a n b n
  | _, _ => false

/-- Where byte `i` from a place lies. -/
def SynTarget.plus (p : SynTarget) (i : Nat) : SynTarget :=
  match p with
  | .here a => .here (a + i)
  | .away k a => .away k (a + i)

/-- A place covers one byte of another. -/
def coversByte (p : SynTarget) (n : Nat) (q : SynTarget) : Bool :=
  match p, q with
  | .here a, .here b => (pagePieces a n).any (fun x => spansMeet (keyOf x.1) x.2 (keyOf b) 1)
  | .away k a, .away j b => k == j && spansMeet a n b 1
  | _, _ => false

/-- The runs whose destination meets the source of a run, its own among them, or the destination of another (R131). -/
def runsMeeting (s : State) (d : DmaDesc) (r : Nat) : List Nat :=
  let n := d.len0.toNat
  let dst := fun j => dmaPlace s d.dloc (d.dstAt j)
  (List.range d.runs).filter (fun j =>
    placesMeet (dst j) (dmaPlace s d.sloc (d.srcAt r)) n || (j != r && placesMeet (dst j) (dst r) n))

/-- What byte `i` of a run leaves at its destination hangs on the order in which runs and bytes move (R131): another run, or this one,
writes the byte of its source, or another run writes that of its destination. `js` are the runs that meet the run. -/
def byteOpen (s : State) (d : DmaDesc) (r : Nat) (js : List Nat) (i : Nat) : Bool :=
  js.any (fun j =>
    let dst := dmaPlace s d.dloc (d.dstAt j)
    coversByte dst d.len0.toNat ((dmaPlace s d.sloc (d.srcAt r)).plus i) ||
    (j != r && coversByte dst d.len0.toNat ((dmaPlace s d.dloc (d.dstAt r)).plus i)))

/-! ### Moving -/

/-- A descriptor in the mover changed. -/
def modJob (s : State) (cl id : Nat) (f : DmaJob → DmaJob) : State :=
  modCluster s cl (fun k => { k with mover := k.mover.map (fun j => if j.id = id then f j else j) })

/-- A descriptor in the mover. -/
def jobOf (s : State) (cl id : Nat) : Option DmaJob := (cluster s cl).mover.find? (fun j => j.id == id)

/-- An error of a unit: a descriptor keeps that of its lowest failing unit (R131). -/
def lowerBad (st : Status) (u : Nat) (j : DmaJob) : DmaJob :=
  { j with bad := match j.bad with
      | some (e, k) => if k ≤ u then some (e, k) else some (st, u)
      | none => some (st, u) }

/-- Bytes put at a destination of a descriptor; a register that refuses them is the descriptor's error (R464). -/
def putBytes (s : State) (cl : Nat) (j : DmaJob) (u a : Nat) (loc : Bool) (bs : List Byte) : State :=
  match dmaPlace s loc a with
  | .here x =>
    let r := ownWrite s cl x bs
    if r.2 = .done then r.1 else modJob r.1 cl j.id (lowerBad r.2 u)
  | .away k x => writeThere s (BitVec.ofNat 16 k) x bs (.movWrite cl j.id u)

/-- One run moved: here at once, else by requests. A byte that hangs on the order of runs and bytes is a free value (R131; log
entry 3). -/
def moveRun (s : State) (cl : Nat) (j : DmaJob) (r : Nat) : State :=
  let n := j.d.len0.toNat
  let u := j.d.unitOf r
  match dmaPlace s j.d.sloc (j.d.srcAt r) with
  | .here a =>
    let js := if meetsCtrl a n then [] else runsMeeting s j.d r
    let q := ownRead s cl a n
    let bs := if js.isEmpty then q.2 else
      q.2.zipIdx.map (fun b => if byteOpen s j.d r js b.2 then Config.freeByte q.1.fresh b.2 else b.1)
    putBytes (if js.isEmpty then q.1 else useFresh q.1 1) cl j u (j.d.dstAt r) j.d.dloc bs
  | .away k a =>
    readThere s (BitVec.ofNat 16 k) a n (fun o => .movRead cl j.id u (BitVec.ofNat 64 (j.d.dstAt r + o)) j.d.dloc)

/-- The pieces of a range of local addresses within source lines: offset, length, and whether the line is poisoned. -/
def linePieces (s : State) (a n : Nat) : List (Nat × Nat × Bool) :=
  (List.range ((a + n - 1) / 64 - a / 64 + 1)).map (fun i =>
    let lo := max a (64 * (a / 64 + i))
    let stop := min (a + n) (64 * (a / 64 + i + 1))
    (lo - a, stop - lo, poisoned s lo (stop - lo)))

/-- What the bytes of a poisoned line leave at their destination (R249, R250): poisoned lines in stack memory, else free bytes. -/
def putBad (s : State) (cl : Nat) (j : DmaJob) (u a n : Nat) : State :=
  let bs := (List.range n).map (fun i => Config.freeByte s.fresh i)
  match dmaPlace s j.d.dloc a with
  | .here x => if (place x).isStack then spoilRange s x n else useFresh (wrBytes s x bs) 1
  | .away k x => useFresh (writeThere s (BitVec.ofNat 16 k) x bs (.movWrite cl j.id u)) 1

/-- A run that reads poison (R249, R250): the bytes of its clean lines may have moved (log entry 3), those of its poisoned lines
leave what `putBad` says. -/
def moveBad (s : State) (cl : Nat) (j : DmaJob) (r : Nat) : State :=
  let u := j.d.unitOf r
  let dst := j.d.dstAt r
  match dmaPlace s j.d.sloc (j.d.srcAt r) with
  | .here a =>
    let ps := linePieces s a j.d.len0.toNat
    let s1 := (ps.filter (fun p => !p.2.2)).foldl (fun t p =>
      let q := ownRead t cl (a + p.1) p.2.1
      if Config.freeBool q.1.fresh then putBytes (useFresh q.1 1) cl j u (dst + p.1) j.d.dloc q.2 else useFresh q.1 1) s
    (ps.filter (fun p => p.2.2)).foldl (fun t p => putBad t cl j u (dst + p.1) p.2.1) s1
  | .away _ _ => s

/-- The ADD of one completion unit made at once (R131), or sent as a fabric COUNT whose answer the unit awaits. -/
def unitAdd (s : State) (cl : Nat) (d : DmaDesc) (what : TxnFor) : State × Option Status :=
  match if d.cloc then some d.caddr.toNat else localOf s d.caddr with
  | some a => let q := ownAdd s cl a d.cval.toNat; (q.1, some q.2)
  | none => globalAdd s cl d.caddr d.cval.toNat what

/-- An error met while a descriptor moves (R117, R131): an unforced number of completion units below the first that fails or waits
(R257) make their ADD, each once every byte of it is written (R306), and of the other runs any may have moved (log entry 3). A byte that two
of them write, or one writes and another reads, is a free value as in a descriptor without error. -/
def moveFailed (s : State) (cl : Nat) (j : DmaJob) (bad : List (Nat × Status)) : State :=
  let stuck := ((List.range (j.d.runs - j.next)).map (j.next + ·)).filter (fun r => runStatus s cl j.d r != .done)
  let unit := (stuck.map j.d.unitOf).foldl min j.d.units
  let k := if j.d.caddr = 0 then 0 else j.units + Config.freeNat s.fresh % (unit - j.units + 1)
  let why := (bad.getD (Config.freeNat (s.fresh + 1) % max bad.length 1) (0, .badParam)).2
  let f := s.fresh + 2
  let rest := (List.range (j.d.runs - j.next)).map (j.next + ·)
  let s1 := useFresh s (2 + j.d.runs)
  let s2 := rest.foldl (fun t r =>
    match runStatus s cl j.d r with
    | .done => if j.d.unitOf r < k || Config.freeBool (f + r) then moveRun t cl j r else t
    | .degraded => if runDest s cl j.d r == .done then moveBad t cl j r else t
    | _ => t) s1
  modJob (noteAccess s2 why) cl j.id (fun q => lowerBad why k { q with next := q.d.runs })

/-- The runs of a descriptor moved in order, up to one that must wait (R257). -/
def moveFrom (s : State) (cl id : Nat) : Nat → State
  | 0 => s
  | f + 1 =>
    match jobOf s cl id with
    | none => s
    | some j =>
      if j.d.runs ≤ j.next then s
      else if runStatus s cl j.d j.next ≠ .done then s
      else moveFrom (modJob (moveRun s cl j j.next) cl id (fun q => { q with next := q.next + 1 })) cl id f

/-- Transactions of a descriptor that await their answer, in units up to `u`. -/
def jobWaits (s : State) (cl id u : Nat) : Bool :=
  let mine := fun (w : TxnFor) => match w with
    | .movWrite c i v => c == cl && i == id && decide (v ≤ u)
    | .movRead c i v _ _ => c == cl && i == id && decide (v ≤ u)
    | .movAdd c i => c == cl && i == id
    | _ => false
  s.fab.txns.any (fun t => mine t.what) || s.fab.waitq.any (fun t => mine t.what)

/-- A descriptor leaves the mover: complete (R131), or in error, kept with its units once those below the failing one have made
their ADDs (R117, R142). -/
def jobSettle (s : State) (cl id : Nat) : State :=
  match jobOf s cl id with
  | none => s
  | some j =>
    if jobWaits s cl id j.d.units then s else
    let gone := modCluster s cl (fun k => { k with mover := k.mover.filter (fun q => q.id != id) })
    match j.bad with
    | some (st, k) =>
      if j.d.caddr ≠ 0 ∧ j.units < k then s else noteFault gone cl j.c { ins := j.ins, slots := 0, desc := some j.d, units := j.units } st false
    | none => if j.d.runs ≤ j.next ∧ (j.d.caddr = 0 ∨ j.d.units ≤ j.units) then gone else s

/-- A descriptor moves what it can: its errors are found first, since its runs have no order (R131). -/
def jobMove (s : State) (cl id : Nat) : State :=
  match jobOf s cl id with
  | none => s
  | some j =>
    if j.bad.isSome then s else
    let bad := ((List.range (j.d.runs - j.next)).map (fun i => (j.next + i, runStatus s cl j.d (j.next + i)))).filter
      (fun b => b.2 != .done && b.2 != .busy)
    if bad.isEmpty then moveFrom s cl id (j.d.runs - j.next) else moveFailed s cl j bad

/-! ### MOV_DMA (R130) -/

/-- The descriptor that a MOV names, when it may be read and its fields pass (R130, R117). -/
def readDD (s : State) (cl : Nat) (i : Issued) : Option DmaDesc :=
  let off := wrap 64 ((i.xr (i.f 0 3 0) : Nat) + (i.f 1 21 0 : Nat))
  if aligned off 64 && inStore off 64 then
    let d := parseDD (stBytes s cl off 64)
    if ddFieldsOk d then some d else none
  else none

/-- A run waits for the hold (R257). -/
def runHeld (s : State) (d : DmaDesc) (r : Nat) : Bool :=
  match dmaPlace s d.sloc (d.srcAt r) with
  | .here a => observerStatus s a d.len0.toNat == .busy
  | .away _ _ => false

/-- A descriptor enters the mover and moves. -/
def startJob (s : State) (cl : Nat) (c : Ctx) (i : Issued) (d : DmaDesc) (units : Nat) : State :=
  let id := (cluster s cl).nextId
  let j : DmaJob := { id := id, c := c, ins := i, d := d, units := units, next := d.firstRun units, adding := false, bad := none }
  let s1 := modCluster s cl (fun k => { k with mover := k.mover ++ [j], nextId := id + 1 })
  let s2 := jobMove s1 cl id
  let held := match jobOf s2 cl id with
    | some q => q.bad.isNone && decide (q.next < d.runs) && runHeld s2 d q.next
    | none => false
  jobSettle (if held then countHeld s2 else s2) cl id

/-- MOV_DMA (R130, R113, R142): the mover holds 16 descriptors, 8 of one context. -/
def execMovDma (cl : Nat) (c : Ctx) (s : State) : Host.Outcome State Fault Refusal :=
  .next (issue s cl c 2 0 (fun t i k =>
    let m := (cluster t cl).mover
    if 16 ≤ m.length ∨ 8 ≤ (m.filter (fun j => j.c == c)).length then .hold else
    match k with
    | some { desc := some d, units := u, .. } => .done (startJob t cl c i d u)
    | _ =>
      match readDD t cl i with
      | some d => .done (startJob t cl c i d 0)
      | none => .done (noteFault t cl c { ins := i, slots := 0, desc := none, units := 0 } .badParam true)))

/-! ### Completion units (R131) -/

/-- Every byte of the next unit is written, and of the units before it. -/
def unitReady (s : State) (cl : Nat) (j : DmaJob) : Bool :=
  decide (j.d.firstRun (j.units + 1) ≤ j.next) && !jobWaits s cl j.id j.units

/-- A descriptor in error whose units below the failing one have all made their ADD. -/
def stopsAt (j : DmaJob) : Bool :=
  match j.bad with
  | some (_, k) => decide (k ≤ j.units)
  | none => false

/-- The next completion ADD of a descriptor. -/
def addUnit (s : State) (cl : Nat) (j : DmaJob) : State :=
  let q := unitAdd s cl j.d (.movAdd cl j.id)
  match q.2 with
  | none => modJob q.1 cl j.id (fun x => { x with adding := true })
  | some .done => modJob q.1 cl j.id (fun x => { x with units := x.units + 1 })
  | some st => modJob q.1 cl j.id (fun x => { x with bad := some (st, x.units) })

/-- DMA_COMPLETION_ADD (R131): held runs go on, and the next unit makes its ADD once every byte of it and of those before it is
written. -/
def execDmaCompletionAdd (cl : Nat) (desc : Nat) (s : State) : Host.Outcome State Fault Refusal :=
  .next (
    if !clusterLive s cl then s else
    let s1 := jobMove s cl desc
    match jobOf s1 cl desc with
    | none => s1
    | some j =>
      let s2 := if stopsAt j || j.adding || j.d.caddr == 0 || decide (j.d.units ≤ j.units) || !unitReady s1 cl j then s1
        else addUnit s1 cl j
      jobSettle s2 cl desc)

/-! ### Answers of other packages -/

/-- An answer to a WRITE of a descriptor. -/
def movWritten (s : State) (cl id u : Nat) (st : Status) : State :=
  jobSettle (if st = .done then s else modJob s cl id (lowerBad st u)) cl id

/-- An answer to a READ of a descriptor: its bytes go to their destination, once that admits them. -/
def movData (s : State) (cl id u : Nat) (dst : W64) (dloc : Bool) (st : Status) (bs : List Byte) : State :=
  match jobOf s cl id with
  | none => s
  | some j =>
    if st ≠ .done then movWritten s cl id u st else
    match dmaPlace s dloc dst.toNat with
    | .here a =>
      (match firstBad [spaceStatus s cl a bs.length .w, if partialPoison s a bs.length then .degraded else .done] with
       | .done => jobSettle (putBytes s cl j u dst.toNat dloc bs) cl id
       | e => movWritten (noteAccess s e) cl id u e)
    | .away _ _ => putBytes s cl j u dst.toNat dloc bs

/-- An answer to a completion COUNT of a descriptor: an orphaned word discards the ADD, which counts as made (R320). -/
def movAdded (s : State) (cl id : Nat) (st : Status) : State :=
  jobSettle (modJob s cl id (fun j =>
    if st = .done ∨ st = .ownerLost then { j with adding := false, units := j.units + 1 }
    else lowerBad st j.units { j with adding := false })) cl id

end Sys2Proof.Machine
end

