-- ==== Sys2Proof/Machine/Fabric.lean ====
section
/-! DEFINITION. What arrives over the fabric: requests with their receive flows (R302 to R309), multicasts (R310), answers
(R303, R305), re-sending (R308), and Ethernet frames (R313). -/

namespace Sys2Proof.Machine

/-! ### Receive flows (R304, R307) -/

/-- The receive flow of a packet: its source, and the package or the last member of a multicast (R310). -/
def recvFlow (s : State) (k : Pkt) : Option RecvFlow := s.fab.recvs.find? (fun f => f.src == k.src && f.dst == k.dst)

/-- The receive flows with one changed. -/
def putRecv (s : State) (f : RecvFlow) : State :=
  { s with fab := { s.fab with recvs := s.fab.recvs.filter (fun g => g.src ≠ f.src || g.dst ≠ f.dst) ++ [f] } }

/-- A flow whose window moves up to a CUM; what lies below it is no longer kept (R304). -/
def advanceFlow (f : RecvFlow) (cum : W32) : RecvFlow :=
  if (cum - f.cum).toNat < 2 ^ 31 then
    { f with cum := cum, seen := f.seen.filter (fun e => decide ((e.1 - cum).toNat < 2 ^ 31)) }
  else f

/-- What the receive flow says of a request (R304, R307). -/
inductive FlowGate where
  /-- the flow table is full -/
  | full
  /-- no receive state, and no SYN -/
  | lost
  /-- another incarnation -/
  | stale
  /-- below the window -/
  | old (f : RecvFlow)
  /-- beyond the window -/
  | beyond (f : RecvFlow)
  /-- executed before, with this status and observed value -/
  | again (f : RecvFlow) (st : Byte) (v : W64)
  | run (f : RecvFlow)
  deriving DecidableEq, Repr

/-- A request in the window of a flow (R304). -/
def windowGate (f : RecvFlow) (k : Pkt) : FlowGate :=
  let g := advanceFlow f k.cum
  let d := (k.seq - g.cum).toNat
  if 2 ^ 31 ≤ d then .old g
  else if 1024 ≤ d then .beyond g
  else match g.seen.find? (fun e => e.1 == k.seq) with
    | some e => .again g e.2.1 e.2.2
    | none => .run g

/-- The decision of the receive flow on a request (R304, R307). -/
def flowGate (s : State) (k : Pkt) : FlowGate :=
  let new : RecvFlow := { src := k.src, dst := k.dst, incarn := k.incarn, cum := k.cum, seen := [] }
  match recvFlow s k with
  | none => if !k.syn then .lost else if 16384 ≤ s.fab.recvs.length then .full else windowGate new k
  | some f =>
    if f.incarn = k.incarn then windowGate f k
    else if k.syn then windowGate new k else .stale

/-- A request counts as executed with a status and an observed value (R304). -/
def markSeen (s : State) (k : Pkt) (st : Status) (v : Nat) : State :=
  match recvFlow s k with
  | some f => putRecv s { f with
      seen := f.seen.filter (fun e => e.1 ≠ k.seq) ++ [(k.seq, BitVec.ofNat 8 (statusCode st), BitVec.ofNat 64 v)] }
  | none => s

/-! ### Serving a request (R305, R309) -/

/-- The peer slot of a package (R309); none when its entry is not VALID. -/
def peerSlot (s : State) (src : W16) : Option Nat :=
  let e := rdNat s (s.fab.peerBase.toNat + 2 * src.toNat) 2
  if bit e 15 then some (bits e 14 0) else none

/-- What serving a request comes to: it waits, or it is answered with an OP, a status, an observed value and a payload. -/
inductive Serve where
  | wait
  | answered (s : State) (op : Nat) (st : Status) (v : Nat) (payload : List Byte)
  deriving DecidableEq, Repr

/-- A READ or WRITE lies within one 4 KiB page, with 1 to 4,096 bytes (R299). -/
def pageShape (a n : Nat) : Bool := decide (1 ≤ n) && decide (n ≤ 4096) && decide (a / 4096 = (a + n - 1) / 4096)

/-- A refused or failed request: DENIED is counted. -/
def refuse (s : State) (op : Nat) (st : Status) (payload : List Byte) : Serve := .answered (noteAccess s st) op st 0 payload

/-- READ (R298, R305). -/
def serveRead (s : State) (mid : Nat) (k : Pkt) : Serve :=
  let a := k.addr.toNat
  let n := k.plen.toNat
  if !pageShape a n then refuse s 8 .badParam []
  else match spaceStatus s mid a n .r with
    | .done =>
      if touchesStopped s a n || trainHolds s mid a n then .wait else
      (match readMeets s a n with
       | .done => let r := ownRead s mid a n; .answered r.1 8 .done 0 r.2
       | st => refuse (noteObserver s .done st) 8 st [])
    | st => refuse s 8 st []

/-- WRITE (R298, R305): a partial write of a poisoned line is answered DEGRADED (R249). -/
def serveWrite (s : State) (mid : Nat) (k : Pkt) : Serve :=
  let a := k.addr.toNat
  let n := k.plen.toNat
  if !pageShape a n ∨ k.payload.length ≠ n then refuse s 9 .badParam []
  else match spaceStatus s mid a n .w with
    | .done =>
      if touchesStopped s a n || trainHolds s mid a n then .wait else
      let r := ownWrite s mid a k.payload
      .answered r.1 9 (firstBad [r.2, if partialPoison s a n then .degraded else .done]) 0 []
    | st => refuse s 9 st []

/-- An ADD that met an orphaned word is counted by the home (R320). -/
def countOrphan (s : State) (add : Bool) (st : Status) : State :=
  if add && st == .ownerLost then { s with sync := { s.sync with cntOrphan := satAdd s.sync.cntOrphan 1 } } else s

/-- SYNC (R321): its answer carries the observed value. -/
def serveSync (s : State) (mid : Nat) (k : Pkt) : Serve :=
  let a := k.addr.toNat
  if !aligned a 8 ∨ k.payload.length ≠ 16 then .answered s 9 .badParam 0 (leBytes 8 0)
  else if (touchesStopped s a 8 || trainHolds s mid a 8) && accessStatus s mid a 8 .atomic == .done then .wait
  else
    let r := syncRequest (meshTrip s mid a 8 false) mid a k.payload
    .answered (countOrphan r.1 (bits (leAt k.payload 4 4) 31 28 == 0) r.2.1) 9 r.2.1 r.2.2 (leBytes 8 r.2.2)

/-- COUNT (R321): an ADD with no observed value. -/
def serveCount (s : State) (mid : Nat) (k : Pkt) : Serve :=
  let a := k.addr.toNat
  if !aligned a 8 ∨ k.payload.length ≠ 8 then .answered s 9 .badParam 0 []
  else if (touchesStopped s a 8 || trainHolds s mid a 8) && accessStatus s mid a 8 .atomic == .done then .wait
  else
    let r := syncAccess (meshTrip s mid a 8 false) mid a 0 (leNat k.payload) (false, 0)
    .answered (countOrphan r.1 true r.2.1) 9 r.2.1 0 []

/-! ### Exchange records (R229, R236) -/

/-- The header of an exchange packet (R229). -/
def parseExHdr (b : List Byte) : ExHdr :=
  let w := leAt b 0 4
  { kind := BitVec.ofNat 4 (bits w 31 28), mode := BitVec.ofNat 2 (bits w 27 26), etype := bit w 25,
    km1 := BitVec.ofNat 8 (bits w 23 16), rank := BitVec.ofNat 13 (bits w 12 0), layout := BitVec.ofNat 32 (leAt b 4 4),
    opId := BitVec.ofNat 32 (leAt b 8 4), epoch := BitVec.ofNat 64 (leAt b 16 8) }

/-- Bytes of the body of a record with N entries (R229). -/
def exBodyLen (h : ExHdr) (n : Nat) : Nat :=
  if 2 ≤ h.kind.toNat then 2048
  else match h.mode.toNat with
    | 0 => if h.etype then 512 else 1024
    | 1 => 4 * ceilDiv (26 * n) 32
    | _ => 192

/-- The records of a packet (R229); none when they do not fill its payload. -/
def parseRecords (h : ExHdr) : Nat → List Byte → Option (List ExRec)
  | 0, b => if b.isEmpty then some [] else none
  | m + 1, b =>
    let w := leAt b 4 4
    let len := exBodyLen h (bits w 8 0)
    if b.length < 8 + len then none
    else
      let r : ExRec := { tile := BitVec.ofNat 32 (leAt b 0 4), tensor := BitVec.ofNat 16 (bits w 31 16),
                         part := BitVec.ofNat 2 (bits w 15 14), n := BitVec.ofNat 9 (bits w 8 0), body := slice b 8 len }
      (parseRecords h m (b.drop (8 + len))).map (fun t => r :: t)

/-- The records of a packet as they arrive; none when one of them is not taken: credit is withheld for the packet (R236). -/
def takeRecords (h : ExHdr) : List ExRec → State → Option State
  | [], s => some s
  | r :: t, s =>
    let q := recordArrives s h r
    if q.2 then takeRecords h t q.1 else none

/-- RECORDS (R298, R236): a packet that R229 gives no reading is answered BAD_PARAM. -/
def serveRecords (s : State) (k : Pkt) : Serve :=
  let h := parseExHdr k.payload
  match (if 3 < h.kind.toNat ∨ h.mode = 3 ∨ k.payload.length < 32 then none
         else parseRecords h (leAt k.payload 12 2 % 65536) (k.payload.drop 32)) with
  | none => .answered s 9 .badParam 0 []
  | some rs =>
    if !exchRuns s then .wait
    else match takeRecords h rs s with
      | none => .wait
      | some t => .answered (modExch t (fun e => { e with cntRx := satAdd e.cntRx k.payload.length })) 9 .done 0 []

/-- SOLDER (R298, R368): a reserved KIND is answered BAD_PARAM (R15). -/
def serveSolder (s : State) (k : Pkt) : Serve :=
  if k.payload.length ≠ 48 ∨ 5 < (parseSolder k.payload).kind.toNat then .answered s 9 .badParam 0 []
  else .answered (receiveSolder s (parseSolder k.payload)) 9 .done 0 []

/-- The class and OP of a request that the package takes on a port (R298). -/
def requestOk (p : Nat) (k : Pkt) : Bool :=
  match k.cls.toNat with
  | 0 => decide (k.op.toNat ≤ 3)
  | 1 => k.op == 0
  | 2 => k.op == 0
  | 3 => k.op == 0 && (p == 22 || p == 23)
  | _ => false

/-- A request of a valid peer served by its class consumer; COMMAND is served apart. -/
def servePkt (s : State) (mid : Nat) (k : Pkt) : Serve :=
  match k.cls.toNat, k.op.toNat with
  | 0, 0 => serveRead s mid k
  | 0, 1 => serveWrite s mid k
  | 0, 2 => serveSync s mid k
  | 0, _ => serveCount s mid k
  | 2, _ => serveRecords s k
  | _, _ => serveSolder s k

/-- The answer to a request leaves. -/
def sendRsp (s : State) (k : Pkt) (op : Nat) (st : Status) (payload : List Byte) : State := sendPkt s (mkRsp s k op st payload)

/-- COMMAND (R298, R336): the part is taken with its ingress stamp (R309); its ACK waits for the first reply where one is to come. -/
def serveCommand (s : State) (p : Fin 24) (k : Pkt) (stamp : W64) : State :=
  let s1 := markSeen s k .done 0
  let a := (k, BitVec.ofNat 16 (leAt k.payload 8 2), BitVec.ofNat 32 (leAt k.payload 16 4))
  let r := partArrives { s1 with fab := { s1.fab with acks := s1.fab.acks ++ [a] } } (.fabric k.src p) stamp k.payload
  if r.2 ∨ !r.1.fab.acks.contains a then r.1
  else sendRsp { r.1 with fab := { r.1.fab with acks := r.1.fab.acks.filter (fun x => x ≠ a) } } k 9 .done []

/-- A packet that stands in the receive buffers of a port. -/
def inPkt (s : State) (p : Fin 24) (k : Pkt) : Option InPkt := s.fab.inbox.find? (fun e => e.port == p && e.pkt == k)

/-- A packet as it arrived: in the receive buffers, or only now. -/
def arrived (s : State) (p : Fin 24) (k : Pkt) : InPkt :=
  (inPkt s p k).getD { port := p, pkt := k, ft := s.inv.ft, at_ := s.inv.clk, flits := [] }

/-- A packet waits at its port for its consumer. -/
def holdPkt (s : State) (p : Fin 24) (k : Pkt) : State :=
  if (inPkt s p k).isSome then s else { s with fab := { s.fab with inbox := s.fab.inbox ++ [arrived s p k] } }

/-- A request of a flow executed: it waits at its port with nothing changed, or it is answered and kept as executed. -/
def runRequest (s0 s : State) (p : Fin 24) (k : Pkt) : State :=
  match peerSlot s k.src with
  | none => sendRsp (markSeen s k .denied 0) k (if k.cls = 0 ∧ k.op = 0 then 8 else 9) .denied
      (if k.cls = 0 ∧ k.op = 2 then leBytes 8 0 else [])
  | some slot =>
    if k.cls = 1 then serveCommand s p k (arrived s0 p k).ft else
    match servePkt s (0x8000 + slot) k with
    | .wait => holdPkt s0 p k
    | .answered t op st v bs => sendRsp (markSeen t k st v) k op st bs

/-- A duplicate of an executed request (R304): a READ is served again; another is counted and answered from what is kept. A
COMMAND whose first answer is still to come is not answered twice. -/
def repeatRequest (s0 s : State) (p : Fin 24) (k : Pkt) (st : Byte) (v : W64) : State :=
  if k.cls = 0 ∧ k.op = 0 then runRequest s0 s p k else
  let s1 := { s with fab := { s.fab with cntDup := satAdd s.fab.cntDup 1 } }
  if s.fab.acks.any (fun a => a.1.src == k.src && a.1.seq == k.seq && a.1.incarn == k.incarn) then s1
  else sendRsp s1 k 9 (statusOf st.toNat) (if k.cls = 0 ∧ k.op = 2 then leBytes 8 v.toNat else [])

/-- A request delivered to its package (R302, R304, R307). `s0` has the packet still at its port. -/
def deliver (s0 s : State) (p : Fin 24) (k : Pkt) : State :=
  if pktEcrc k ≠ k.ecrc then { s with fab := { s.fab with cntEcrc := satAdd s.fab.cntEcrc 1 } }
  else if !requestOk p.val k then { s with fab := { s.fab with cntBad := satAdd s.fab.cntBad 1 } }
  else
    let op := if k.cls = 0 ∧ k.op = 0 then 8 else 9
    match flowGate s k with
    | .full => sendRsp s k op .busy []
    | .lost => sendRsp s k op .dieLost []
    | .stale => { s with fab := { s.fab with cntStale := satAdd s.fab.cntStale 1 } }
    | .old f => { putRecv s f with fab := { (putRecv s f).fab with cntDup := satAdd s.fab.cntDup 1 } }
    | .beyond f => putRecv s f
    | .again f st v => repeatRequest s0 (putRecv s f) p k st v
    | .run f => runRequest s0 (putRecv s f) p k

/-! ### Forwarding (R299 to R302) -/

/-- A packet that came in by a port goes on, held since it came into the package (R300, R307). -/
def passOn (p : Fin 24) (k : Pkt) (since : W64) : OutPkt :=
  { pkt := k, since := since, came := some (p.val, k.lane), sent := 0 }

/-- A packet of another package forwarded (R299, R301, R302): none goes on with TTL 0, and class TWIN is never routed (R298). -/
def forward (s : State) (p : Fin 24) (k : Pkt) (since : W64) : State :=
  if !s.fab.fwdEn ∨ k.ttl.toNat ≤ 1 ∨ k.cls = 3 then dropNoRoute s
  else match routePort s k.dst.toNat with
    | some q => queueAt s q (passOn p { k with ttl := k.ttl - 1 } since)
    | none => dropNoRoute s

/-- The state without a packet at its port: it leaves the receive buffers. -/
def takePkt (s : State) (p : Fin 24) (k : Pkt) : State :=
  match inPkt s p k with
  | some e => leaveBuffers s p (fun x => x == e)
  | none => s

/-- A packet may arrive on a port: the IOD runs, and the port carries packets or had the packet whole before it went DOWN (R296). -/
def arrives (s : State) (p : Fin 24) (k : Pkt) : Bool := iodOn s && ((port s p.val).carries || (inPkt s p k).isSome)

/-- FAB_REQUEST_ARRIVAL (R302, R304): a routed request is dropped, forwarded, or delivered and executed at most once. -/
def execFabRequestArrival (p : Fin 24) (k : Pkt) (s : State) : Host.Outcome State Fault Refusal :=
  .next (
    if !arrives s p k ∨ k.vn ∨ k.mc then s
    else if s.pkgId = 0xFFFF ∧ k.cls ≠ 3 then dropNoRoute (takePkt s p k)
    else if k.dst ≠ s.pkgId then forward (takePkt s p k) p k (arrived s p k).at_
    else deliver s (takePkt s p k) p k)

/-- The copy of a multicast goes on along the line (R310); no line runs over a twin port (R211). -/
def forwardLine (s : State) (p : Fin 24) (k : Pkt) (since : W64) : State :=
  if k.mcHops.toNat ≤ 1 then s
  else
    let q := (port s p.val).lineNext.toNat
    if k.ttl.toNat ≤ 1 ∨ 22 ≤ q ∨ !(port s q).carries then dropNoRoute s
    else queueAt s q (passOn p { k with ttl := k.ttl - 1, mcHops := k.mcHops - 1 } since)

/-- FAB_MULTICAST (R310): a copy is delivered, and the packet goes on. A copy that waits has no hop left. -/
def execFabMulticast (p : Fin 24) (k : Pkt) (s : State) : Host.Outcome State Fault Refusal :=
  .next (
    if !arrives s p k ∨ k.vn ∨ !k.mc then s
    else if s.pkgId = 0xFFFF then dropNoRoute (takePkt s p k)
    else
      let k1 := { k with mcHops := 1 }
      let e := arrived s p k
      let s1 := forwardLine { s with fab := { s.fab with
        inbox := s.fab.inbox.map (fun x => if x = e then { e with pkt := k1 } else x) } } p k e.at_
      deliver s1 (takePkt s1 p k1) p k1)

/-! ### Answers (R303, R305) -/

/-- Bytes of an image that arrived for a restore or a REPLAY. -/
def fetchedBytes (s : State) (off : Nat) (bs : List Byte) : State :=
  restoreAdvance { s with ckpt := { s.ckpt with fetched := Memory.writeRange s.ckpt.fetched off bs } }

/-- What a final answer does for its requester. -/
def answerTxn (s : State) (w : TxnFor) (st : Status) (bs : List Byte) : State :=
  match w with
  | .movWrite cl j u => movWritten s cl j u st
  | .movRead cl j u dst dloc => movData s cl j u dst dloc st bs
  | .movAdd cl j => movAdded s cl j st
  | .syn n c => synAnswered s n c st (leAt bs 0 8)
  | .cmd id off => cmdAnswer s id off st bs
  | .capture => if st = .done then s else endCapture s st
  | .restore off =>
    if st = .done then fetchedBytes s off bs
    else if s.ckpt.restore.isSome then endRestore s st (restoredBytes s) else endReplay s st
  | .add => s
  | .exch => s
  | .reply => s
  | .solder => s

/-- A transaction completes: its slot is free, waiting requests start, and its requester sees the answer (R303). -/
def finishTxn (s : State) (t : Txn) (st : Status) (bs : List Byte) : State :=
  answerTxn (launchWaiting (endTxn s t.tag)) t.what st bs

/-- The flow to a destination has been active. -/
def touchFlow (s : State) (dst : W16) : State :=
  { s with fab := { s.fab with sends := s.fab.sends.map (fun f => if f.dst = dst then { f with lastActive := s.inv.clk } else f) } }

/-- The transaction that a response answers (R303): slot, SEQ, incarnation and answering package agree. -/
def txnOf (s : State) (k : Pkt) : Option Txn :=
  s.fab.txns.find? (fun t => t.tag == k.tag && t.pkt.seq == k.seq && t.pkt.incarn == k.incarn && t.busyAt.isNone &&
    (if t.pkt.mc then t.mcWait.contains k.src else t.pkt.dst == k.src))

/-- An answer of one member of a multicast (R310): it awaits every member, and asks one that is BUSY again after 20 µs (R305). -/
def memberAnswer (s : State) (t : Txn) (k : Pkt) : State :=
  let left := t.mcWait.filter (fun m => m ≠ k.src)
  let busy := if k.status.toNat = statusCode .busy then t.mcBusy ++ [(k.src, s.inv.clk + 20000)] else t.mcBusy
  if left.isEmpty ∧ busy.isEmpty then finishTxn s t .done []
  else modTxn s t.tag (fun x => { x with mcWait := left, mcBusy := busy })

/-- A response of this package's own request (R303, R305, R310): BUSY is kept for 20 µs. -/
def takeResponse (s : State) (k : Pkt) : State :=
  match txnOf s k with
  | none => s
  | some t =>
    let s1 := touchFlow s t.pkt.dst
    if t.pkt.mc then memberAnswer s1 t k
    else if k.status.toNat = statusCode .busy then
      launchWaiting (modTxn s1 t.tag (fun x => { x with busyAt := some (s.inv.clk + 20000) }))
    else finishTxn s1 t (statusOf k.status.toNat) k.payload

/-- FAB_RESPONSE_ARRIVAL (R302, R303). -/
def execFabResponseArrival (p : Fin 24) (k : Pkt) (s : State) : Host.Outcome State Fault Refusal :=
  .next (
    if !arrives s p k ∨ !k.vn then s
    else
      let s1 := takePkt s p k
      if s.pkgId = 0xFFFF ∧ k.cls ≠ 3 then dropNoRoute s1
      else if k.dst ≠ s.pkgId then forward s1 p k (arrived s p k).at_
      else if pktEcrc k ≠ k.ecrc then { s1 with fab := { s1.fab with cntEcrc := satAdd s1.fab.cntEcrc 1 } }
      else if 3 < k.cls.toNat ∨ !(k.op = 9 ∨ (k.op = 8 ∧ k.cls = 0)) then
        { s1 with fab := { s1.fab with cntBad := satAdd s1.fab.cntBad 1 } }
      else takeResponse s1 k)

/-! ### Sending again (R305, R308) -/

/-- A transaction of a tag. -/
def txnAt (s : State) (tag : W16) : Option Txn := s.fab.txns.find? (fun t => t.tag == tag)

/-- The members of a multicast whose 20 µs have passed are asked again by unicasts, each with a new SEQ (R305, R310). -/
def resendBusy (s : State) (t : Txn) : State :=
  let due := t.mcBusy.filter (fun m => decide (m.2.toNat ≤ clk s))
  let left := t.mcBusy.filter (fun m => !decide (m.2.toNat ≤ clk s))
  let s1 := if t.mcWait.isEmpty ∧ left.isEmpty then endTxn s t.tag else modTxn s t.tag (fun x => { x with mcBusy := left })
  due.foldl (fun u m => sendReq u
    (mkReq m.1 t.pkt.cls.toNat t.pkt.op.toNat t.pkt.addr.toNat t.pkt.plen.toNat t.pkt.payload) t.what) s1

/-- FAB_BUSY_RESEND (R305): 20 µs after a BUSY answer the request goes again as a new transaction with a new SEQ. -/
def execFabBusyResend (tag : W16) (s : State) : Host.Outcome State Fault Refusal :=
  .next (match txnAt s tag with
    | none => s
    | some t =>
      if t.pkt.mc then (if iodOn s then resendBusy s t else s) else
      match t.busyAt with
      | none => s
      | some due =>
        if clk s < due.toNat ∨ !iodOn s then s
        else
          let k := mkReq t.pkt.dst t.pkt.cls.toNat t.pkt.op.toNat t.pkt.addr.toNat t.pkt.plen.toNat t.pkt.payload
          launchWaiting (sendReq (endTxn s tag) k t.what))

/-- FAB_SERVICE_TIMEOUT (R308): a request of a SERVICE flow unanswered for FAB_TO_SERVICE puts its flow into E2E. -/
def execFabServiceTimeout (tag : W16) (s : State) : Host.Outcome State Fault Refusal :=
  .next (match txnAt s tag with
    | none => s
    | some t =>
      if flowE2e s (sendFlow s t.pkt.dst) ∨ answered t ∨ clk s < t.sent.toNat + s.fab.toService.toNat * 1000 ∨ !iodOn s then s
      else enterE2e s t.pkt.dst)

/-- Time in ns after the latest sending of a request until it is sent again in E2E (R308). -/
def backoffNs (s : State) (resends : Nat) : Nat := min (toE2eNs s * 2 ^ resends) 1600000

/-- FAB_E2E_RESEND (R308): a request of an E2E flow is sent again on its backoff timer; after FAB_E2E_TRIES re-sends it ends with
DIE_LOST. -/
def execFabE2eResend (tag : W16) (s : State) : Host.Outcome State Fault Refusal :=
  .next (match txnAt s tag with
    | none => s
    | some t =>
      if !flowE2e s (sendFlow s t.pkt.dst) ∨ answered t ∨ clk s < t.sent.toNat + backoffNs s t.resends ∨ !iodOn s then s
      else if s.fab.tries.toNat ≤ t.resends then
        finishTxn { s with fab := { s.fab with cntUnreach := satAdd s.fab.cntUnreach 1 } } t .dieLost []
      else resendTxn s tag)

/-- FAB_E2E_QUIET (R308): a flow quiet for 10 ms in E2E returns to SERVICE. -/
def execFabE2eQuiet (dst : W16) (s : State) : Host.Outcome State Fault Refusal :=
  .next (match s.fab.sends.find? (fun f => f.dst == dst) with
    | some f =>
      if f.e2e && !s.fab.e2eAll && !bit (routeEntry s dst.toNat) 30 && decide (f.lastActive.toNat + 10000000 ≤ clk s) then
        { s with fab := { s.fab with sends := s.fab.sends.map (fun g => if g.dst = dst then { g with e2e := false } else g) } }
      else s
    | none => s)

/-! ### Ethernet (R313) -/

/-- The IPv6 address of a port (R316), and its MAC address as six bytes. -/
def portIp (q : Port) : W128 := q.ethIpHi ++ q.ethIpLo
def portMac (q : Port) : List Byte := (leBytes 6 q.ethMac.toNat).reverse

/-- The transfers of a local queue-pair number in a direction, oldest first (R314). -/
def ethXfers (s : State) (p : Nat) (lqpn : BitVec 24) (read : Bool) : List EthXfer :=
  s.fab.eth.filter (fun x => x.port == p && x.read == read && decide (qpWord s p x.qp.toNat 0 % 2 ^ 24 = lqpn.toNat))

/-- Packets of a transfer are done; with the last one the transfer is. -/
def ethProgress (s : State) (x : EthXfer) (n : Nat) : State :=
  let m := n * (qpMtu s x.port x.qp.toNat).getD 1024
  let y := { x with packets := x.packets - n, psn := (x.psn + n) % 2 ^ 24, off := x.off + m, frames := x.frames.drop n
                    left := x.left - m }
  { s with fab := { s.fab with eth :=
      if x.packets ≤ n then s.fab.eth.erase x else s.fab.eth.map (fun z => if z = x then y else z) } }

/-- Packets of a transfer from its first outstanding one up to and with a sequence number: 0 for one that lies before it. -/
def psnReach (x : EthXfer) (psn : BitVec 24) : Nat :=
  let d := (psn.toNat + 2 ^ 24 - x.psn) % 2 ^ 24
  if d < 2 ^ 23 then d + 1 else 0

/-- An acknowledgement of a queue pair (R313): every packet up to its sequence number has arrived. -/
def ethAck (s : State) (p : Nat) (lqpn psn : BitVec 24) : State :=
  (ethXfers s p lqpn false).foldl (fun t x =>
    if psnReach x psn = 0 then t else copySettle (ethProgress t x (min (psnReach x psn) x.packets)) x.op) s

/-- A negative acknowledgement of a queue pair: the packets before the one that it expects have arrived, and those from it on are sent
again (PRESUMED, log entry 6: how RoCEv2's reliable connection recovers, which R313 names and no rule spells out). -/
def ethNak (s : State) (p : Nat) (lqpn psn : BitVec 24) : State :=
  let s1 := ethAck s p lqpn (psn - 1)
  let t := (ethXfers s1 p lqpn false).foldl (fun t x => x.frames.foldl (fun u f => sendRoce u p f.1 f.2) t) s1
  (ethXfers s1 p lqpn true).foldl (fun t x => sendRoce t p (readRequest t p x.qp.toNat x.psn x.off x.left) 0) t

/-- Bytes read from storage, at their offset in the region, go to whatever asked for them. -/
def storageBytes (s : State) (x : EthXfer) (off : Nat) (bs : List Byte) : State :=
  match longOp s x.op with
  | none => s
  | some o =>
    match o.kind with
    | .memCopy src _ _ _ _ _ _ _ _ => cmdAnswer s x.op (some (off - src.addr.toNat)) .done bs
    | .restore => (match s.ckpt.restore with
      | some r => fetchedBytes s (off - r.src.addr.toNat) bs
      | none => s)
    | .replay => fetchedBytes s (off - s.ckpt.baseLoc.addr.toNat) bs
    | _ => s

/-- A READ response of a queue pair (R313): the next packet that its transfer awaits. -/
def ethReadData (s : State) (p : Nat) (lqpn psn : BitVec 24) (d : List Byte) : State :=
  match (ethXfers s p lqpn true).head? with
  | some x => if psnReach x psn = 1 then storageBytes (ethProgress s x 1) x x.off d else s
  | none => s

/-- The frame of a payload is no longer than 9,216 B (R313), with the headers that its protocol puts before it. -/
def frameFits (f : EthFrame) : Bool :=
  match f with
  | .echoRequest _ d => decide (d.length + 66 ≤ 9216)
  | .rdmaReadResponse _ _ d => decide (d.length + 86 ≤ 9216)
  | .other d => decide (d.length ≤ 9216)
  | _ => true

/-- ETH_FRAME_RECEIVE (R313): discovery and echo are answered, acknowledgements and read responses go to their transfers, priority
flow control holds the frames of priority 3, and nothing else has an effect. A frame of more than 9,216 B is not taken. Each frame is
taken at once, so that the port has no reason to send priority flow control itself (log entry 6). -/
def execEthFrameReceive (p : Fin 24) (f : EthFrame) (s : State) : Host.Outcome State Fault Refusal :=
  .next (
    let q := port s p.val
    if !portsOn s ∨ q.mode ≠ 2 ∨ !q.ethUp ∨ !frameFits f then s else
    let bytes := match f with
      | .echoRequest _ d => d.length
      | .rdmaReadResponse _ _ d => d.length
      | .other d => d.length
      | _ => 0
    let s1 := modPort s p.val (fun q => { q with rxPkts := satAdd q.rxPkts 1, rxBytes := satAdd q.rxBytes bytes })
    match f with
    | .neighbourSolicit _ target => if target = portIp q then sendFrame s1 p.val ((leBytes 16 target.toNat).reverse ++ portMac q) 0 else s1
    | .echoRequest _ d => sendFrame s1 p.val d d.length
    | .rdmaAck lqpn psn => ethAck s1 p.val lqpn psn
    | .rdmaNak lqpn psn => ethNak s1 p.val lqpn psn
    | .rdmaReadResponse lqpn psn d => ethReadData s1 p.val lqpn psn d
    | .pause quanta => releaseFrames (modPort s1 p.val (fun q => { q with ethPause := s.inv.clk + pauseNs q quanta })) p.val
    | .other _ => s1)

end Sys2Proof.Machine
end

