-- ==== Sys2Proof/Machine/I3c.lean ====
section
/-! DEFINITION. What the board does through the management lands: the I3C target (R446, R447), the test access port (R453,
R454) and the links of the management ports (R450). -/

namespace Sys2Proof.Machine

/-! ### The I3C target (R446, R447) -/

/-- The target changed. -/
def modI3c (s : State) (f : I3c → I3c) : State := { s with i3c := f s.i3c }

/-- Results of an operation (R447). -/
inductive I3cResult where
  | done | denied | badParam | imageInvalid
  deriving DecidableEq, Repr

/-- The code of a result (R447). -/
def I3cResult.code : I3cResult → Byte
  | .done => 0
  | .denied => 1
  | .badParam => 2
  | .imageInvalid => 3

/-- An operation ends with a result and the bytes of the private read that follows it. -/
def i3cEnd (s : State) (r : I3cResult) (data : List Byte) : State :=
  modI3c s (fun t => { t with result := r.code, readData := data })

/-- An operation, while ISL is powered. -/
def i3cOp (act : State → State) (s : State) : Host.Outcome State Fault Refusal := .next (if s.tap.pwrEn then act s else s)

/-- The blocks that BLOCK_READ serves (R447). -/
def i3cBlock (b : Nat) : Bool := b == 0x0000 || b == 0x004C || b == 0x0050

/-- I3C_BLOCK_READ (R447): each register as one value; an offset or count out of its form, or a range beyond the block, sets
result 2. -/
def execI3cBlockRead (block offset : W16) (count : Byte) (s : State) : Host.Outcome State Fault Refusal :=
  i3cOp (fun s =>
    let o := offset.toNat
    let n := count.toNat
    if !i3cBlock block.toNat ∨ !aligned o 8 ∨ n = 0 ∨ 32 < n ∨ 0x10000 < o + 8 * n then i3cEnd s .badParam []
    else i3cEnd s .done ((List.range n).flatMap (fun i => leBytes 8 (regRead s block.toNat (o + 8 * i)).toNat))) s

/-- I3C_STATUS (R447): the result of the operation before, BOOT_STAGE and COB_LIFECYCLE. -/
def execI3cStatus (s : State) : Host.Outcome State Fault Refusal :=
  i3cOp (fun s => modI3c s (fun t => { t with
    readData := [t.result, BitVec.ofNat 8 s.boot.stage.toNat, BitVec.ofNat 8 (lifecycle s), 0, 0, 0, 0, 0] })) s

/-- Bytes of a credential record (R396), the size of the credential buffer. -/
def credLen : Nat := 7267

/-- I3C_CRED_DATA (R447): the credential buffer is filled while the lifecycle is UNOWNED. -/
def execI3cCredData (offset : W16) (data : List Byte) (s : State) : Host.Outcome State Fault Refusal :=
  i3cOp (fun s =>
    if lifecycle s ≠ 0 then i3cEnd s .denied []
    else if data.length = 0 ∨ 256 < data.length ∨ credLen < offset.toNat + data.length then i3cEnd s .badParam []
    else i3cEnd (modI3c s (fun t => { t with buffer := Memory.writeRange t.buffer offset.toNat data })) .done []) s

/-- I3C_CRED_COMMIT (R447, R397): the buffered slot-0 record is installed without its signature. -/
def execI3cCredCommit (s : State) : Host.Outcome State Fault Refusal :=
  i3cOp (fun s =>
    let r := (List.range credLen).map (fun i => Memory.read s.i3c.buffer i)
    if lifecycle s ≠ 0 then i3cEnd s .denied []
    else if leAt r 4 1 ≠ 0 ∨ !bit (leAt r 5 1) 0 then i3cEnd s .badParam []
    else i3cEnd (installRecord s r false) (if recordCause s r false = 1 then .done else .denied) []) s

/-- The package is in RECOVERY (R432). -/
def inRecovery (s : State) : Bool := s.boot.stage == 14

/-- I3C_IMG_BEGIN (R447): the slot's header is erased. -/
def execI3cImgBegin (slot : Byte) (s : State) : Host.Outcome State Fault Refusal :=
  i3cOp (fun s =>
    if !inRecovery s then i3cEnd s .denied []
    else if 1 < slot.toNat then i3cEnd s .badParam []
    else
      let b := slot == 1
      i3cEnd (modI3c (flashErase s b 0 imageHeaderLen) (fun t => { t with image := some b })) .done []) s

/-- I3C_IMG_DATA (R447): bytes are programmed at an offset of the slot. -/
def execI3cImgData (offset : W32) (data : List Byte) (s : State) : Host.Outcome State Fault Refusal :=
  i3cOp (fun s =>
    match s.i3c.image with
    | none => i3cEnd s .denied []
    | some b =>
      if !inRecovery s then i3cEnd s .denied []
      else if data.length = 0 ∨ 256 < data.length ∨ slotLen < offset.toNat + data.length then i3cEnd s .badParam []
      else i3cEnd (flashProgram s b offset.toNat data) .done []) s

/-- I3C_IMG_END (R447, R432): a valid image restarts the package from stage 2; an invalid one leaves it in RECOVERY. -/
def execI3cImgEnd (len : W32) (s : State) : Host.Outcome State Fault Refusal :=
  i3cOp (fun s =>
    match s.i3c.image with
    | none => i3cEnd s .denied []
    | some b =>
      if !inRecovery s then i3cEnd s .denied []
      else if slotLen < len.toNat then i3cEnd s .badParam []
      else if imageValid s (flashByte s b) len.toNat then restart (modI3c (i3cEnd s .done []) (fun t => { t with image := none }))
      else i3cEnd s .imageInvalid []) s

/-- The provisioned ID of the target (R446). -/
def i3cId : BitVec 48 := BitVec.ofNat 48 (0x1F4B * 2 ^ 33 + 2 ^ 32 + leAt deviceId 0 4)

/-- The operation bytes that R447 lists. -/
def i3cListed (op : Byte) : Bool := [0x01, 0x02, 0x10, 0x11, 0x20, 0x21, 0x22].contains op

/-- I3C_CCC (R446): the target's address, which in ENTDAA it is given for its provisioned ID, and its in-band interrupts. A private
write of an operation byte that R447 does not list sets result 2; of the listed ones each has its own row. -/
def execI3cCcc (c : I3cCcc) (s : State) : Host.Outcome State Fault Refusal :=
  i3cOp (fun s => modI3c s (fun t =>
    match c with
    | .privateWrite op => if i3cListed op then t else { t with result := I3cResult.badParam.code, readData := [] }
    | .setdasa st dyn => if st = 0x3A ∧ t.address = none then { t with address := some dyn } else t
    | .entdaa dyn => if t.address = none then { t with address := some dyn, ids := i3cId :: t.ids } else t
    | .enec => { t with ibiEn := true }
    | .disec => { t with ibiEn := false }
    | .rstdaa => { t with address := none }
    | .other _ => t)) s

/-! ### The test access port (R453, R454) -/

/-- The test access port changed. -/
def modTap (s : State) (f : Tap → Tap) : State := { s with tap := f s.tap }

/-- The EXTEST-class instructions (R454). -/
def extestClass (c : Byte) : Bool := c == 0x00 || c == 0x03 || c == 0x04 || c == 0x08 || c == 0x09

/-- The instruction that Update-IR loads for a code (R453, R454): an EXTEST-class one only while RESET_N is low, an internal
debug one only after unlock, and BYPASS in its place otherwise. -/
def tapLoad (s : State) (c : Byte) : Byte :=
  if extestClass c then (if s.tap.resetN then 0xFF else c)
  else if c = 0x01 ∨ c = 0x02 ∨ c = 0x40 ∨ c = 0xFF then c
  else if s.cob.debug then c else 0xFF

/-- TAP_INSTRUCTION_UPDATE (R453, R454): an EXTEST-class instruction takes the lands, and powers the IOD domain in test mode. -/
def execTapInstructionUpdate (c : Byte) (s : State) : Host.Outcome State Fault Refusal :=
  .next (if !s.tap.pwrEn then s else
    let i := tapLoad s c
    modTap s (fun t => { t with ir := i, landsTaken := extestClass i, testIod := t.testIod || extestClass i }))

/-- IDCODE (R453). -/
def tapIdcode : Nat := 0x1041666B

/-- The bits of a number, least significant first. -/
def bitList (w n : Nat) : List Bool := (List.range w).map (fun i => n.testBit i)

/-- A scan through a register that captures some bits: what leaves TDO, and what the register then holds. -/
def scanThrough (captured shifted : List Bool) : List Bool × List Bool :=
  ((captured ++ shifted).take shifted.length, (captured ++ shifted).drop shifted.length)

/-! ### Boundary scan (R455) -/

/-- A land that the boundary-scan chain covers (R455): a pair has a cell for each of its two lands, and a lane lands of both
directions (R440, R441). -/
inductive ScanLand where
  | pwrEn | wake | alertN | scl | sda
  | timeIn (neg : Bool)
  | timeOut (neg : Bool)
  | mgt (m : Nat) (rx neg : Bool)
  | lane (port lane : Nat) (rx neg : Bool)
  deriving DecidableEq, Repr

/-- Both lands of a pair. -/
def pairLands (f : Bool → ScanLand) : List ScanLand := [f false, f true]

/-- Transmit and receive pairs. -/
def bothWays (f : Bool → Bool → ScanLand) : List ScanLand := pairLands (f false) ++ pairLands (f true)

/-- The lands of the chain as R455 lists them: 785 cells. -/
def scanLands : List ScanLand :=
  [.pwrEn, .wake, .alertN, .scl, .sda] ++ pairLands .timeIn ++ pairLands .timeOut ++
  (List.range 2).flatMap (fun m => bothWays (.mgt m)) ++
  (List.range 24).flatMap (fun p => (List.range 8).flatMap (fun l => bothWays (.lane p l)))

/-- A land put into a list that rises by the place that the BSDL file gives each. -/
def placeLand (x : Nat × ScanLand) : List (Nat × ScanLand) → List (Nat × ScanLand)
  | [] => [x]
  | y :: t => if Config.bsdlPlace x.1 ≤ Config.bsdlPlace y.1 then x :: y :: t else y :: placeLand x t

/-- The boundary-scan chain, its cell nearest TDO first: the lands of R455 in the order of the BSDL file, which the spec does not hold
(log entry 3). -/
def scanChain : List ScanLand := ((scanLands.zipIdx.map (fun e => (e.2, e.1))).foldr placeLand []).map (·.2)

/-- The level that a cell captures: PWR_EN is high while the port is powered, and ALERT_N is low while asserted unless the chain has
the lands; the level of any other land comes from outside, a free value (log entry 3). -/
def landLevel (s : State) (free : Bool) : ScanLand → Bool
  | .pwrEn => true
  | .alertN => if s.tap.landsTaken then free else !s.tap.alert
  | _ => free

/-- What the chain captures. -/
def scanCapture (s : State) : List Bool :=
  scanChain.zipIdx.map (fun e => landLevel s (Config.freeBool (s.fresh + e.2)) e.1)

/-- TAP_DR_UPDATE (R453): a data-register scan. Under EXTEST, SAMPLE/PRELOAD and the pulse instructions the bits pass through the
boundary-scan chain (R455), whose cells take at Update-DR what they then hold. What DEBUG_TOKEN and internal debug capture are free
values (log entry 3). -/
def execTapDrUpdate (d : TapScan) (s : State) : Host.Outcome State Fault Refusal :=
  .next (if !s.tap.pwrEn then s else
    let n := d.bits.length
    let free := (List.range n).map (fun i => Config.freeBool (s.fresh + i))
    match s.tap.ir.toNat with
    | 0x02 =>
      let r := scanThrough (bitList 32 tapIdcode) d.bits
      modTap s (fun t => { t with tdo := r.1, shifted := r.2 })
    | 0x40 => modTap (useFresh s n) (fun t => { t with tdo := free, shifted := d.bits, token := d.bits })
    | ir =>
      if ir = 0xFF ∨ ir = 0x03 ∨ ir = 0x04 then
        let r := scanThrough [false] d.bits
        modTap s (fun t => { t with tdo := r.1, shifted := r.2 })
      else if ir ≤ 0x01 ∨ ir = 0x08 ∨ ir = 0x09 then
        let r := scanThrough (scanCapture s) d.bits
        modTap (useFresh s scanLands.length) (fun t => { t with tdo := r.1, shifted := r.2, cells := r.2 })
      else modTap (useFresh s n) (fun t => { t with tdo := free, shifted := d.bits }))

/-- TRST_N_LOW (R454): the TAP alone is reset; the lands are released. -/
def execTrstNLow (s : State) : Host.Outcome State Fault Refusal :=
  .next (modTap s (fun t => { t with ir := 0x02, landsTaken := false, shifted := [], token := [] }))

/-! ### Management ports (R450) -/

/-- MGT_LINK_CHANGE (R450): a management port gains or loses its link, in every power state while ISL is powered. -/
def execMgtLinkChange (m : Fin 2) (up : Bool) (s : State) : Host.Outcome State Fault Refusal :=
  .next (if s.tap.pwrEn then modTap s (fun t => { t with mgtUp := vmod t.mgtUp m.val (fun _ => up) }) else s)

end Sys2Proof.Machine
end

