-- ==== Sys2Proof/Machine/MaintCmd.lean ====
section
/-! DEFINITION. Telemetry commands (R362), COUNTER_CLEAR (R362, R460), EVENT_SUBSCRIBE (R351), the tests of ports, clusters and dies
(R456), and LINK_RETRAIN of a port (R296, R363). -/

namespace Sys2Proof.Machine

/-! ### TELEMETRY_READ -/

/-- Guard records: bytes 64 to 127 of entries (R158), read with a master ID (R353). -/
def guardRecords (s : State) (mid first count : Nat) : Status × List Byte :=
  let recs := (List.range count).map (fun i => guardEntry s (first + i) + 64)
  if 4096 < first + count then (.badParam, [])
  else match firstBad (recs.map (fun a => cmdAccess s mid a 64 .r)) with
    | .done => if recs.any (fun a => poisoned s a 64) then (.degraded, []) else (.done, recs.flatMap (fun a => rdBytes s a 64))
    | st => (st, [])

/-- The address of the first counter of a port (R316). -/
def portCounters (p : Nat) : Nat := ctrlBase + (0x20 + p) * 0x10000 + 0x20

/-- Port records: the 12 counters of a port in offset order (R316), read with a master ID (R353). -/
def portRecords (s : State) (mid first count : Nat) : Status × List Byte :=
  let ps := (List.range count).map (first + ·)
  if 24 < first + count then (.badParam, [])
  else match firstBad (ps.map (fun p => cmdAccess s mid (portCounters p) 96 .r)) with
    | .done => (.done, ps.flatMap (fun p => (List.range 12).flatMap (fun j => leBytes 8 (readPort s p (0x20 + 8 * j)))))
    | st => (st, [])

/-- Event records, counted back from the newest (R352). -/
def eventRecords (s : State) (first count : Nat) : Status × List Byte :=
  if s.cmd.events.length < first + count then (.badParam, [])
  else (.done, ((s.cmd.events.drop first).take count).flatMap (fun e => eventParams e true))

/-- TELEMETRY_READ (R362): RESULT_LEN holds at most 64,000 B (R346), so records that need more give BAD_PARAM (log entry 35). -/
def doTelemetryRead (h : CmdHdr) (kind : Byte) (first count : W16) (s : State) : State :=
  let f := first.toNat
  let n := count.toNat
  if n = 0 ∨ 1024 < n then answer s h 0x0901 .badParam
  else
    let r := match kind.toNat with
      | 0 => guardRecords s h.master.toNat f n
      | 1 => portRecords s h.master.toNat f n
      | 2 => eventRecords s f n
      | _ => (.badParam, [])
    if 64000 < r.2.length then answer s h 0x0901 .badParam else reply (noteAccess s r.1) h 0x0901 r.1 r.2

/-- TELEMETRY_READ (R362). -/
def execTelemetryRead (h : CmdHdr) (kind : Byte) (first count : W16) (s : State) : Host.Outcome State Fault Refusal :=
  .next (cmdStart (.telemetryRead h kind first count) h 0x0901 (doTelemetryRead h kind first count) s)

/-! ### COUNTER_CLEAR -/

/-- The counters of a block of die `k` cleared: arrays (R78), sequencers (R143), engines (R201), memory (R266), links and mesh
(R289). -/
def clearDieBlock (s : State) (k u : Nat) : State :=
  match u with
  | 0x10 => modDie s k (fun d => { d with arrValid := 0, arrFeed := 0, arrDrain := 0, arrThrottle := 0, arrFiller := 0 })
  | 0x20 => modDie s k (fun d => { d with seqInstr := 0, seqFault := 0 })
  | 0x30 => modDie s k (fun d => { d with engBytes := 0 })
  | 0x40 => (List.range 4).foldl (fun t i => modStack t (4 * k + i) (fun u => { u with ue := 0, ce := 0 })) s
  | 0x50 =>
    let s1 := modDie s k (fun d => { d with
      meshReqMax := 0, meshRspMax := 0, meshReq := 0, meshRsp := 0, meshCombined := 0, meshBad := 0 })
    [0, 1, 2].foldl (fun t i => modEnd t (dieEdge k i) (fun l => { l with
      cntFlits := 0, cntCrc := 0, cntReplay := 0, cntTrain := 0 })) s1
  | _ => s

/-- The counters of a port cleared, with the two maxima of its queue depth (R316). -/
def clearPort (p : Port) : Port :=
  { p with txPkts := 0, rxPkts := 0, txBytes := 0, rxBytes := 0, fecCorr := 0, fecUncorr := 0, crc := 0, replayCnt := 0,
           train := 0, qmaxReq := 0, qmaxRsp := 0, stallReq := 0, stallRsp := 0 }

/-- The counters of a block that its chapter says COUNTER_CLEAR clears (R362); a block that holds none is unchanged (R460). -/
def clearBlock (s : State) (b : Nat) : State :=
  if 0x100 ≤ b then clearDieBlock s (b / 0x100 - 1) (b % 0x100)
  else if 0x20 ≤ b ∧ b < 0x38 then modPort s (b - 0x20) clearPort
  else match b with
    | 0x04 => modInvar s (fun v => { v with cntTimeinIgn := 0, cntWindowMissed := 0, cntNotYet := 0, cntLatePost := 0 })
    | 0x08 => { s with guard := { s.guard with untrkElems := 0, untrkSat := 0, untrkNonfin := 0 } }
    | 0x0C => modUpd s (fun u => { u with cntBytes := 0, cntSkipped := 0, cntDone := 0 })
    | 0x10 => modExch s (fun e => { e with cntTx := 0, cntRx := 0, cntStale := 0, cntDup := 0, cntNonfin := 0 })
    | 0x14 => modMem s (fun m => { m with cntHeld := 0, cntCow := 0 })
    | 0x18 => { s with sync := { s.sync with cntRelease := 0 } }
    | 0x1C => { s with fab := { s.fab with
        cntNoroute := 0, cntResend := 0, cntDup := 0, cntEcrc := 0, cntStale := 0, cntUnreach := 0, cntBad := 0 } }
    | 0x38 => { s with sync := { s.sync with cntOps := 0, cntRetry := 0, cntUnderflow := 0, cntOrphan := 0 } }
    | 0x3C => { s with cmd := { s.cmd with cntRx := 0, cntDiscard := 0, cntAuthFail := 0, cntDup := 0, cntBusy := 0 } }
    | 0x40 => { s with twin := { s.twin with cntMatch := 0, cntMismatch := 0, cntReplay := 0, cntHbLost := 0 } }
    | 0x44 => { s with ckpt := { s.ckpt with cntBytes := 0, cntCaptures := 0 } }
    | 0x48 => modCob s (fun c => { c with cntDenied := 0 })
    | 0x4C => modPower s (fun p => { p with
        cntEnergy := 0, cntIfEnergy := 0, cntEnvThr := 0, cntThermThr := 0, cntExcursion := 0 })
    | _ => s

/-- The blocks that a COUNTER_CLEAR names: FIRST and COUNT, or every listed block. -/
def namedBlocks (first count : W16) : List Nat :=
  if count = 0xFFFF then (List.range 0x500).filter listedBlock
  else ((List.range count.toNat).map (first.toNat + ·)).filter listedBlock

/-- A block lies on a fenced die. -/
def blockFenced (s : State) (b : Nat) : Bool := decide (0x100 ≤ b) && dieFenced s (b / 0x100 - 1)

/-- COUNTER_CLEAR (R362): a named block of a fenced die gives DIE_LOST (R31); a sweep of every block leaves such blocks out
(log entry 18). A stopped unit gives BUSY in Hold (R421). -/
def doCounterClear (h : CmdHdr) (first count : W16) (s : State) : State :=
  let bs := namedBlocks first count
  if count ≠ 0xFFFF ∧ bs.any (blockFenced s) then answer s h 0x0902 .dieLost
  else if bs.any (fun b => placeStopped s (.ctrl b 0)) then answer s h 0x0902 .busy
  else answer ((bs.filter (fun b => !blockFenced s b)).foldl clearBlock s) h 0x0902 .done

/-- COUNTER_CLEAR (R362). -/
def execCounterClear (h : CmdHdr) (first count : W16) (s : State) : Host.Outcome State Fault Refusal :=
  .next (cmdStart (.counterClear h first count) h 0x0902 (doCounterClear h first count) s)

/-! ### EVENT_SUBSCRIBE -/

/-- EVENT_SUBSCRIBE (R351): the session's classes, and where its events go. -/
def doEventSubscribe (h : CmdHdr) (classes : W32) (s : State) : State :=
  match sessionOf s h.session with
  | some (slot, x) =>
    let y := { x with classes := classes &&& 0x1FF, port := h.port }
    answer { s with cmd := { s.cmd with sessions := put s.cmd.sessions slot y } } h 0x0903 .done
  | none => answer s h 0x0903 .authFail

/-- EVENT_SUBSCRIBE (R351). -/
def execEventSubscribe (h : CmdHdr) (classes : W32) (s : State) : Host.Outcome State Fault Refusal :=
  .next (cmdStart (.eventSubscribe h classes) h 0x0903 (doEventSubscribe h classes) s)

/-! ### Tests (R456) -/

/-- TEST_RUN PORT_LOOP (R456): the port goes DOWN, and PRBS31 runs for 1 s. A port in FAULT is down already, and no test takes it
from there (R295). -/
def doTestPortLoop (h : CmdHdr) (t : W16) (s : State) : State :=
  if 23 < t.toNat then answer s h 0x0A02 .badParam
  else if testBusy s || loopRuns s t.toNat then answer s h 0x0A02 .busy
  else startLongReply (if (port s t.toNat).pstate = 7 then s else modPort (portLeave s t.toNat 0 none) t.toNat (fun q => { q with ethUp := false })) h 0x0A02 (.port (Fin.ofNat 24 t.toNat) true s.inv.clk)

/-- TEST_RUN PORT_LOOP (R456). -/
def execTestPortLoop (h : CmdHdr) (target : W16) (s : State) : Host.Outcome State Fault Refusal :=
  .next (cmdStart (.testPortLoop h target) h 0x0A02 (doTestPortLoop h target) s)

/-- A PORT_LOOP ends after 1 s: the errors and eye heights that it found are free values (log entry 3), and the port retrains. -/
def slicePort (s : State) (o : LongOp) : State :=
  match o.kind with
  | .port p true t =>
    if clk s < t.toNat + 1000000000 then s
    else
      let s1 := modPort (useFresh s 1) p.val (fun q => { q with
        pstate := if q.pstate = 7 then 7 else BitVec.ofNat 3 (startState q) })
      endLong s1 o .done ((List.range 80).map (Config.freeByte s.fresh))
  | _ => s

/-- A cluster's store lies in a range of store addresses that holds an indexed word (R327). -/
def storeOwned (s : State) (lo hi : Nat) : Bool :=
  s.sync.index.any (fun e => match place e.1.toNat with
    | .store n _ => decide (lo ≤ n) && decide (n < hi)
    | _ => false)

/-- What a test leaves of a cluster (R456, R465): its stores zero, its banks as R465 gives, its generators restored. -/
def testedCluster (s : State) (n : Nat) : State :=
  modCluster { s with mem := s.mem.clearStores n (n + 1) } n (fun k => { k with banks := [], banksFree := none })

/-- TEST_RUN CLUSTER_TEST (R456): whether it passes and which unit fails are free values (log entry 3). -/
def doTestClusterTest (h : CmdHdr) (t : W16) (s : State) : State :=
  let n := t.toNat
  if 4095 < n then answer s h 0x0A02 .badParam
  else if dieFenced s (n / 1024) then answer s h 0x0A02 .dieLost
  else if testBusy s || !(die s (n / 1024)).on || storeOwned s n (n + 1) then answer s h 0x0A02 .busy
  else
    let u := Config.freeNat s.fresh % 6
    reply (testedCluster (useFresh s 1) n) h 0x0A02 .done [BitVec.ofNat 8 (b2n (u != 0)), BitVec.ofNat 8 u]

/-- TEST_RUN CLUSTER_TEST (R456). -/
def execTestClusterTest (h : CmdHdr) (target : W16) (s : State) : Host.Outcome State Fault Refusal :=
  .next (cmdStart (.testClusterTest h target) h 0x0A02 (doTestClusterTest h target) s)

/-- The map of failed positions of a DIE_TEST, from 1,056 free values (log entry 3). -/
def failedMap (f : Nat) : List Byte :=
  (List.range 132).map (fun i => BitVec.ofNat 8 (((List.range 8).map (fun j => b2n (Config.freeBool (f + 8 * i + j)) * 2 ^ j)).sum))

/-- TEST_RUN DIE_TEST (R456): CLUSTER_TEST on every physical cluster of a die, spares included. -/
def doTestDieTest (h : CmdHdr) (t : W16) (s : State) : State :=
  let k := t.toNat
  if 3 < k then answer s h 0x0A02 .badParam
  else if dieFenced s k then answer s h 0x0A02 .dieLost
  else if testBusy s || !(die s k).on || storeOwned s (1024 * k) (1024 * (k + 1)) then answer s h 0x0A02 .busy
  else
    let m := failedMap s.fresh
    let s1 := { s with mem := s.mem.clearStores (1024 * k) (1024 * (k + 1))
                       clusters := s.clusters.map (fun e => if e.1 / 1024 = k then (e.1, { e.2 with banks := [], banksFree := none }) else e) }
    reply (useFresh s1 1056) h 0x0A02 .done (leBytes 4 ((m.map (fun b => popCount 8 b.toNat)).sum) ++ m)

/-- TEST_RUN DIE_TEST (R456). -/
def execTestDieTest (h : CmdHdr) (target : W16) (s : State) : Host.Outcome State Fault Refusal :=
  .next (cmdStart (.testDieTest h target) h 0x0A02 (doTestDieTest h target) s)

/-! ### LINK_RETRAIN of a port -/

/-- LINK_RETRAIN of a fabric port (R296): it goes DOWN and trains again; a port in mode OFF trains no more, with width 0
(log entry 17). -/
def doLinkRetrainPort (h : CmdHdr) (i : Byte) (s : State) : State :=
  let p := i.toNat
  if 23 < p then answer s h 0x0A03 .badParam
  else if (port s p).mode = 0 then reply (portLeave s p 0 (some 5)) h 0x0A03 .done [0]
  else
    let s1 := modPort (portLeave s p 1 (some 5)) p (fun q => { q with ethUp := false })
    startLongReply s1 h 0x0A03 (.port (Fin.ofNat 24 p) false s.inv.clk)

/-- LINK_RETRAIN of a fabric port (R296). -/
def execLinkRetrainPort (h : CmdHdr) (index : Byte) (s : State) : Host.Outcome State Fault Refusal :=
  .next (cmdStart (.linkRetrainPort h index) h 0x0A03 (doLinkRetrainPort h index) s)

end Sys2Proof.Machine
end

