-- ==== Sys2Proof/Machine/StackMem.lean ====
section
/-! DEFINITION. Stack memory in service (R248 to R254): corrected and uncorrectable reads, scrubbing, sparing, retirement and the
loss of training; and STACK_TEST (R456). -/

namespace Sys2Proof.Machine

/-- Lines of a stack. -/
def stackLines64 : Nat := stackLen / 64

/-- A stack serves accesses: UP, on a die whose domain is powered. -/
def stackServes (s : State) (k : Nat) : Bool := (stackUnit s k).st == .up && (die s (k / 4)).on

/-- The linear number of a line of a stack. -/
def stackLineNo (k line : Nat) : Nat := k * stackLines64 + line

/-- A correctable error met by a read of a line (R248): counted; the line keeps its data. -/
def correctLine (s : State) (k line : Nat) : State :=
  if s.poison.contains (stackLineNo k line) then s else
  modStack s k (fun u => { u with ce := satAdd u.ce 1, corrected := insertNat u.corrected line })

/-- STACK_CORRECTED_READ (R248). -/
def execStackCorrectedRead (k : Fin 16) (offset : Nat) (s : State) : Host.Outcome State Fault Refusal :=
  .next (if stackServes s k.val ∧ offset < stackLen then correctLine s k.val (offset / 64) else s)

/-- An uncorrectable error (R249): counted, reported, and the line is poisoned. A line poisoned already is not counted again. -/
def spoilLine (s : State) (k line : Nat) : State :=
  let l := stackLineNo k line
  if s.poison.contains l then s else
  let s1 := modStack { s with poison := insertNat s.poison l } k (fun u => { u with ue := satAdd u.ue 1 })
  wakeLine (raise s1 evMemory (Config.eventCode evMemory 1) (leBytes 8 (64 * l))) l

/-- STACK_UNCORRECTABLE (R249). -/
def execStackUncorrectable (k : Fin 16) (offset : Nat) (s : State) : Host.Outcome State Fault Refusal :=
  .next (if stackServes s k.val ∧ offset < stackLen then spoilLine s k.val (offset / 64) else s)

/-! ### Sparing and retirement (R252, R253) -/

/-- A page of a stack is retired into the reserve (R253): its address, its bytes and its poison stay. Beyond 4,096 pages a memory
event reports that retirement is exhausted. -/
def retirePage (s : State) (k page : Nat) : State :=
  let u := stackUnit s k
  if u.redirects.contains page then s
  else if u.redirects.length < 4096 then
    modStack s k (fun u => { u with redirects := u.redirects ++ [page], pagesRetired := satAdd u.pagesRetired 1 })
  else raise s evMemory (Config.eventCode evMemory 2) (leBytes 8 (k * stackLen + 4096 * page))

/-- The row of a line of a stack (R243: a fixed order that the manual does not give; log entry 3). -/
def rowOfLine (k line : Nat) : Nat := Config.rowOf (Fin.ofNat 16 k) (64 * line)

/-- A row is to be spared (R252): two of its lines were corrected in this interval, or one in this and the last. -/
def rowFails (u : StackUnit) (k row : Nat) : Bool :=
  let mine := u.corrected.filter (fun l => rowOfLine k l == row)
  decide (2 ≤ mine.length) || mine.any u.correctedPrev.contains

/-- The pages of a failing row: those of its corrected lines, and the others that hold a byte of it (R243: the manual does not
give which; log entry 3). -/
def pagesOfRow (u : StackUnit) (k row : Nat) : List Nat :=
  ((u.corrected.filter (fun l => rowOfLine k l == row)).map (· / 64) ++
    (Config.rowPages (Fin.ofNat 16 k) row).filter (fun p => decide (p < stackLen / 4096))).dedup

/-- ROW_SPARE (R252): a soft repair of a failing row, recorded in the repair log; with no spare row left its pages are
retired. -/
def execRowSpare (k : Fin 16) (row : Nat) (s : State) : Host.Outcome State Fault Refusal :=
  .next (
    let u := stackUnit s k.val
    if !stackServes s k.val || !rowFails u k.val row then s
    else
      let done := modStack s k.val (fun u => { u with
        corrected := u.corrected.filter (fun l => rowOfLine k.val l != row)
        correctedPrev := u.correctedPrev.filter (fun l => rowOfLine k.val l != row) })
      if u.repairs.length < Config.spareRows k then
        modStack done k.val (fun u => { u with rowsSpared := satAdd u.rowsSpared 1, repairs := u.repairs ++ [row] })
      else (pagesOfRow u k.val row).foldl (fun t p => retirePage t k.val p) done)

/-- PAGE_RETIRE (R253): a page that holds a poisoned line. -/
def execPageRetire (k : Fin 16) (page : Nat) (s : State) : Host.Outcome State Fault Refusal :=
  .next (if stackServes s k.val && (List.range 64).any (fun i => s.poison.contains (stackLineNo k.val (64 * page + i))) then
    retirePage s k.val page else s)

/-! ### Scrubbing (R251) -/

/-- The SCRUB_RUN in progress. -/
def scrubOp (s : State) : Option (LongOp × W16) :=
  s.cmd.longs.findSome? (fun o => match o.kind with
    | .scrub m => some (o, m)
    | _ => none)

/-- A SCRUB_RUN whose stacks have all been read ends. -/
def scrubSettle (s : State) : State :=
  match scrubOp s with
  | some (o, _) => if s.stk.toList.all (fun u => u.scrubRun.isNone) then endLong s o .done [] else s
  | none => s

/-- A line read by a SCRUB_RUN is counted. -/
def scrubCount (s : State) (k : Nat) : State :=
  match (stackUnit s k).scrubRun, scrubOp s with
  | some n, some (o, _) =>
    scrubSettle (modStack (modLong s o.id (fun x => { x with cursor := x.cursor + 1 })) k
      (fun u => { u with scrubRun := if n ≤ 1 then none else some (n - 1) }))
  | _, _ => s

/-- The scrub position moves on; at the end of the stack an interval ends (R251, R252). -/
def scrubNext (u : StackUnit) : StackUnit :=
  if u.scrubLine + 1 < stackLines64 then { u with scrubLine := u.scrubLine + 1 }
  else { u with scrubLine := 0, correctedPrev := u.corrected, corrected := [] }

/-- A SCRUB_RUN ends on a fenced stack. -/
def scrubLost (s : State) (k : Nat) : State :=
  match (stackUnit s k).scrubRun, scrubOp s with
  | some _, some (o, _) =>
    endLong { s with stk := s.stk.map (fun u => { u with scrubRun := none }) } o .dieLost []
  | _, _ => s

/-- The line that a stack's scrub reads next (R251): of the immediate pass while one runs, which has a position of its own, else
of patrol scrub, which stands still meanwhile (log entry 85). -/
def scrubAt (u : StackUnit) : Nat :=
  match u.scrubRun with
  | some n => stackLines64 - n
  | none => u.scrubLine

/-- SCRUB_LINE (R251): the next line of a stack is read, corrected or poisoned. Patrol scrub pauses in Hold (R418). -/
def execScrubLine (k : Fin 16) (corrected uncorrectable : Bool) (s : State) : Host.Outcome State Fault Refusal :=
  .next (
    if (stackUnit s k.val).st = .fenced then scrubLost s k.val
    else if !stackServes s k.val || (s.power.st == 1 && (stackUnit s k.val).scrubRun.isNone) then s
    else
      let line := scrubAt (stackUnit s k.val)
      let s1 := if uncorrectable then spoilLine s k.val line else if corrected then correctLine s k.val line else s
      if (stackUnit s k.val).scrubRun.isSome then scrubCount s1 k.val else modStack s1 k.val scrubNext)

/-- SCRUB_RUN (R251): BUSY during an update pass, and while another runs. -/
def doScrubRun (h : CmdHdr) (mask : W16) (s : State) : State :=
  let ks := (List.range 16).filter (fun k => mask.getLsbD k)
  if ks.any (fun k => (stackUnit s k).st == .fenced) then answer s h 0x0A01 .dieLost
  else if passRuns s || (scrubOp s).isSome || !ks.all (stackServes s) then answer s h 0x0A01 .busy
  else if ks.isEmpty then answer s h 0x0A01 .done
  else startLongReply (ks.foldl (fun t k => modStack t k (fun u => { u with scrubRun := some stackLines64 })) s) h 0x0A01
    (.scrub mask)

/-- SCRUB_RUN (R251). -/
def execScrubRun (h : CmdHdr) (mask : W16) (s : State) : Host.Outcome State Fault Refusal :=
  .next (cmdStart (.scrubRun h mask) h 0x0A01 (doScrubRun h mask) s)

/-! ### Training and tests -/

/-- A stack in self-refresh that an exit from Bank retrains (R247). -/
def stackWakes (s : State) (k : Nat) : Bool := (stackUnit s k).st == .selfRefresh && s.power.exiting && s.power.st == 2

/-- STACK_TRAINING_LOSS (R254): retrained once; when that fails, the stack is fenced. On a stack that an exit from Bank brings back
from self-refresh it says that its retraining has failed twice (R247; log entry 85). -/
def execStackTrainingLoss (k : Fin 16) (retrained : Bool) (s : State) : Host.Outcome State Fault Refusal :=
  .next (if !(stackServes s k.val || stackWakes s k.val) ∨ retrained then s else fenceStack s k.val)

/-- TEST_RUN STACK_TEST (R456): patterns in the test pages of the reserve; the counts it finds are free values (log entry 3). -/
def doTestStackTest (h : CmdHdr) (t : W16) (s : State) : State :=
  if 15 < t.toNat then answer s h 0x0A02 .badParam
  else if (stackUnit s t.toNat).st = .fenced ∨ dieFenced s (t.toNat / 4) then answer s h 0x0A02 .dieLost
  else if testBusy s || !stackServes s t.toNat then answer s h 0x0A02 .busy
  else reply (useFresh s 3) h 0x0A02 .done ((List.range 3).flatMap (fun i => leBytes 8 (Config.free64 (s.fresh + i)).toNat))

/-- TEST_RUN STACK_TEST (R456). -/
def execTestStackTest (h : CmdHdr) (target : W16) (s : State) : Host.Outcome State Fault Refusal :=
  .next (cmdStart (.testStackTest h target) h 0x0A02 (doTestStackTest h target) s)

end Sys2Proof.Machine
end

