-- ==== Sys2Proof/Machine/SyncCmd.lean ====
section
/-! DEFINITION. Sync commands (R358): SYNC_INIT, the five SYNC_OPs, and BARRIER_ARM with its two actions. -/

namespace Sys2Proof.Machine

/-! ### SYNC_INIT (R327) -/

/-- The owner codes that R326 defines. -/
def ownerOk (c : Nat) : Bool :=
  decide (c ≤ 0x403F) || (decide (0x4800 ≤ c) && decide (c ≤ 0x483F)) || c == 0x7FFF

/-- The owner index without a word, by any of its addresses (R327). -/
def indexWithout (s : State) (a : Nat) : List (Addr48 × W16) := s.sync.index.filter (fun e => !sameWord e.1.toNat a)

/-- An entry of the owner index as it stands in memory (R327). -/
def ownerEntry (e : Addr48 × W16) : List Byte := leBytes 8 e.1.toNat ++ leBytes 2 e.2.toNat ++ List.replicate 6 0

/-- The owner index takes new entries: from the first that differs on it is written at SYNC_TABLE_BASE, with zeros where entries have
gone (R327; log entry 38). -/
def writeIndex (s : State) (idx : List (Addr48 × W16)) : State :=
  let old := s.sync.index
  let p := ((old.zip idx).takeWhile (fun e => e.1 == e.2)).length
  let bs := (idx.drop p).flatMap ownerEntry ++ List.replicate (16 * (old.length - idx.length)) 0
  wrBytes { s with sync := { s.sync with index := idx } } (s.sync.tableBase.toNat + 16 * p) bs

/-- A word initialised (R327): VALUE and OWNER written, ORPHAN clear, its index entry as OWNER says, its monitors disarmed, its
waiters woken. A monitor whose threshold was met before still makes its ADD (R324). -/
def initWord (s : State) (a v owner : Nat) : State :=
  let idx := indexWithout s a
  let s1 := wrNat (writeIndex s (if owner = 0x7FFF then idx else idx ++ [(BitVec.ofNat 48 a, BitVec.ofNat 16 owner)])) a 8
    (v + owner * 2 ^ 48)
  let s2 := { s1 with sync := { s1.sync with
    orphans := s1.sync.orphans.filter (fun x => !sameWord x.toNat a)
    monitors := s1.sync.monitors.filter (fun m => m.due || !sameWord m.addr.toNat a) } }
  wakeWord s2 a

/-- SYNC_INIT (R327). -/
def doSyncInit (h : CmdHdr) (addr value : W64) (owner : W16) (s : State) : State :=
  let a := addr.toNat
  match cmdAccess s h.master.toNat a 8 .atomic with
  | .badParam => answer s h 0x0501 .badParam
  | st =>
    if !wordPlace a ∨ 2 ^ 48 ≤ value.toNat ∨ !ownerOk owner.toNat then answer s h 0x0501 .badParam
    else if st ≠ .done then answer (noteAccess s st) h 0x0501 st
    else if owner ≠ 0x7FFF ∧ 65536 ≤ (indexWithout s a).length then answer s h 0x0501 .busy
    else if poisoned s a 8 then answer s h 0x0501 .degraded
    else answer (initWord (meshTrip s h.master.toNat a 8 true) a value.toNat owner.toNat) h 0x0501 .done

/-- SYNC_INIT (R327). -/
def execSyncInit (h : CmdHdr) (addr value : W64) (owner : W16) (s : State) : Host.Outcome State Fault Refusal :=
  .next (cmdStart (.syncInit h addr value owner) h 0x0501 (doSyncInit h addr value owner) s)

/-! ### SYNC_OP (R320 to R324) -/

/-- A SYNC_OP of the controller (R358): the observed value is its result. A unit that Hold has stopped gives BUSY (R421). -/
def doSyncOp (h : CmdHdr) (addr : W64) (sop n : Nat) (notify : W64) (s : State) : State :=
  if touchesStopped s addr.toNat 8 then answer s h 0x0502 .busy else
  let r := ownSync s h.master.toNat addr.toNat sop n (false, notify)
  reply r.1 h 0x0502 r.2.1 (leBytes 8 r.2.2)

/-- SYNC_OP ADD (R320). -/
def execSyncOpAdd (h : CmdHdr) (addr : W64) (n : Addr48) (s : State) : Host.Outcome State Fault Refusal :=
  .next (cmdStart (.syncOpAdd h addr n) h 0x0502 (doSyncOp h addr 0 n.toNat 0) s)

/-- SYNC_OP DEC (R320). -/
def execSyncOpDec (h : CmdHdr) (addr : W64) (n : Addr48) (s : State) : Host.Outcome State Fault Refusal :=
  .next (cmdStart (.syncOpDec h addr n) h 0x0502 (doSyncOp h addr 1 n.toNat 0) s)

/-- SYNC_OP TAKE (R320). -/
def execSyncOpTake (h : CmdHdr) (addr : W64) (s : State) : Host.Outcome State Fault Refusal :=
  .next (cmdStart (.syncOpTake h addr) h 0x0502 (doSyncOp h addr 2 0 0) s)

/-- SYNC_OP WAIT (R322): it never blocks. -/
def execSyncOpWait (h : CmdHdr) (addr : W64) (n : Addr48) (s : State) : Host.Outcome State Fault Refusal :=
  .next (cmdStart (.syncOpWait h addr n) h 0x0502 (doSyncOp h addr 3 n.toNat 0) s)

/-- SYNC_OP MONITOR (R324). -/
def execSyncOpMonitor (h : CmdHdr) (addr : W64) (n : Addr48) (notify : W64) (s : State) : Host.Outcome State Fault Refusal :=
  .next (cmdStart (.syncOpMonitor h addr n notify) h 0x0502 (doSyncOp h addr 4 n.toNat notify) s)

/-! ### BARRIER_ARM (R331 to R333) -/

/-- BARRIER_ARM with ACTION 0 (R332, R333): DEFERRED while a disarm waits, replacing an earlier deferred arm. -/
def doBarrierArm (h : CmdHdr) (channel group : Byte) (s : State) : State :=
  let ch := channel.toNat
  if 15 < ch then answer s h 0x0503 .badParam else
  let b := barrier s ch
  if b.disarming then
    let s1 := match b.deferred with
      | some (q, _) => answer s q 0x0503 .retry
      | none => s
    answer (modBarrier s1 ch (fun b => { b with deferred := some (h, group) })) h 0x0503 .deferred
  else if !b.arrived.isEmpty then answer s h 0x0503 .busy
  else answer (modBarrier s ch (fun b => { b with armed := some (group, 0) })) h 0x0503 .done

/-- BARRIER_ARM arming a channel (R331). -/
def execBarrierArm (h : CmdHdr) (channel group : Byte) (s : State) : Host.Outcome State Fault Refusal :=
  .next (cmdStart (.barrierArm h channel group) h 0x0503 (doBarrierArm h channel group) s)

/-- BARRIER_ARM with ACTION 1 (R332): at once, or when the episode's collective ends; a deferred arm is cancelled. -/
def doBarrierDisarm (h : CmdHdr) (channel : Byte) (s : State) : State :=
  let ch := channel.toNat
  if 15 < ch then answer s h 0x0503 .badParam else
  let s1 := match (barrier s ch).deferred with
    | some (q, _) => answer (modBarrier s ch (fun b => { b with deferred := none })) q 0x0503 .retry
    | none => s
  answer (settleDisarm (modBarrier s1 ch (fun b => { b with disarming := b.armed.isSome })) ch) h 0x0503 .done

/-- BARRIER_ARM disarming a channel (R332). -/
def execBarrierDisarm (h : CmdHdr) (channel : Byte) (s : State) : Host.Outcome State Fault Refusal :=
  .next (cmdStart (.barrierDisarm h channel) h 0x0503 (doBarrierDisarm h channel) s)

end Sys2Proof.Machine
end

