-- ==== Sys2Proof/Machine/Procs.lean ====
section
/-! DEFINITION. The command processors (R345, R349): a queued command starts, a long operation runs a slice or reports its
progress. -/

namespace Sys2Proof.Machine

/-- The next state of an outcome; a command always has one. -/
def outState (o : Host.Outcome State Fault Refusal) (s : State) : State :=
  match o with
  | .next t => t
  | _ => s

/-- A command starts: the row that its message spells. -/
def runCmd (i : Instr) (s : State) : State :=
  match i with
  | .sessionOpen h wc header tag cred ek nonce sig => outState (execSessionOpen h wc header tag cred ek nonce sig s) s
  | .sessionClose h => outState (execSessionClose h s) s
  | .attest h nonce sets => outState (execAttest h nonce sets s) s
  | .keyRotate h ek => outState (execKeyRotate h ek s) s
  | .regRead h addr count => outState (execRegRead h addr count s) s
  | .regWrite h addr count values => outState (execRegWrite h addr count values s) s
  | .memRead h src len => outState (execMemRead h src len s) s
  | .memWrite h dst len data => outState (execMemWrite h dst len data s) s
  | .memCopy h src dst len caddr cval slice => outState (execMemCopy h src dst len caddr cval slice s) s
  | .memFill h dst len pattern slice => outState (execMemFill h dst len pattern slice s) s
  | .programLoad h src len offset first count slice => outState (execProgramLoad h src len offset first count slice s) s
  | .streamStart h form banks entLo entHi pc xs => outState (execStreamStart h form banks entLo entHi pc xs s) s
  | .streamStop h => outState (execStreamStop h s) s
  | .streamStatus h count => outState (execStreamStatus h count s) s
  | .seedSet h seed first count sets slice => outState (execSeedSet h seed first count sets slice s) s
  | .stepBegin h epoch => outState (execStepBegin h epoch s) s
  | .stepCommit h epoch => outState (execStepCommit h epoch s) s
  | .updateRun h gscale tau normScope ngroup => outState (execUpdateRun h gscale tau normScope ngroup s) s
  | .exchangeStart h p => outState (execExchangeStart h p s) s
  | .groupTableLoad h groups tensors tcount => outState (execGroupTableLoad h groups tensors tcount s) s
  | .precondRefresh h group e => outState (execPrecondRefresh h group e s) s
  | .syncInit h addr value owner => outState (execSyncInit h addr value owner s) s
  | .syncOpAdd h addr n => outState (execSyncOpAdd h addr n s) s
  | .syncOpDec h addr n => outState (execSyncOpDec h addr n s) s
  | .syncOpTake h addr => outState (execSyncOpTake h addr s) s
  | .syncOpWait h addr n => outState (execSyncOpWait h addr n s) s
  | .syncOpMonitor h addr n notify => outState (execSyncOpMonitor h addr n notify s) s
  | .barrierArm h channel group => outState (execBarrierArm h channel group s) s
  | .barrierDisarm h channel => outState (execBarrierDisarm h channel s) s
  | .timeSet h ft => outState (execTimeSet h ft s) s
  | .timeQuery h => outState (execTimeQuery h s) s
  | .schedulePost h due repeatNs times message => outState (execSchedulePost h due repeatNs times message s) s
  | .scheduleCancel h entry => outState (execScheduleCancel h entry s) s
  | .ckptCapture h epoch dest manifest nreg => outState (execCkptCapture h epoch dest manifest nreg s) s
  | .ckptRestore h epoch src manifest nreg => outState (execCkptRestore h epoch src manifest nreg s) s
  | .twinJoin h epoch => outState (execTwinJoin h epoch s) s
  | .twinSole h => outState (execTwinSole h s) s
  | .replay h epoch => outState (execReplay h epoch s) s
  | .remapCluster h logical spareRow => outState (execRemapCluster h logical spareRow s) s
  | .reshard h epoch layout => outState (execReshard h epoch layout s) s
  | .digestQuery h epoch => outState (execDigestQuery h epoch s) s
  | .powerStateHold h => outState (execPowerStateHold h s) s
  | .powerStateBank h => outState (execPowerStateBank h s) s
  | .powerStateDark h => outState (execPowerStateDark h s) s
  | .powerStateRun h => outState (execPowerStateRun h s) s
  | .modeSet h mode => outState (execModeSet h mode s) s
  | .envelopeSet h target floor slew => outState (execEnvelopeSet h target floor slew s) s
  | .fwStage h src len slot flashOk slice => outState (execFwStage h src len slot flashOk slice s) s
  | .fwActivateNextBoot h slot => outState (execFwActivateNextBoot h slot s) s
  | .fwActivateNow h slot => outState (execFwActivateNow h slot s) s
  | .accessTableSet h target first count entries => outState (execAccessTableSet h target first count entries s) s
  | .telemetryRead h kind first count => outState (execTelemetryRead h kind first count s) s
  | .counterClear h first count => outState (execCounterClear h first count s) s
  | .eventSubscribe h classes => outState (execEventSubscribe h classes s) s
  | .scrubRun h mask => outState (execScrubRun h mask s) s
  | .testPortLoop h target => outState (execTestPortLoop h target s) s
  | .testEdgePrbs h target => outState (execTestEdgePrbs h target s) s
  | .testStackTest h target => outState (execTestStackTest h target s) s
  | .testClusterTest h target => outState (execTestClusterTest h target s) s
  | .testDieTest h target => outState (execTestDieTest h target s) s
  | .linkRetrainEdge h index => outState (execLinkRetrainEdge h index s) s
  | .linkRetrainPort h index => outState (execLinkRetrainPort h index s) s
  | _ => s

/-! ### Which command starts (R345) -/

/-- Commands of a session that have started and not yet ended with a final status: long operations, reads and writes of other
packages, starts and arms held DEFERRED, power-state requests, pending remaps, and wake-class commands that wait. -/
def unfinished (s : State) : List CmdHdr :=
  s.cmd.longs.map (fun o => o.hdr) ++ s.cmd.waits.map (fun w => w.hdr) ++
  s.clusters.flatMap (fun e => e.2.streams.toList.filterMap (fun t => t.deferred.map (fun p => p.hdr))) ++
  s.sync.barriers.toList.filterMap (fun b => b.deferred.map (fun p => p.1)) ++ s.power.deferredRun.toList ++
  s.power.next.map (fun p => p.2) ++ s.dies.toList.flatMap (fun d => (d.pending ++ d.due).map (fun p => p.2.2)) ++
  (s.power.buffer ++ s.cmd.held ++ s.cmd.ready).filterMap (fun i => (cmdOf i).map (fun p => p.1))

/-- Whether a command may start, given the queue before it (R345): no earlier command of its stream waits, and with SERIAL every
earlier command of its session has ended. -/
def mayStart (s : State) (earlier : List QCmd) (q : QCmd) : Bool :=
  !(q.hdr.stream != 0xFFFF && earlier.any (fun e => e.hdr.stream == q.hdr.stream)) &&
  !(q.serial && (earlier.any (fun e => e.hdr.session == q.hdr.session) ||
    (unfinished s).any (fun h => h.session == q.hdr.session && hdrBefore h q.hdr)))

/-- The first command of a queue that may start, and the queue without it. -/
def pickCmd (s : State) (earlier : List QCmd) : List QCmd → Option (QCmd × List QCmd)
  | [] => none
  | q :: t => if mayStart s earlier q then some (q, earlier ++ t) else pickCmd s (earlier ++ [q]) t

/-- A command taken from the queue starts; a field with a reserved value is BAD_PARAM (R15). Whether the flash takes what FW_STAGE
writes is a free value (log entry 3). -/
def startQueued (s : State) (q : QCmd) (slice : Nat) : State :=
  match parseCmd q slice (Config.freeBool s.fresh) with
  | some i => runCmd i (useFresh s 1)
  | none => answer s q.hdr q.opcode.toNat .badParam

/-- COMMAND_PROCESSOR_START (R345): a free processor takes a wake-class command that Run has released, or else the first command
of the queue that may start. Eight processors; a command that waits for another package or for an edge that trains (R276) keeps its own. -/
def execCommandProcessorStart (slice : Nat) (s : State) : Host.Outcome State Fault Refusal :=
  .next (
    if !served s || decide (8 ≤ s.cmd.waits.length + s.cmd.held.length) then s else
    match s.cmd.ready with
    | i :: r => runCmd i (modCmd s (fun c => { c with ready := r }))
    | [] =>
      match pickCmd s [] s.cmd.queue with
      | some (q, rest) => startQueued (modCmd s (fun c => { c with queue := rest })) q slice
      | none => s)

/-! ### Long operations (R349) -/

/-- The processor's part of a long operation: a slice of `n` units of its work. -/
def runSlice (s : State) (o : LongOp) (n : Nat) : State :=
  match o.kind with
  | .memCopy _ _ _ _ _ _ _ _ _ => sliceCopy s o n
  | .memFill _ _ _ _ _ => sliceFill s o n
  | .programLoad _ _ _ _ _ _ => if s.power.st = 0 then sliceLoad s o n else s
  | .seedSet _ _ _ _ _ => if s.power.st = 0 then sliceSeed s o n else s
  | .fwStage src len slot d ok => stageSlice s o src len slot d ok n
  | .replay => sliceReplay s
  | .reshard _ => sliceReshard s o
  | .port _ _ _ => slicePort s o
  | .edge _ _ => sliceEdge s o
  | .exchange id => resumeOp s id
  | _ => s

/-- LONG_OP_SLICE (R349): an operation that the processors carry out resumes for its next slice, while the IOD runs. -/
def execLongOpSlice (id n : Nat) (s : State) : Host.Outcome State Fault Refusal :=
  .next (
    if !served s || decide (2 ≤ s.power.st.toNat) then s else
    match longOp s id with
    | some o => runSlice s o n
    | none => s)

/-- What has become of a long operation since its last reply: a pass has finished tiles (R168). -/
def ageLong (s : State) (o : LongOp) : State :=
  if o.kind = .updateRun ∧ (s.upd.phase = 1 ∨ s.upd.phase = 3) ∧ engineRuns s then advanceTiles s (passTiles s) else s

/-- LONG_OP_PROGRESS (R349): IN_PROGRESS again after CMD_PROGRESS_MS, with the cursor as it now is. -/
def execLongOpProgress (id : Nat) (s : State) : Host.Outcome State Fault Refusal :=
  .next (match longOp s id with
    | some o =>
      if o.lastReply.toNat + s.cmd.progressMs.toNat * 1000000 ≤ clk s then
        let s1 := ageLong s o
        replyFull (modLong s1 id (fun x => { x with lastReply := s.inv.clk })) o.hdr o.opcode.toNat .inProgress []
          (match longOp s1 id with
           | some x => x.cursor.toNat
           | none => 0) s.memblk.epoch
      else s
    | none => s)

end Sys2Proof.Machine
end

