-- ==== Sys2Proof/Machine/RegWrite.lean ====
section
/-! DEFINITION. The register writes of the opcode table (R464): each names its register; the status goes into `lastStatus`. -/

namespace Sys2Proof.Machine

/-- Address of an offset of a control block (R25). -/
def ctrlAddr (b o : Nat) : Nat := ctrlBase + b * 0x10000 + o

/-- A write with its status as the last one recorded. -/
def noteWrite (r : State × Status) : State := { r.1 with lastStatus := r.2 }

/-- A write of a register of a block by a master (R464). -/
def writeCtrl (s : State) (mid : W16) (b o : Nat) (v : W64) : State := noteWrite (writeAt s mid.toNat (ctrlAddr b o) 8 v.toNat)

/-- PKG_ID_WRITE (R34, R307, R435). -/
def execPkgIdWrite (mid : W16) (v : W64) (s : State) : Host.Outcome State Fault Refusal := .next (writeCtrl s mid 0x00 0x08 v)

/-- FT_CTL_WRITE (R42, R463). -/
def execFtCtlWrite (mid : W16) (v : W64) (s : State) : Host.Outcome State Fault Refusal := .next (writeCtrl s mid 0x04 0x10 v)

/-- FT_TICK_WRITE (R43). -/
def execFtTickWrite (mid : W16) (v : W64) (s : State) : Host.Outcome State Fault Refusal := .next (writeCtrl s mid 0x04 0x18 v)

/-- GUARD_REG_WRITE (R166, R167). -/
def execGuardRegWrite (mid off : W16) (v : W64) (s : State) : Host.Outcome State Fault Refusal :=
  .next (writeCtrl s mid 0x08 off.toNat v)

/-- UPD_REG_WRITE (R200, R202). -/
def execUpdRegWrite (mid off : W16) (v : W64) (s : State) : Host.Outcome State Fault Refusal :=
  .next (writeCtrl s mid 0x0C off.toNat v)

/-- EX_REG_WRITE (R242). -/
def execExRegWrite (mid off : W16) (v : W64) (s : State) : Host.Outcome State Fault Refusal :=
  .next (writeCtrl s mid 0x10 off.toNat v)

/-- MEM_COW_WRITE (R267): MEM_COW_BASE at 0x38 or MEM_COW_SIZE at 0x40 of a die; another offset is no such register. -/
def execMemCowWrite (mid : W16) (k : Fin 4) (off : W16) (v : W64) (s : State) : Host.Outcome State Fault Refusal :=
  .next (if off = 0x38 ∨ off = 0x40 then writeCtrl s mid (0x100 * (k.val + 1) + 0x40) off.toNat v else s)

/-- MEM_ACCT_PROG_WRITE (R267). -/
def execMemAcctProgWrite (mid : W16) (k : Fin 4) (v : W64) (s : State) : Host.Outcome State Fault Refusal :=
  .next (writeCtrl s mid (0x100 * (k.val + 1) + 0x40) 0x20 v)

/-- MEM_SCRUB_WRITE (R251, R266). -/
def execMemScrubWrite (mid : W16) (k : Fin 4) (v : W64) (s : State) : Host.Outcome State Fault Refusal :=
  .next (writeCtrl s mid (0x100 * (k.val + 1) + 0x40) 0x48 v)

/-- BAR_MASK_WRITE (R287, R289). -/
def execBarMaskWrite (mid : W16) (k : Fin 4) (ch w : Fin 16) (v : W64) (s : State) : Host.Outcome State Fault Refusal :=
  .next (writeCtrl s mid (0x100 * (k.val + 1) + 0x50) (0x100 + 0x80 * ch.val + 8 * w.val) v)

/-- FAB_CTL_WRITE (R315, R317). -/
def execFabCtlWrite (mid off : W16) (v : W64) (s : State) : Host.Outcome State Fault Refusal :=
  .next (writeCtrl s mid 0x1C off.toNat v)

/-- FAB_PORT_CFG_WRITE (R317). -/
def execFabPortCfgWrite (mid : W16) (p : Fin 24) (v : W64) (s : State) : Host.Outcome State Fault Refusal :=
  .next (writeCtrl s mid (0x20 + p.val) 0x00 v)

/-- SYNC_TABLE_BASE_WRITE (R335). -/
def execSyncTableBaseWrite (mid : W16) (v : W64) (s : State) : Host.Outcome State Fault Refusal :=
  .next (writeCtrl s mid 0x38 0x08 v)

/-- CMD_CTL_WRITE (R364, R365). -/
def execCmdCtlWrite (mid off : W16) (v : W64) (s : State) : Host.Outcome State Fault Refusal :=
  .next (writeCtrl s mid 0x3C off.toNat v)

/-- TWIN_REG_WRITE (R387). -/
def execTwinRegWrite (mid off : W16) (v : W64) (s : State) : Host.Outcome State Fault Refusal :=
  .next (writeCtrl s mid 0x40 off.toNat v)

/-- COB_CRED_INSTALL (R397, R409). -/
def execCobCredInstall (mid : W16) (v : W64) (s : State) : Host.Outcome State Fault Refusal := .next (writeCtrl s mid 0x48 0x08 v)

/-- COB_DEBUG_UNLOCK (R407, R409). -/
def execCobDebugUnlock (mid : W16) (v : W64) (s : State) : Host.Outcome State Fault Refusal := .next (writeCtrl s mid 0x48 0x20 v)

/-- COB_ACC_SEL_WRITE (R409). -/
def execCobAccSelWrite (mid : W16) (v : W64) (s : State) : Host.Outcome State Fault Refusal := .next (writeCtrl s mid 0x48 0xFF8 v)

/-- PWR_WAKE_WRITE (R428): PWR_WAKE_CFG at 0x18 or PWR_WAKE_FT at 0x20; another offset is no such register. -/
def execPwrWakeWrite (mid off : W16) (v : W64) (s : State) : Host.Outcome State Fault Refusal :=
  .next (if off = 0x18 ∨ off = 0x20 then writeCtrl s mid 0x4C off.toNat v else s)

/-- PWR_THERM_CFG_WRITE (R428). -/
def execPwrThermCfgWrite (mid : W16) (v : W64) (s : State) : Host.Outcome State Fault Refusal := .next (writeCtrl s mid 0x4C 0x30 v)

/-- REGISTER_WRITE (R464): any address and size. -/
def execRegisterWrite (mid : W16) (addr : W64) (size : Nat) (v : W64) (s : State) : Host.Outcome State Fault Refusal :=
  .next (noteWrite (writeAt s mid.toNat addr.toNat size v.toNat))

end Sys2Proof.Machine
end

