-- ==== Sys2Proof/Machine/Dispatch.lean ====
section
/-! DEFINITION. The dispatch of the package's commands: one arm for each row of the opcode table. -/

namespace Sys2Proof.Machine

/-- The effect of a command on everything but the queue. -/
def exec (i : Instr) (s : State) : Host.Outcome State Fault Refusal :=
  match i with
  | .sessionOpen h wc header tag cred ek nonce sig => Sys2Proof.Machine.execSessionOpen h wc header tag cred ek nonce sig s
  | .sessionClose h => Sys2Proof.Machine.execSessionClose h s
  | .sessionInactivityExpiry slot => Sys2Proof.Machine.execSessionInactivityExpiry slot s
  | .attest h nonce sets => Sys2Proof.Machine.execAttest h nonce sets s
  | .keyRotate h ek => Sys2Proof.Machine.execKeyRotate h ek s
  | .regRead h addr count => Sys2Proof.Machine.execRegRead h addr count s
  | .regWrite h addr count values => Sys2Proof.Machine.execRegWrite h addr count values s
  | .memRead h src len => Sys2Proof.Machine.execMemRead h src len s
  | .memWrite h dst len data => Sys2Proof.Machine.execMemWrite h dst len data s
  | .memCopy h src dst len caddr cval slice => Sys2Proof.Machine.execMemCopy h src dst len caddr cval slice s
  | .memFill h dst len pattern slice => Sys2Proof.Machine.execMemFill h dst len pattern slice s
  | .programLoad h src len offset first count slice => Sys2Proof.Machine.execProgramLoad h src len offset first count slice s
  | .streamStart h form banks entLo entHi pc xs => Sys2Proof.Machine.execStreamStart h form banks entLo entHi pc xs s
  | .streamStop h => Sys2Proof.Machine.execStreamStop h s
  | .streamStopped stream => Sys2Proof.Machine.execStreamStopped stream s
  | .streamStatus h count => Sys2Proof.Machine.execStreamStatus h count s
  | .seedSet h seed first count sets slice => Sys2Proof.Machine.execSeedSet h seed first count sets slice s
  | .stepBegin h epoch => Sys2Proof.Machine.execStepBegin h epoch s
  | .stepCommit h epoch => Sys2Proof.Machine.execStepCommit h epoch s
  | .updateRun h gscale tau normScope ngroup => Sys2Proof.Machine.execUpdateRun h gscale tau normScope ngroup s
  | .updatePass1End => Sys2Proof.Machine.execUpdatePass1End s
  | .normJoin => Sys2Proof.Machine.execNormJoin s
  | .updatePass2End => Sys2Proof.Machine.execUpdatePass2End s
  | .panelServicePost tensor panel => Sys2Proof.Machine.execPanelServicePost tensor panel s
  | .panelServiceDone tensor panel => Sys2Proof.Machine.execPanelServiceDone tensor panel s
  | .precondRefreshDone group => Sys2Proof.Machine.execPrecondRefreshDone group s
  | .exchangeStart h p => Sys2Proof.Machine.execExchangeStart h p s
  | .exchangeComplete opId => Sys2Proof.Machine.execExchangeComplete opId s
  | .groupTableLoad h groups tensors tcount => Sys2Proof.Machine.execGroupTableLoad h groups tensors tcount s
  | .precondRefresh h group e => Sys2Proof.Machine.execPrecondRefresh h group e s
  | .syncInit h addr value owner => Sys2Proof.Machine.execSyncInit h addr value owner s
  | .syncOpAdd h addr n => Sys2Proof.Machine.execSyncOpAdd h addr n s
  | .syncOpDec h addr n => Sys2Proof.Machine.execSyncOpDec h addr n s
  | .syncOpTake h addr => Sys2Proof.Machine.execSyncOpTake h addr s
  | .syncOpWait h addr n => Sys2Proof.Machine.execSyncOpWait h addr n s
  | .syncOpMonitor h addr n notify => Sys2Proof.Machine.execSyncOpMonitor h addr n notify s
  | .barrierArm h channel group => Sys2Proof.Machine.execBarrierArm h channel group s
  | .barrierDisarm h channel => Sys2Proof.Machine.execBarrierDisarm h channel s
  | .timeSet h ft => Sys2Proof.Machine.execTimeSet h ft s
  | .timeQuery h => Sys2Proof.Machine.execTimeQuery h s
  | .schedulePost h due repeatNs times message => Sys2Proof.Machine.execSchedulePost h due repeatNs times message s
  | .scheduleCancel h entry => Sys2Proof.Machine.execScheduleCancel h entry s
  | .scheduleDispatch => Sys2Proof.Machine.execScheduleDispatch s
  | .ckptCapture h epoch dest manifest nreg => Sys2Proof.Machine.execCkptCapture h epoch dest manifest nreg s
  | .ckptCaptureDone => Sys2Proof.Machine.execCkptCaptureDone s
  | .ckptRestore h epoch src manifest nreg => Sys2Proof.Machine.execCkptRestore h epoch src manifest nreg s
  | .twinJoin h epoch => Sys2Proof.Machine.execTwinJoin h epoch s
  | .twinSole h => Sys2Proof.Machine.execTwinSole h s
  | .replay h epoch => Sys2Proof.Machine.execReplay h epoch s
  | .replayDigestCompare => Sys2Proof.Machine.execReplayDigestCompare s
  | .remapCluster h logical spareRow => Sys2Proof.Machine.execRemapCluster h logical spareRow s
  | .remapPerform die row => Sys2Proof.Machine.execRemapPerform die row s
  | .reshard h epoch layout => Sys2Proof.Machine.execReshard h epoch layout s
  | .digestQuery h epoch => Sys2Proof.Machine.execDigestQuery h epoch s
  | .powerStateHold h => Sys2Proof.Machine.execPowerStateHold h s
  | .powerStateBank h => Sys2Proof.Machine.execPowerStateBank h s
  | .powerStateDark h => Sys2Proof.Machine.execPowerStateDark h s
  | .powerStateRun h => Sys2Proof.Machine.execPowerStateRun h s
  | .powerEntryCommit => Sys2Proof.Machine.execPowerEntryCommit s
  | .powerExitComplete => Sys2Proof.Machine.execPowerExitComplete s
  | .modeSet h mode => Sys2Proof.Machine.execModeSet h mode s
  | .envelopeSet h target floor slew => Sys2Proof.Machine.execEnvelopeSet h target floor slew s
  | .fwStage h src len slot flashOk slice => Sys2Proof.Machine.execFwStage h src len slot flashOk slice s
  | .fwActivateNextBoot h slot => Sys2Proof.Machine.execFwActivateNextBoot h slot s
  | .fwActivateNow h slot => Sys2Proof.Machine.execFwActivateNow h slot s
  | .accessTableSet h target first count entries => Sys2Proof.Machine.execAccessTableSet h target first count entries s
  | .telemetryRead h kind first count => Sys2Proof.Machine.execTelemetryRead h kind first count s
  | .counterClear h first count => Sys2Proof.Machine.execCounterClear h first count s
  | .eventSubscribe h classes => Sys2Proof.Machine.execEventSubscribe h classes s
  | .scrubRun h mask => Sys2Proof.Machine.execScrubRun h mask s
  | .testPortLoop h target => Sys2Proof.Machine.execTestPortLoop h target s
  | .testEdgePrbs h target => Sys2Proof.Machine.execTestEdgePrbs h target s
  | .testStackTest h target => Sys2Proof.Machine.execTestStackTest h target s
  | .testClusterTest h target => Sys2Proof.Machine.execTestClusterTest h target s
  | .testDieTest h target => Sys2Proof.Machine.execTestDieTest h target s
  | .linkRetrainEdge h index => Sys2Proof.Machine.execLinkRetrainEdge h index s
  | .linkRetrainPort h index => Sys2Proof.Machine.execLinkRetrainPort h index s
  | .messagePartArrival port bytes => Sys2Proof.Machine.execMessagePartArrival port bytes s
  | .messageAssemblyTimeout key => Sys2Proof.Machine.execMessageAssemblyTimeout key s
  | .longOpSlice id n => Sys2Proof.Machine.execLongOpSlice id n s
  | .longOpProgress id => Sys2Proof.Machine.execLongOpProgress id s
  | .commandProcessorStart slice => Sys2Proof.Machine.execCommandProcessorStart slice s
  | .arrLoad cl c => Sys2Proof.Machine.execArrLoad cl c s
  | .loadCommit cl arr => Sys2Proof.Machine.execLoadCommit cl arr s
  | .arrPass cl c => Sys2Proof.Machine.execArrPass cl c s
  | .arrayGrant cl port => Sys2Proof.Machine.execArrayGrant cl port s
  | .feederSlotIssue cl arr throttle filler => Sys2Proof.Machine.execFeederSlotIssue cl arr throttle filler s
  | .drainCommit cl arr => Sys2Proof.Machine.execDrainCommit cl arr s
  | .arrRead cl c => Sys2Proof.Machine.execArrRead cl c s
  | .arrFlush cl c => Sys2Proof.Machine.execArrFlush cl c s
  | .arrWin cl c => Sys2Proof.Machine.execArrWin cl c s
  | .arrPart cl c => Sys2Proof.Machine.execArrPart cl c s
  | .arrFuse cl c => Sys2Proof.Machine.execArrFuse cl c s
  | .vecAdd cl c => Sys2Proof.Machine.execVecAdd cl c s
  | .vecSub cl c => Sys2Proof.Machine.execVecSub cl c s
  | .vecMul cl c => Sys2Proof.Machine.execVecMul cl c s
  | .vecFma cl c => Sys2Proof.Machine.execVecFma cl c s
  | .vecMax cl c => Sys2Proof.Machine.execVecMax cl c s
  | .vecMin cl c => Sys2Proof.Machine.execVecMin cl c s
  | .vecDiv cl c => Sys2Proof.Machine.execVecDiv cl c s
  | .vecRcp cl c => Sys2Proof.Machine.execVecRcp cl c s
  | .vecRsqrt cl c => Sys2Proof.Machine.execVecRsqrt cl c s
  | .vecExp2 cl c => Sys2Proof.Machine.execVecExp2 cl c s
  | .vecLog2 cl c => Sys2Proof.Machine.execVecLog2 cl c s
  | .vecDot2 cl c => Sys2Proof.Machine.execVecDot2 cl c s
  | .vecLd cl c => Sys2Proof.Machine.execVecLd cl c s
  | .vecSt cl c => Sys2Proof.Machine.execVecSt cl c s
  | .vecCvt cl c => Sys2Proof.Machine.execVecCvt cl c s
  | .vecCvtb cl c => Sys2Proof.Machine.execVecCvtb cl c s
  | .vecCvt8 cl c => Sys2Proof.Machine.execVecCvt8 cl c s
  | .vecRedsum cl c => Sys2Proof.Machine.execVecRedsum cl c s
  | .vecRedsq cl c => Sys2Proof.Machine.execVecRedsq cl c s
  | .vecRedmax cl c => Sys2Proof.Machine.execVecRedmax cl c s
  | .vecRedmin cl c => Sys2Proof.Machine.execVecRedmin cl c s
  | .vecBcast cl c => Sys2Proof.Machine.execVecBcast cl c s
  | .vecXfer cl c => Sys2Proof.Machine.execVecXfer cl c s
  | .movDma cl c => Sys2Proof.Machine.execMovDma cl c s
  | .dmaCompletionAdd cl desc => Sys2Proof.Machine.execDmaCompletionAdd cl desc s
  | .synAdd cl c => Sys2Proof.Machine.execSynAdd cl c s
  | .synDec cl c => Sys2Proof.Machine.execSynDec cl c s
  | .synTake cl c => Sys2Proof.Machine.execSynTake cl c s
  | .synWait cl c => Sys2Proof.Machine.execSynWait cl c s
  | .synMonitor cl c => Sys2Proof.Machine.execSynMonitor cl c s
  | .synBar cl c => Sys2Proof.Machine.execSynBar cl c s
  | .ctlNop cl c => Sys2Proof.Machine.execCtlNop cl c s
  | .ctlSeti cl c => Sys2Proof.Machine.execCtlSeti cl c s
  | .ctlAlu cl c => Sys2Proof.Machine.execCtlAlu cl c s
  | .ctlBr cl c => Sys2Proof.Machine.execCtlBr cl c s
  | .ctlLoop cl c => Sys2Proof.Machine.execCtlLoop cl c s
  | .ctlLdx cl c => Sys2Proof.Machine.execCtlLdx cl c s
  | .ctlStx cl c => Sys2Proof.Machine.execCtlStx cl c s
  | .ctlFence cl c => Sys2Proof.Machine.execCtlFence cl c s
  | .ctlYield cl c => Sys2Proof.Machine.execCtlYield cl c s
  | .ctlHalt cl c => Sys2Proof.Machine.execCtlHalt cl c s
  | .ctlRdsr cl c => Sys2Proof.Machine.execCtlRdsr cl c s
  | .ctlClrf cl c => Sys2Proof.Machine.execCtlClrf cl c s
  | .streamFault cl c => Sys2Proof.Machine.execStreamFault cl c s
  | .syncWaitWake addr => Sys2Proof.Machine.execSyncWaitWake addr s
  | .syncWatchPoll cl c => Sys2Proof.Machine.execSyncWatchPoll cl c s
  | .syncRemotePoll cl c => Sys2Proof.Machine.execSyncRemotePoll cl c s
  | .monitorFire addr => Sys2Proof.Machine.execMonitorFire addr s
  | .wordOrphan addr => Sys2Proof.Machine.execWordOrphan addr s
  | .barrierRelease ch => Sys2Proof.Machine.execBarrierRelease ch s
  | .barrierEpisodeCollective ch => Sys2Proof.Machine.execBarrierEpisodeCollective ch s
  | .d2dFlitReceive e bundle data sideband => Sys2Proof.Machine.execD2dFlitReceive e bundle data sideband s
  | .d2dNakResend e bundle => Sys2Proof.Machine.execD2dNakResend e bundle s
  | .d2dBundleExclude e bundle => Sys2Proof.Machine.execD2dBundleExclude e bundle s
  | .d2dTrainStageEnd e r => Sys2Proof.Machine.execD2dTrainStageEnd e r s
  | .d2dTrainFlitWhileUp e => Sys2Proof.Machine.execD2dTrainFlitWhileUp e s
  | .d2dWatchdogExpiry e => Sys2Proof.Machine.execD2dWatchdogExpiry e s
  | .dieFence die => Sys2Proof.Machine.execDieFence die s
  | .meshPacketDeliver die p others => Sys2Proof.Machine.execMeshPacketDeliver die p others s
  | .meshMcWrite die srcRow srcCol p => Sys2Proof.Machine.execMeshMcWrite die srcRow srcCol p s
  | .fabFlitReceive port flit fecCorrected fecOk => Sys2Proof.Machine.execFabFlitReceive port flit fecCorrected fecOk s
  | .fabNakResend port => Sys2Proof.Machine.execFabNakResend port s
  | .fabRetryExhaustion port => Sys2Proof.Machine.execFabRetryExhaustion port s
  | .fabSignalDetect port lanes => Sys2Proof.Machine.execFabSignalDetect port lanes s
  | .fabTrainStageEnd port r => Sys2Proof.Machine.execFabTrainStageEnd port r s
  | .fabTrainRetryTimer port => Sys2Proof.Machine.execFabTrainRetryTimer port s
  | .fabIdentReceive port i1 => Sys2Proof.Machine.execFabIdentReceive port i1 s
  | .fabIdentSend port => Sys2Proof.Machine.execFabIdentSend port s
  | .fabPortDown port cause => Sys2Proof.Machine.execFabPortDown port cause s
  | .fabRequestArrival port p => Sys2Proof.Machine.execFabRequestArrival port p s
  | .fabResponseArrival port p => Sys2Proof.Machine.execFabResponseArrival port p s
  | .fabBusyResend tag => Sys2Proof.Machine.execFabBusyResend tag s
  | .fabServiceTimeout tag => Sys2Proof.Machine.execFabServiceTimeout tag s
  | .fabE2eResend tag => Sys2Proof.Machine.execFabE2eResend tag s
  | .fabE2eQuiet dst => Sys2Proof.Machine.execFabE2eQuiet dst s
  | .fabHoldTimeout port => Sys2Proof.Machine.execFabHoldTimeout port s
  | .fabMulticast port p => Sys2Proof.Machine.execFabMulticast port p s
  | .timeFlitSend port => Sys2Proof.Machine.execTimeFlitSend port s
  | .timeFlitReceive port f => Sys2Proof.Machine.execTimeFlitReceive port f s
  | .ethFrameReceive port f => Sys2Proof.Machine.execEthFrameReceive port f s
  | .exchRecordArrival h r => Sys2Proof.Machine.execExchRecordArrival h r s
  | .timeInEdge => Sys2Proof.Machine.execTimeInEdge s
  | .ptpMessage m => Sys2Proof.Machine.execPtpMessage m s
  | .ftParentLost => Sys2Proof.Machine.execFtParentLost s
  | .ftErrEstThreshold => Sys2Proof.Machine.execFtErrEstThreshold s
  | .timeOutPulse => Sys2Proof.Machine.execTimeOutPulse s
  | .stackCorrectedRead stack offset => Sys2Proof.Machine.execStackCorrectedRead stack offset s
  | .stackUncorrectable stack offset => Sys2Proof.Machine.execStackUncorrectable stack offset s
  | .scrubLine stack corrected uncorrectable => Sys2Proof.Machine.execScrubLine stack corrected uncorrectable s
  | .rowSpare stack row => Sys2Proof.Machine.execRowSpare stack row s
  | .pageRetire stack page => Sys2Proof.Machine.execPageRetire stack page s
  | .stackTrainingLoss stack retrained => Sys2Proof.Machine.execStackTrainingLoss stack retrained s
  | .cowBlockCopy die block => Sys2Proof.Machine.execCowBlockCopy die block s
  | .ckptBlockCapture die block => Sys2Proof.Machine.execCkptBlockCapture die block s
  | .solderHeartbeatSend => Sys2Proof.Machine.execSolderHeartbeatSend s
  | .solderMessageReceive m => Sys2Proof.Machine.execSolderMessageReceive m s
  | .twinHeartbeatLoss => Sys2Proof.Machine.execTwinHeartbeatLoss s
  | .twinDigestTimeout => Sys2Proof.Machine.execTwinDigestTimeout s
  | .twinJoinTimeout => Sys2Proof.Machine.execTwinJoinTimeout s
  | .envelopeRampStart => Sys2Proof.Machine.execEnvelopeRampStart s
  | .powerSample watts => Sys2Proof.Machine.execPowerSample watts s
  | .excursionStart watts => Sys2Proof.Machine.execExcursionStart watts s
  | .thermalWarnCross t => Sys2Proof.Machine.execThermalWarnCross t s
  | .thermalThrottle t => Sys2Proof.Machine.execThermalThrottle t s
  | .thermalTrip t => Sys2Proof.Machine.execThermalTrip t s
  | .vinWarn mv => Sys2Proof.Machine.execVinWarn mv s
  | .vinFaultOff mv => Sys2Proof.Machine.execVinFaultOff mv s
  | .pwrEnDeassert => Sys2Proof.Machine.execPwrEnDeassert s
  | .pwrEnAssert => Sys2Proof.Machine.execPwrEnAssert s
  | .resetNLow => Sys2Proof.Machine.execResetNLow s
  | .wakeEvent src => Sys2Proof.Machine.execWakeEvent src s
  | .wakeTimer => Sys2Proof.Machine.execWakeTimer s
  | .bootIsland flashOk => Sys2Proof.Machine.execBootIsland flashOk s
  | .bootIod domainOk firmwareOk => Sys2Proof.Machine.execBootIod domainOk firmwareOk s
  | .bootDieLinks up => Sys2Proof.Machine.execBootDieLinks up s
  | .bootDiesStacks stacksOk => Sys2Proof.Machine.execBootDiesStacks stacksOk s
  | .bootFabric => Sys2Proof.Machine.execBootFabric s
  | .bootTime => Sys2Proof.Machine.execBootTime s
  | .recovery => Sys2Proof.Machine.execRecovery s
  | .announcement port => Sys2Proof.Machine.execAnnouncement port s
  | .pkgIdWrite mid v => Sys2Proof.Machine.execPkgIdWrite mid v s
  | .ftCtlWrite mid v => Sys2Proof.Machine.execFtCtlWrite mid v s
  | .ftTickWrite mid v => Sys2Proof.Machine.execFtTickWrite mid v s
  | .guardRegWrite mid off v => Sys2Proof.Machine.execGuardRegWrite mid off v s
  | .updRegWrite mid off v => Sys2Proof.Machine.execUpdRegWrite mid off v s
  | .exRegWrite mid off v => Sys2Proof.Machine.execExRegWrite mid off v s
  | .memCowWrite mid die off v => Sys2Proof.Machine.execMemCowWrite mid die off v s
  | .memAcctProgWrite mid die v => Sys2Proof.Machine.execMemAcctProgWrite mid die v s
  | .memScrubWrite mid die v => Sys2Proof.Machine.execMemScrubWrite mid die v s
  | .barMaskWrite mid die ch w v => Sys2Proof.Machine.execBarMaskWrite mid die ch w v s
  | .fabCtlWrite mid off v => Sys2Proof.Machine.execFabCtlWrite mid off v s
  | .fabPortCfgWrite mid port v => Sys2Proof.Machine.execFabPortCfgWrite mid port v s
  | .syncTableBaseWrite mid v => Sys2Proof.Machine.execSyncTableBaseWrite mid v s
  | .cmdCtlWrite mid off v => Sys2Proof.Machine.execCmdCtlWrite mid off v s
  | .twinRegWrite mid off v => Sys2Proof.Machine.execTwinRegWrite mid off v s
  | .cobCredInstall mid v => Sys2Proof.Machine.execCobCredInstall mid v s
  | .cobDebugUnlock mid v => Sys2Proof.Machine.execCobDebugUnlock mid v s
  | .cobAccSelWrite mid v => Sys2Proof.Machine.execCobAccSelWrite mid v s
  | .pwrWakeWrite mid off v => Sys2Proof.Machine.execPwrWakeWrite mid off v s
  | .pwrThermCfgWrite mid v => Sys2Proof.Machine.execPwrThermCfgWrite mid v s
  | .registerWrite mid addr size v => Sys2Proof.Machine.execRegisterWrite mid addr size v s
  | .i3cBlockRead block offset count => Sys2Proof.Machine.execI3cBlockRead block offset count s
  | .i3cStatus => Sys2Proof.Machine.execI3cStatus s
  | .i3cCredData offset data => Sys2Proof.Machine.execI3cCredData offset data s
  | .i3cCredCommit => Sys2Proof.Machine.execI3cCredCommit s
  | .i3cImgBegin slot => Sys2Proof.Machine.execI3cImgBegin slot s
  | .i3cImgData offset data => Sys2Proof.Machine.execI3cImgData offset data s
  | .i3cImgEnd len => Sys2Proof.Machine.execI3cImgEnd len s
  | .tapInstructionUpdate code => Sys2Proof.Machine.execTapInstructionUpdate code s
  | .tapDebugToken token => Sys2Proof.Machine.execTapDebugToken token s
  | .failureAnalysisUnlock token => Sys2Proof.Machine.execFailureAnalysisUnlock token s
  | .trstNLow => Sys2Proof.Machine.execTrstNLow s
  | .resetNRise => Sys2Proof.Machine.execResetNRise s
  | .vinClear mv => Sys2Proof.Machine.execVinClear mv s
  | .ckptRestoreDone diesUp stacksUp => Sys2Proof.Machine.execCkptRestoreDone diesUp stacksUp s
  | .modeRailsSettled => Sys2Proof.Machine.execModeRailsSettled s
  | .mgtLinkChange m up => Sys2Proof.Machine.execMgtLinkChange m up s
  | .ethPortLinkChange port up => Sys2Proof.Machine.execEthPortLinkChange port up s
  | .i3cCcc c => Sys2Proof.Machine.execI3cCcc c s
  | .tapDrUpdate d => Sys2Proof.Machine.execTapDrUpdate d s

end Sys2Proof.Machine
end

