-- ==== Sys2Proof/Machine/Idle.lean ====
section
/-! DEFINITION. The passing of time: what one nanosecond changes when no command waits (log entry 2). -/

namespace Sys2Proof.Machine

/-- FT after one nanosecond, and what is left of the correction (R36, R37): a correction moves FT by 1 ns at most once in
1,000 ns, and never backwards. -/
def slewTick (v : Invar) : Invar :=
  let age := v.slewAge + 1
  if v.slew = 0 ∨ age < 1000 then { v with ft := v.ft + 1, slewAge := min age 1000 }
  else if 0 < v.slew then { v with ft := v.ft + 2, slew := v.slew - 1, slewAge := 0 }
  else { v with slew := v.slew + 1, slewAge := 0 }

/-- FT_ERR_EST grows by 50 ns per second without a source (R41): one unit of 1/20,000,000 ns each nanosecond. -/
def errTick (v : Invar) : Invar :=
  if v.state = 0 ∨ v.state = 4 then { v with err := min (v.err + 1) (65535 * 20000000) } else v

/-- TIME_OUT falls 10,000 ns after it rose (R43). -/
def timeOutTick (v : Invar) : Invar :=
  match v.timeOutUntil with
  | some t => if t.toNat ≤ v.clk.toNat then { v with timeOutUntil := none } else v
  | none => v

/-- A port holds bytes of a VN that are ready to go and have no credit (R316). -/
def noCredit (p : Port) (vn : Bool) : Bool := p.outq.any (fun o => o.pkt.vn == vn && vgetD p.credits o.pair 0 == 0)

/-- One nanosecond in which a port has no credit for what it holds (R316). -/
def stallTick (p : Port) : Port :=
  if p.carries then
    { p with
      stallReq := if noCredit p false then satAdd p.stallReq 1 else p.stallReq
      stallRsp := if noCredit p true then satAdd p.stallRsp 1 else p.stallRsp }
  else p

/-- One nanosecond passes while ISL is powered. DESIGN CHOICE (log entry 2): FT and the local clock stand still while PWR_EN is low,
since ISL turns off last of all then (R411), though R36 has FT run in every power state. -/
def idle (s : State) : State :=
  if s.tap.pwrEn then
    [0, 1, 2, 3].foldl releaseFrames { s with
      inv := timeOutTick (errTick (slewTick { s.inv with clk := s.inv.clk + 1 }))
      fab := { s.fab with ports := s.fab.ports.map stallTick } }
  else s

end Sys2Proof.Machine
end

