-- ==== Sys2Proof/WellFormed.lean ====
section
/-! DEFINITION. When a command is well formed: its operands lie in the ranges that the manual gives the thing they name. What a
range inside those bounds means is decided by the command itself, with a status. -/

namespace Sys2Proof

/-- A list has a length. -/
def hasLen {α : Type} (l : List α) (n : Nat) : Bool := l.length == n

/-- A mesh packet carries at most 256 bytes, as many as LEN says (R281). -/
def meshOk (p : MeshPkt) : Bool := decide (p.data.length ≤ 256) && (p.data.isEmpty || p.data.length == p.len.toNat)

/-- A fabric packet carries at most 4,096 bytes; as many as PLEN says, but none with a READ (R297). -/
def pktOk (p : Pkt) : Bool := decide (p.payload.length ≤ 4096) && (p.payload.isEmpty || p.payload.length == p.plen.toNat)

/-- The cluster that a command names (R16, R21); none for a command that names none. -/
def clusterOf (i : Instr) : Option Nat :=
  match i with
  | .arrLoad cl _ => some cl
  | .loadCommit cl _ => some cl
  | .arrPass cl _ => some cl
  | .arrayGrant cl _ => some cl
  | .feederSlotIssue cl _ _ _ => some cl
  | .drainCommit cl _ => some cl
  | .arrRead cl _ => some cl
  | .arrFlush cl _ => some cl
  | .arrWin cl _ => some cl
  | .arrPart cl _ => some cl
  | .arrFuse cl _ => some cl
  | .vecAdd cl _ => some cl
  | .vecSub cl _ => some cl
  | .vecMul cl _ => some cl
  | .vecFma cl _ => some cl
  | .vecMax cl _ => some cl
  | .vecMin cl _ => some cl
  | .vecDiv cl _ => some cl
  | .vecRcp cl _ => some cl
  | .vecRsqrt cl _ => some cl
  | .vecExp2 cl _ => some cl
  | .vecLog2 cl _ => some cl
  | .vecDot2 cl _ => some cl
  | .vecLd cl _ => some cl
  | .vecSt cl _ => some cl
  | .vecCvt cl _ => some cl
  | .vecCvtb cl _ => some cl
  | .vecCvt8 cl _ => some cl
  | .vecRedsum cl _ => some cl
  | .vecRedsq cl _ => some cl
  | .vecRedmax cl _ => some cl
  | .vecRedmin cl _ => some cl
  | .vecBcast cl _ => some cl
  | .vecXfer cl _ => some cl
  | .movDma cl _ => some cl
  | .dmaCompletionAdd cl _ => some cl
  | .synAdd cl _ => some cl
  | .synDec cl _ => some cl
  | .synTake cl _ => some cl
  | .synWait cl _ => some cl
  | .synMonitor cl _ => some cl
  | .synBar cl _ => some cl
  | .ctlNop cl _ => some cl
  | .ctlSeti cl _ => some cl
  | .ctlAlu cl _ => some cl
  | .ctlBr cl _ => some cl
  | .ctlLoop cl _ => some cl
  | .ctlLdx cl _ => some cl
  | .ctlStx cl _ => some cl
  | .ctlFence cl _ => some cl
  | .ctlYield cl _ => some cl
  | .ctlHalt cl _ => some cl
  | .ctlRdsr cl _ => some cl
  | .ctlClrf cl _ => some cl
  | .streamFault cl _ => some cl
  | .syncWatchPoll cl _ => some cl
  | .syncRemotePoll cl _ => some cl
  | .sessionOpen _ _ _ _ _ _ _ _ => none
  | .sessionClose _ => none
  | .sessionInactivityExpiry _ => none
  | .attest _ _ _ => none
  | .keyRotate _ _ => none
  | .regRead _ _ _ => none
  | .regWrite _ _ _ _ => none
  | .memRead _ _ _ => none
  | .memWrite _ _ _ _ => none
  | .memCopy _ _ _ _ _ _ _ => none
  | .memFill _ _ _ _ _ => none
  | .programLoad _ _ _ _ _ _ _ => none
  | .streamStart _ _ _ _ _ _ _ => none
  | .streamStop _ => none
  | .streamStopped _ => none
  | .streamStatus _ _ => none
  | .seedSet _ _ _ _ _ _ => none
  | .stepBegin _ _ => none
  | .stepCommit _ _ => none
  | .updateRun _ _ _ _ _ => none
  | .updatePass1End => none
  | .normJoin => none
  | .updatePass2End => none
  | .panelServicePost _ _ => none
  | .panelServiceDone _ _ => none
  | .precondRefreshDone _ => none
  | .exchangeStart _ _ => none
  | .exchangeComplete _ => none
  | .groupTableLoad _ _ _ _ => none
  | .precondRefresh _ _ _ => none
  | .syncInit _ _ _ _ => none
  | .syncOpAdd _ _ _ => none
  | .syncOpDec _ _ _ => none
  | .syncOpTake _ _ => none
  | .syncOpWait _ _ _ => none
  | .syncOpMonitor _ _ _ _ => none
  | .barrierArm _ _ _ => none
  | .barrierDisarm _ _ => none
  | .timeSet _ _ => none
  | .timeQuery _ => none
  | .schedulePost _ _ _ _ _ => none
  | .scheduleCancel _ _ => none
  | .scheduleDispatch => none
  | .ckptCapture _ _ _ _ _ => none
  | .ckptCaptureDone => none
  | .ckptRestore _ _ _ _ _ => none
  | .twinJoin _ _ => none
  | .twinSole _ => none
  | .replay _ _ => none
  | .replayDigestCompare => none
  | .remapCluster _ _ _ => none
  | .remapPerform _ _ => none
  | .reshard _ _ _ => none
  | .digestQuery _ _ => none
  | .powerStateHold _ => none
  | .powerStateBank _ => none
  | .powerStateDark _ => none
  | .powerStateRun _ => none
  | .powerEntryCommit => none
  | .powerExitComplete => none
  | .modeSet _ _ => none
  | .envelopeSet _ _ _ _ => none
  | .fwStage _ _ _ _ _ _ => none
  | .fwActivateNextBoot _ _ => none
  | .fwActivateNow _ _ => none
  | .accessTableSet _ _ _ _ _ => none
  | .telemetryRead _ _ _ _ => none
  | .counterClear _ _ _ => none
  | .eventSubscribe _ _ => none
  | .scrubRun _ _ => none
  | .testPortLoop _ _ => none
  | .testEdgePrbs _ _ => none
  | .testStackTest _ _ => none
  | .testClusterTest _ _ => none
  | .testDieTest _ _ => none
  | .linkRetrainEdge _ _ => none
  | .linkRetrainPort _ _ => none
  | .messagePartArrival _ _ => none
  | .messageAssemblyTimeout _ => none
  | .longOpSlice _ _ => none
  | .longOpProgress _ => none
  | .commandProcessorStart _ => none
  | .syncWaitWake _ => none
  | .monitorFire _ => none
  | .wordOrphan _ => none
  | .barrierRelease _ => none
  | .barrierEpisodeCollective _ => none
  | .d2dFlitReceive _ _ _ _ => none
  | .d2dNakResend _ _ => none
  | .d2dBundleExclude _ _ => none
  | .d2dTrainStageEnd _ _ => none
  | .d2dTrainFlitWhileUp _ => none
  | .d2dWatchdogExpiry _ => none
  | .dieFence _ => none
  | .meshPacketDeliver _ _ _ => none
  | .meshMcWrite _ _ _ _ => none
  | .fabFlitReceive _ _ _ _ => none
  | .fabNakResend _ => none
  | .fabRetryExhaustion _ => none
  | .fabSignalDetect _ _ => none
  | .fabTrainStageEnd _ _ => none
  | .fabTrainRetryTimer _ => none
  | .fabIdentReceive _ _ => none
  | .fabIdentSend _ => none
  | .fabPortDown _ _ => none
  | .fabRequestArrival _ _ => none
  | .fabResponseArrival _ _ => none
  | .fabBusyResend _ => none
  | .fabServiceTimeout _ => none
  | .fabE2eResend _ => none
  | .fabE2eQuiet _ => none
  | .fabHoldTimeout _ => none
  | .fabMulticast _ _ => none
  | .timeFlitSend _ => none
  | .timeFlitReceive _ _ => none
  | .ethFrameReceive _ _ => none
  | .exchRecordArrival _ _ => none
  | .timeInEdge => none
  | .ptpMessage _ => none
  | .ftParentLost => none
  | .ftErrEstThreshold => none
  | .timeOutPulse => none
  | .stackCorrectedRead _ _ => none
  | .stackUncorrectable _ _ => none
  | .scrubLine _ _ _ => none
  | .rowSpare _ _ => none
  | .pageRetire _ _ => none
  | .stackTrainingLoss _ _ => none
  | .cowBlockCopy _ _ => none
  | .ckptBlockCapture _ _ => none
  | .solderHeartbeatSend => none
  | .solderMessageReceive _ => none
  | .twinHeartbeatLoss => none
  | .twinDigestTimeout => none
  | .twinJoinTimeout => none
  | .envelopeRampStart => none
  | .powerSample _ => none
  | .excursionStart _ => none
  | .thermalWarnCross _ => none
  | .thermalThrottle _ => none
  | .thermalTrip _ => none
  | .vinWarn _ => none
  | .vinFaultOff _ => none
  | .pwrEnDeassert => none
  | .pwrEnAssert => none
  | .resetNLow => none
  | .wakeEvent _ => none
  | .wakeTimer => none
  | .bootIsland _ => none
  | .bootIod _ _ => none
  | .bootDieLinks _ => none
  | .bootDiesStacks _ => none
  | .bootFabric => none
  | .bootTime => none
  | .recovery => none
  | .announcement _ => none
  | .pkgIdWrite _ _ => none
  | .ftCtlWrite _ _ => none
  | .ftTickWrite _ _ => none
  | .guardRegWrite _ _ _ => none
  | .updRegWrite _ _ _ => none
  | .exRegWrite _ _ _ => none
  | .memCowWrite _ _ _ _ => none
  | .memAcctProgWrite _ _ _ => none
  | .memScrubWrite _ _ _ => none
  | .barMaskWrite _ _ _ _ _ => none
  | .fabCtlWrite _ _ _ => none
  | .fabPortCfgWrite _ _ _ => none
  | .syncTableBaseWrite _ _ => none
  | .cmdCtlWrite _ _ _ => none
  | .twinRegWrite _ _ _ => none
  | .cobCredInstall _ _ => none
  | .cobDebugUnlock _ _ => none
  | .cobAccSelWrite _ _ => none
  | .pwrWakeWrite _ _ _ => none
  | .pwrThermCfgWrite _ _ => none
  | .registerWrite _ _ _ _ => none
  | .i3cBlockRead _ _ _ => none
  | .i3cStatus => none
  | .i3cCredData _ _ => none
  | .i3cCredCommit => none
  | .i3cImgBegin _ => none
  | .i3cImgData _ _ => none
  | .i3cImgEnd _ => none
  | .tapInstructionUpdate _ => none
  | .tapDebugToken _ => none
  | .failureAnalysisUnlock _ => none
  | .trstNLow => none
  | .resetNRise => none
  | .vinClear _ => none
  | .ckptRestoreDone _ _ => none
  | .modeRailsSettled => none
  | .mgtLinkChange _ _ => none
  | .ethPortLinkChange _ _ => none
  | .i3cCcc _ => none
  | .tapDrUpdate _ => none

/-- The ranges of a command's own operands. -/
def operandsOk (i : Instr) : Bool :=
  match i with
  | .sessionOpen _ _ header tag _ ek nonce sig => hasLen header 64 && hasLen tag 32 && hasLen ek 1568 && hasLen nonce 32 && hasLen sig 4627
  | .sessionClose _ => true
  | .sessionInactivityExpiry slot => decide (slot < 64)
  | .attest _ nonce _ => hasLen nonce 32
  | .keyRotate _ ek => hasLen ek 1568
  | .regRead _ _ _ => true
  | .regWrite _ _ count values => hasLen values count.toNat
  | .memRead _ _ _ => true
  | .memWrite _ _ len data => hasLen data len.toNat
  | .memCopy _ _ _ _ _ _ _ => true
  | .memFill _ _ _ _ _ => true
  | .programLoad _ _ _ _ _ _ _ => true
  | .streamStart _ _ _ _ _ _ xs => hasLen xs 16
  | .streamStop _ => true
  | .streamStopped stream => decide (stream < 16384)
  | .streamStatus _ _ => true
  | .seedSet _ seed _ _ _ _ => hasLen seed 32
  | .stepBegin _ _ => true
  | .stepCommit _ _ => true
  | .updateRun _ _ _ _ _ => true
  | .updatePass1End => true
  | .normJoin => true
  | .updatePass2End => true
  | .panelServicePost _ _ => true
  | .panelServiceDone _ _ => true
  | .precondRefreshDone _ => true
  | .exchangeStart _ _ => true
  | .exchangeComplete _ => true
  | .groupTableLoad _ _ _ _ => true
  | .precondRefresh _ _ _ => true
  | .syncInit _ _ _ _ => true
  | .syncOpAdd _ _ _ => true
  | .syncOpDec _ _ _ => true
  | .syncOpTake _ _ => true
  | .syncOpWait _ _ _ => true
  | .syncOpMonitor _ _ _ _ => true
  | .barrierArm _ _ _ => true
  | .barrierDisarm _ _ => true
  | .timeSet _ _ => true
  | .timeQuery _ => true
  | .schedulePost _ _ _ _ _ => true
  | .scheduleCancel _ _ => true
  | .scheduleDispatch => true
  | .ckptCapture _ _ _ _ _ => true
  | .ckptCaptureDone => true
  | .ckptRestore _ _ _ _ _ => true
  | .twinJoin _ _ => true
  | .twinSole _ => true
  | .replay _ _ => true
  | .replayDigestCompare => true
  | .remapCluster _ _ _ => true
  | .remapPerform _ _ => true
  | .reshard _ _ _ => true
  | .digestQuery _ _ => true
  | .powerStateHold _ => true
  | .powerStateBank _ => true
  | .powerStateDark _ => true
  | .powerStateRun _ => true
  | .powerEntryCommit => true
  | .powerExitComplete => true
  | .modeSet _ _ => true
  | .envelopeSet _ _ _ _ => true
  | .fwStage _ _ _ _ _ _ => true
  | .fwActivateNextBoot _ _ => true
  | .fwActivateNow _ _ => true
  | .accessTableSet _ _ _ count entries => hasLen entries count.toNat
  | .telemetryRead _ _ _ _ => true
  | .counterClear _ _ _ => true
  | .eventSubscribe _ _ => true
  | .scrubRun _ _ => true
  | .testPortLoop _ _ => true
  | .testEdgePrbs _ _ => true
  | .testStackTest _ _ => true
  | .testClusterTest _ _ => true
  | .testDieTest _ _ => true
  | .linkRetrainEdge _ _ => true
  | .linkRetrainPort _ _ => true
  | .messagePartArrival _ bytes => decide (bytes.length ≤ 4096)
  | .messageAssemblyTimeout _ => true
  | .longOpSlice _ _ => true
  | .longOpProgress _ => true
  | .commandProcessorStart _ => true
  | .arrLoad _ _ => true
  | .loadCommit _ _ => true
  | .arrPass _ _ => true
  | .arrayGrant _ _ => true
  | .feederSlotIssue _ _ _ _ => true
  | .drainCommit _ _ => true
  | .arrRead _ _ => true
  | .arrFlush _ _ => true
  | .arrWin _ _ => true
  | .arrPart _ _ => true
  | .arrFuse _ _ => true
  | .vecAdd _ _ => true
  | .vecSub _ _ => true
  | .vecMul _ _ => true
  | .vecFma _ _ => true
  | .vecMax _ _ => true
  | .vecMin _ _ => true
  | .vecDiv _ _ => true
  | .vecRcp _ _ => true
  | .vecRsqrt _ _ => true
  | .vecExp2 _ _ => true
  | .vecLog2 _ _ => true
  | .vecDot2 _ _ => true
  | .vecLd _ _ => true
  | .vecSt _ _ => true
  | .vecCvt _ _ => true
  | .vecCvtb _ _ => true
  | .vecCvt8 _ _ => true
  | .vecRedsum _ _ => true
  | .vecRedsq _ _ => true
  | .vecRedmax _ _ => true
  | .vecRedmin _ _ => true
  | .vecBcast _ _ => true
  | .vecXfer _ _ => true
  | .movDma _ _ => true
  | .dmaCompletionAdd _ _ => true
  | .synAdd _ _ => true
  | .synDec _ _ => true
  | .synTake _ _ => true
  | .synWait _ _ => true
  | .synMonitor _ _ => true
  | .synBar _ _ => true
  | .ctlNop _ _ => true
  | .ctlSeti _ _ => true
  | .ctlAlu _ _ => true
  | .ctlBr _ _ => true
  | .ctlLoop _ _ => true
  | .ctlLdx _ _ => true
  | .ctlStx _ _ => true
  | .ctlFence _ _ => true
  | .ctlYield _ _ => true
  | .ctlHalt _ _ => true
  | .ctlRdsr _ _ => true
  | .ctlClrf _ _ => true
  | .streamFault _ _ => true
  | .syncWaitWake _ => true
  | .syncWatchPoll _ _ => true
  | .syncRemotePoll _ _ => true
  | .monitorFire _ => true
  | .wordOrphan _ => true
  | .barrierRelease _ => true
  | .barrierEpisodeCollective _ => true
  | .d2dFlitReceive _ bundle _ _ => decide (bundle < 32)
  | .d2dNakResend _ bundle => decide (bundle < 32)
  | .d2dBundleExclude _ bundle => decide (bundle < 32)
  | .d2dTrainStageEnd _ _ => true
  | .d2dTrainFlitWhileUp _ => true
  | .d2dWatchdogExpiry _ => true
  | .dieFence _ => true
  | .meshPacketDeliver _ p others => meshOk p && others.all meshOk
  | .meshMcWrite _ srcRow srcCol p => decide (srcRow < 32) && decide (srcCol < 33) && meshOk p
  | .fabFlitReceive _ flit _ _ => hasLen flit 280
  | .fabNakResend _ => true
  | .fabRetryExhaustion _ => true
  | .fabSignalDetect _ lanes => decide (lanes ≤ 8)
  | .fabTrainStageEnd _ _ => true
  | .fabTrainRetryTimer _ => true
  | .fabIdentReceive _ _ => true
  | .fabIdentSend _ => true
  | .fabPortDown _ _ => true
  | .fabRequestArrival _ p => pktOk p
  | .fabResponseArrival _ p => pktOk p
  | .fabBusyResend _ => true
  | .fabServiceTimeout _ => true
  | .fabE2eResend _ => true
  | .fabE2eQuiet _ => true
  | .fabHoldTimeout _ => true
  | .fabMulticast _ p => pktOk p
  | .timeFlitSend _ => true
  | .timeFlitReceive _ _ => true
  | .ethFrameReceive port _ => decide (port.val < 4)
  | .exchRecordArrival _ _ => true
  | .timeInEdge => true
  | .ptpMessage _ => true
  | .ftParentLost => true
  | .ftErrEstThreshold => true
  | .timeOutPulse => true
  | .stackCorrectedRead _ offset => decide (offset < 0x1800000000)
  | .stackUncorrectable _ offset => decide (offset < 0x1800000000)
  | .scrubLine _ _ _ => true
  | .rowSpare _ _ => true
  | .pageRetire _ page => decide (page < 0x1800000)
  | .stackTrainingLoss _ _ => true
  | .cowBlockCopy _ block => decide (block < 0x600000)
  | .ckptBlockCapture _ block => decide (block < 0x600000)
  | .solderHeartbeatSend => true
  | .solderMessageReceive _ => true
  | .twinHeartbeatLoss => true
  | .twinDigestTimeout => true
  | .twinJoinTimeout => true
  | .envelopeRampStart => true
  | .powerSample _ => true
  | .excursionStart _ => true
  | .thermalWarnCross t => hasLen t.cd 4
  | .thermalThrottle t => hasLen t.cd 4
  | .thermalTrip t => hasLen t.cd 4
  | .vinWarn _ => true
  | .vinFaultOff _ => true
  | .pwrEnDeassert => true
  | .pwrEnAssert => true
  | .resetNLow => true
  | .wakeEvent _ => true
  | .wakeTimer => true
  | .bootIsland _ => true
  | .bootIod _ _ => true
  | .bootDieLinks up => hasLen up.masks 8
  | .bootDiesStacks _ => true
  | .bootFabric => true
  | .bootTime => true
  | .recovery => true
  | .announcement _ => true
  | .pkgIdWrite _ _ => true
  | .ftCtlWrite _ _ => true
  | .ftTickWrite _ _ => true
  | .guardRegWrite _ _ _ => true
  | .updRegWrite _ _ _ => true
  | .exRegWrite _ _ _ => true
  | .memCowWrite _ _ _ _ => true
  | .memAcctProgWrite _ _ _ => true
  | .memScrubWrite _ _ _ => true
  | .barMaskWrite _ _ _ _ _ => true
  | .fabCtlWrite _ _ _ => true
  | .fabPortCfgWrite _ _ _ => true
  | .syncTableBaseWrite _ _ => true
  | .cmdCtlWrite _ _ _ => true
  | .twinRegWrite _ _ _ => true
  | .cobCredInstall _ _ => true
  | .cobDebugUnlock _ _ => true
  | .cobAccSelWrite _ _ => true
  | .pwrWakeWrite _ _ _ => true
  | .pwrThermCfgWrite _ _ => true
  | .registerWrite _ _ _ _ => true
  | .i3cBlockRead _ _ _ => true
  | .i3cStatus => true
  | .i3cCredData _ data => decide (data.length ≤ 256)
  | .i3cCredCommit => true
  | .i3cImgBegin _ => true
  | .i3cImgData _ data => decide (data.length ≤ 256)
  | .i3cImgEnd _ => true
  | .tapInstructionUpdate _ => true
  | .tapDebugToken token => hasLen token 4675
  | .failureAnalysisUnlock _ => true
  | .trstNLow => true
  | .resetNRise => true
  | .vinClear _ => true
  | .ckptRestoreDone diesUp stacksUp => hasLen diesUp 4 && hasLen stacksUp 16
  | .modeRailsSettled => true
  | .mgtLinkChange _ _ => true
  | .ethPortLinkChange port _ => decide (port.val < 4)
  | .i3cCcc _ => true
  | .tapDrUpdate _ => true

/-- A command is well formed: it names one of the 4,096 clusters where it names one (R16), and its operands are in range. -/
def WellFormed (i : Instr) : Bool :=
  operandsOk i && (match clusterOf i with
    | some n => decide (n < 4096)
    | none => true)

end Sys2Proof
end

