-- ==== Sys2Proof/Safety.lean ====
section
/-! DEFINITION. What a safe run is, and the conditions that statements share: the canonical form of the bytes that the state
holds, the queue, a package in service, an instruction that a context issues next. -/

namespace Sys2Proof.Machine

/-- Memory is in its canonical form: keys strictly rising, and no byte listed that reads as an unlisted one. Equal memories are
then equal data. -/
def MemoryCanonical (s : State) : Prop := s.mem.wf = true

/-- Every command that waits is well formed. -/
def QueueWellFormed (s : State) : Prop := ∀ c ∈ s.pending, WellFormed c = true

/-- A run is safe when every step answers a next state: the package reports every error in a status and stops on none (R348). -/
def StepRuns (s : State) : Prop := ∃ t, step s = .next t

/-- No die-link edge trains, so that nothing waits for one (R276). -/
abbrev EdgesSettled (s : State) : Prop := (List.range 8).all (fun e => !edgeTrains s e) = true

/-- The package is in service: RUNNING, in Run, registered (R421, R433, R435, R437), and no die-link edge trains. -/
abbrev InService (s : State) : Prop :=
  s.boot.stage = 9 ∧ s.power.st = 0 ∧ s.boot.complete = true ∧ EdgesSettled s

/-- No commit waits in a drain queue (R64). -/
abbrev DrainsEmpty (s : State) : Prop :=
  ∀ (n : Nat) (a : Fin 4), ((cluster s n).arrays[a].flight.all (fun q => !q.queued)) = true

/-- The newest message that the package has sent is a reply to the command of header `h` and opcode `op`, with this status and these
results (R346). -/
def Answered (t : State) (h : CmdHdr) (op : Nat) (st : Status) (results : List Byte) : Prop :=
  ∃ q rest, t.cmd.sent = q :: rest ∧ q.event = false ∧ q.opcode = BitVec.ofNat 16 op ∧ q.session = h.session ∧ q.stream = h.stream ∧
    q.seq = h.seq ∧ q.status = st ∧ q.results = results

/-- `i` is the instruction that a context issues next, of a class and operation; `k` holds it when it is a kept one
(R113, R116, R142). -/
abbrev Issues (s : State) (n : Nat) (c : Ctx) (i : Issued) (k : Option Kept) (cls op : Nat) : Prop :=
  fetch s n c = .ins i k ∧ insCls i.w = cls ∧ insOp i.w = op

/-- The state in which the effect of an instruction begins: it has left its place in the program or in the kept list, and is
counted (R113, R142, R143). -/
abbrev Begun (s : State) (n : Nat) (c : Ctx) (k : Option Kept) : State := takeIssue s n c k

/-- The state after an instruction whose effect left `t`: the sequencer moves on past one that was not kept (R116, R134). -/
abbrev Past (t : State) (n : Nat) (c : Ctx) (i : Issued) (k : Option Kept) : State := moveOn t n c i k

/-- A VEC instruction names a type that its operation has, and no operand range passes V15 (R125, R126). -/
abbrev VecForm (i : Issued) (ty : VTyp) (types : List VTyp) : Prop :=
  vtypOf (i.f 0 21 20) = some ty ∧ ty ∈ types ∧ vrangesOk i = true

/-! ### Rounding -/

/-- `m` is the code that R98 makes of a magnitude `n / d` on a grid whose codes 0 to `top` stand for rising magnitudes. -/
def RoundsTo (grid : Nat → Nat × Nat) (top n d : Nat) (r : Option Nat) (m : Nat) : Prop :=
  m ≤ top ∧ ((grid m).1 * d = n * (grid m).2 ∨
    ∃ i, i < top ∧ fracLt (grid i) (n, d) = true ∧ fracLt (n, d) (grid (i + 1)) = true ∧ (m = i ∨ m = i + 1) ∧
      let lo := grid i
      let hi := grid (i + 1)
      match r with
      | none =>
        let twice := 2 * n * lo.2 * hi.2
        let both := d * (lo.1 * hi.2 + hi.1 * lo.2)
        (twice < both → m = i) ∧ (both < twice → m = i + 1) ∧ (twice = both → m % 2 = 0)
      | some r => m = i + 1 ↔ r * (hi.1 * lo.2 - lo.1 * hi.2) * d < (n * lo.2 - lo.1 * d) * hi.2 * 2 ^ 32)

/-- The magnitude of a code of a block output (R101). -/
def blockGrid (f : TFmt) (m : Nat) : Nat × Nat := if f = .f4b then (f4Grid.getD m 0, 2) else (m, 64)

/-- The magnitude of a code without its sign of a format with 8 exponent bits; the code of infinity stands for 2^128 (R98). -/
def floatGrid (mb m : Nat) : Nat × Nat := if m = 255 * 2 ^ mb then (2 ^ 128, 1) else (decodeFp 8 mb m).mag

/-- `m` is the FP32 code nearest to the square root of `n / d`: the root lies between the half-way points around it. -/
def SqrtRounds (n d m : Nat) : Prop :=
  let mid := fun i => let a := floatGrid 23 i; let b := floatGrid 23 (i + 1); (a.1 * b.2 + b.1 * a.2, 2 * a.2 * b.2)
  m ≤ 255 * 2 ^ 23 ∧ (∀ i, m = i + 1 → (mid i).1 ^ 2 * d ≤ n * (mid i).2 ^ 2) ∧
    (m < 255 * 2 ^ 23 → n * (mid m).2 ^ 2 ≤ (mid m).1 ^ 2 * d)

/-! ### Bounds that every step keeps -/

/-- At most 64 sessions, by slot (R341), 4,096 schedule entries (R45, R47), and no two spares of a die that serve one logical cluster (R386). -/
def TablesBounded (s : State) : Prop :=
  ((s.cmd.sessions.map (·.1)).Pairwise (· < ·) ∧ ∀ e ∈ s.cmd.sessions, e.1 < 64) ∧ s.cmd.schedule.length ≤ 4096 ∧
  ∀ k : Fin 4, (s.dies[k].spares.map (·.1)).Pairwise (· < ·) ∧
    ∀ x ∈ s.dies[k].spares, ∀ y ∈ s.dies[k].spares, x.2.1 = true → y.2.1 = true → x.2.2.2.2 = y.2.2.2.2 → x.1 = y.1

/-- The queues of the units of a cluster hold no more than R113 gives them. -/
def QueuesBounded (s : State) : Prop :=
  ∀ (n : Nat) (c : Ctx), (stream s n c).synq.length ≤ 4 ∧ (cluster s n).vecq.length ≤ 8 ∧
    ((cluster s n).readq.filter (fun p => p.1 == c)).length ≤ 4 ∧
    (cluster s n).mover.length ≤ 16 ∧ ((cluster s n).mover.filter (fun j => j.c == c)).length ≤ 8 ∧
    ∀ a : Fin 4, queuedOf (cluster s n).arrays[a] c ≤ 4

/-- The contexts of a cluster of a die in service that are neither IDLE nor HALTED hold no bank and no entry in common (R112). -/
def ContextsApart (s : State) : Prop :=
  ∀ (n : Nat) (c d : Ctx), c ≠ d → dieFenced s (n / 1024) = false →
    (stream s n c).st ≠ .idle → (stream s n c).st ≠ .halted → (stream s n d).st ≠ .idle → (stream s n d).st ≠ .halted →
    (stream s n c).banks &&& (stream s n d).banks = 0 ∧
    rangesMeet (stream s n c).entLo.toNat (stream s n c).entHi.toNat (stream s n d).entLo.toNat (stream s n d).entHi.toNat = false

end Sys2Proof.Machine
end

