-- ==== Sys2Proof/Certificates/Slice0/Obligations.lean ====
section
/-! DEFINITION. The statements for the provers: one `def Obligations.<Name> : Prop` each, with its rules in its docstring. -/

open Sys2Proof Sys2Proof.Machine

/-- For every state s, command c and list rest: when s.pending is c followed by rest, step s is exec c on s with
pending = rest. The queue is the model's own (log entry 2). (14_command_protocol.md: Admission,
14_command_protocol.md: Replies.) -/
def Obligations.StepTakesTheFrontCommand : Prop :=
  ∀ (s : State) (c : Instr) (rest : List Instr),
    s.pending = c :: rest → step s = exec c { s with pending := rest }

/-- The model's idle tick (log entry 2): with an empty queue and PWR_EN low the state stays as it is. With PWR_EN high
the next state differs from s only in Invar and the fabric block, the model's clk rises by 1, and with no correction
to slew FT rises by 1 too (both modulo 2^64). Of the fabric, each port changes only in its stall counters while no
frame waits on priority 3 of ports 0 to 3, and a port 0 to 3 whose pause is past holds no waiting frame afterwards.
(02_fabric_time.md: The count, 02_fabric_time.md: Discipline, 12_fabric.md: Registers.) -/
def Obligations.IdleStepLetsANanosecondPass : Prop :=
  ∀ s : State, s.pending = [] →
    (s.tap.pwrEn = false → step s = .next s) ∧
    (s.tap.pwrEn = true → ∃ t : State, step s = .next t ∧
      t = { s with inv := t.inv, fab := t.fab } ∧
      ((∀ p : Nat, p < 4 → (port s p).ethWait = []) → t.fab = { s.fab with ports := t.fab.ports } ∧
        ∀ p : Nat, port t p = { port s p with stallReq := (port t p).stallReq, stallRsp := (port t p).stallRsp }) ∧
      (∀ p : Nat, p < 4 → (port s p).ethPause.toNat ≤ (s.inv.clk + 1).toNat → (port t p).ethWait = []) ∧
      t.inv.clk = s.inv.clk + 1 ∧ (s.inv.slew = 0 → t.inv.ft = s.inv.ft + 1))

/-- For every state the step answers a next state, never a fault or a refusal: every error of a command is a status of
its reply, and an event that cannot occur changes nothing (log entry 2). (14_command_protocol.md: Replies.) -/
def Obligations.EveryStepRuns : Prop :=
  ∀ s : State, StepRuns s

/-- For every command row c with header h and opcode op: while no command is served (before stage 3 has ended, in
RECOVERY and after a failure) exec c leaves the state unchanged; while the power state does not let it run, it is
buffered as a wake command when WAKE is set and answered BUSY otherwise; while bring-up has not reached what it needs,
it is answered BUSY. A command that may run then and whose access or clusters lie beyond an edge that trains is held
(R276). What is served at which stage, and which stage an opcode needs, is the model's choice (log entry 54).
(17_power.md: Commands and schedule outside Run, 18_boot.md: Commands during bring-up, 11_die_links_mesh.md:
Training.) -/
def Obligations.CommandsAreGatedByStageAndPowerState : Prop :=
  ∀ (s : State) (c : Instr) (h : CmdHdr) (op : Nat), cmdOf c = some (h, op) →
    (served s = false → exec c s = .next s) ∧
    (served s = true → powerAdmits s c = false →
      exec c s = .next (if h.wake then bufferWake s c h op else answer s h op .busy)) ∧
    (served s = true → powerAdmits s c = true → stageAdmits s c = false → exec c s = .next (answer s h op .busy)) ∧
    (served s = true → powerAdmits s c = true → stageAdmits s c = true → edgeHeld s c = true →
      exec c s = .next { s with cmd := { s.cmd with held := s.cmd.held ++ [c] } })

/-- From every state whose memory is canonical (keys strictly rising, no listed byte equal to what an unlisted one
reads as), a step of any command, or of an empty queue, that answers a next state gives a state whose memory is
canonical. Equal memories therefore stay equal data. (10_stack_memory.md: Stacks and their controllers,
01_package_architecture.md: Address spaces.) -/
def Obligations.StepKeepsMemoryCanonical : Prop :=
  ∀ s t : State, MemoryCanonical s → step s = .next t → MemoryCanonical t

/-- State.reset has canonical memory with nothing listed, no poisoned line, and an empty queue, which is well formed;
its tables and queues are within their bounds and no two contexts hold a bank or an entry in common. That an unlisted
byte reads 0 is what stack bring-up and the cluster reset leave. (10_stack_memory.md: Bring-up of a stack,
01_package_architecture.md: Address spaces.) -/
def Obligations.ResetMemoryCanonical : Prop :=
  MemoryCanonical State.reset ∧ (∀ a : Nat, rdByte State.reset a = 0) ∧ State.reset.poison = [] ∧
    State.reset.pending = [] ∧ QueueWellFormed State.reset ∧ TablesBounded State.reset ∧ QueuesBounded State.reset ∧
    ContextsApart State.reset

/-- With no capture active and no line poisoned, for every mapped range of local addresses in stack memory or a store:
after the write of bytes bs at a, byte a + i reads as the i-th of them, and every address whose place is none of the
places written reads as before. Nothing but memory changes. For every die k and offset A of its interleaved view, the
address lies in stack 4k + A[13:12] at stack offset (A[38:14] << 12) | A[11:0]; so position p of every 16 KiB-aligned
span of the view lies in stack 4k + p (R246); and its example holds: CD2 view address 0x0900_0123_4567 is stack S8 at
offset 0x48_D567, linear address 0x00C0_0048_D567. (10_stack_memory.md: Stacks and their controllers,
01_package_architecture.md: Address spaces, 10_stack_memory.md: The interleaved view.) -/
def Obligations.MemoryReadsWhatWasWritten : Prop :=
  (∀ (s : State) (a : Nat) (bs : List Byte), s.ckpt.capture = none → s.poison = [] → mapped a bs.length = true →
    (∀ i, i < bs.length → rdByte (wrBytes s a bs) (a + i) = bs.getD i 0) ∧
    (∀ b, (∀ i, i < bs.length → keyOf b ≠ keyOf (a + i)) → rdByte (wrBytes s a bs) b = rdByte s b) ∧
    wrBytes s a bs = { s with mem := (wrBytes s a bs).mem }) ∧
  ((∀ k A : Nat, k < 4 → A < 0x6000000000 →
    place (0x080000000000 + k * 0x8000000000 + A) = .stack (4 * k + bits A 13 12) (bits A 38 14 <<< 12 ||| bits A 11 0)) ∧
  (∀ k p m j : Nat, k < 4 → p < 4 → j < 0x1000 → 0x4000 * m + 0x4000 ≤ 0x6000000000 →
    place (0x080000000000 + k * 0x8000000000 + (0x4000 * m + 0x1000 * p + j)) = .stack (4 * k + p) (0x1000 * m + j)) ∧
  place 0x090001234567 = .stack 8 0x48D567 ∧ keyOf 0x090001234567 = 0x00C00048D567)

/-- COND is below 16; bit 0 is set while a die or a stack is fenced, bit 1 while TWIN_STATE is SOLE, bit 2 while
MEM_FAILED is set, bit 3 while a step is in progress; and every reply of a command carries it whatever its status, and
so does every event that is sent. (R347.) -/
def Obligations.ConditionReportsThePackage : Prop :=
  ∀ s : State, cond s < 16 ∧
    ((cond s).testBit 0 = true ↔ (∃ d : Fin 4, s.dies[d].st = .fenced) ∨ (∃ k : Fin 16, s.stk[k].st = .fenced)) ∧
    ((cond s).testBit 1 = true ↔ s.twin.st = 4) ∧ ((cond s).testBit 2 = true ↔ s.memblk.failed = true) ∧
    ((cond s).testBit 3 = true ↔ s.memblk.stepOn = true) ∧
    (∀ (h : CmdHdr) (op : Nat) (st : Status) (r : List Byte) (cu : Nat) (e : W64),
      ((mkReply s h op st r cu e).cond).toNat = cond s) ∧
    (∀ (cls : Nat) (code : Byte) (d : List Byte) (q : Reply), q ∈ (raise s cls code d).cmd.sent →
      q ∈ s.cmd.sent ∨ q.cond.toNat = cond s)

/-- For every header, opcode, status and results: the state after a reply differs from the state before only in the
command block, the fabric block, the replay log of the twin block and the two window counters of Invar. A reply to a
management port that is no occurrence of the schedule stands at the head of what the package has sent, with the
session, stream, SEQUENCE, status, results and the committed epoch, and leaves the fabric as it was.
(14_command_protocol.md: Transports, 14_command_protocol.md: Replies, 14_command_protocol.md: Sessions and sequence
numbers, 15_reliability_twin.md: The replay log.) -/
def Obligations.AReplyChangesOnlyWhatReplyingChanges : Prop :=
  ∀ (s : State) (h : CmdHdr) (op : Nat) (st : Status) (r : List Byte),
    reply s h op st r = { s with
      cmd := (reply s h op st r).cmd, fab := (reply s h op st r).fab,
      twin := { s.twin with log := (reply s h op st r).twin.log }
      inv := { s.inv with cntWindowMissed := (reply s h op st r).inv.cntWindowMissed
                          cntNotYet := (reply s h op st r).inv.cntNotYet } } ∧
    (h.occurrence = none → (∃ m ip udp, h.port = .mgt m ip udp) →
      (reply s h op st r).fab = s.fab ∧
      ∃ q : Reply, (reply s h op st r).cmd.sent = q :: s.cmd.sent ∧ q.event = false ∧ q.session = h.session ∧
        q.stream = h.stream ∧ q.seq = h.seq ∧ q.status = st ∧ q.results = r ∧ q.ftDone = s.inv.ft ∧
        q.epoch = s.memblk.epoch ∧ q.cond = BitVec.ofNat 8 (cond s))

/-- For a package in service. In UNOWNED or OWNED lifecycle, SESSION_OPEN with session, master, tag and SEQUENCE 0, a
WC no more than 10 s past its stamp, a credential of the session role, a valid signature, an unused nonce and a free
slot opens that slot under the next generation, with no command seen and the keys of R399, and answers DONE with its
handle, the ciphertext and a signature; SESSION_OPEN changes no memory, cluster, power or security state.
SESSION_CLOSE answers DONE and its session ends. A session of which no command came for 600 s ends. ATTEST of
measurements 0 to 8 answers DONE with the report, its signature and the certificate chain while the lifecycle is
UNOWNED or OWNED. KEY_ROTATE of an open session answers DONE with the ciphertext, replaces the session's keys with
those derived from the new shared secret, and keeps the old ones for SEQUENCEs up to its own. ML-DSA and ML-KEM are
opaque (log entry 4). For an open session in a slot of the sixty-four: after it ends, the slot is free, no schedule
entry of its handle is left, every other slot and every other schedule entry stays, every indexed word of its owner
code waits to be orphaned, and nothing changes but the session table, the schedule and the list of words to orphan
(R342, R328). (16_security.md: Sessions, 16_security.md: Attestation, 14_command_protocol.md: Sessions and sequence
numbers, 14_command_protocol.md: Command reference, 13_sync.md: Owners and orphans.) -/
def Obligations.SessionCommandsDoWhatTheyName : Prop :=
  (∀ (s : State) (h : CmdHdr),
    (∀ wc header tag cred ek nonce sig c slot, InService s → h.session = 0 → h.master = 0 →
      tag = List.replicate 32 0 → h.seq = 0 → wc ≠ 0 → wc.toNat ≤ h.stamp.toNat + 10000000000 → lifecycle s < 2 →
      look s.cob.creds (credSlot cred) = some c → credSlot cred ≤ 15 → c.role.getLsbD 0 = true →
      Config.mldsaVerify c.pubkey (slice header 0 64 ++ openParams cred ek nonce) (ascii "APUNE OPEN") sig = true →
      (liveNonces s h.stamp.toNat).all (fun e => e.1 != slice nonce 0 32) = true →
      (liveNonces s h.stamp.toNat).length < 1024 → freeSlot s (credSlot cred) = some slot →
      ∃ (t : State) (x : Session), exec (.sessionOpen h wc header tag cred ek nonce sig) s = .next t ∧
        look t.cmd.sessions slot = some x ∧ x.gen = nextGen (lookD s.cmd.gens slot 0) ∧ x.cred = credSlot cred ∧ x.h = 0 ∧
        x.seen = [] ∧ x.classes = 0 ∧ x.port = h.port ∧ x.last = s.inv.clk ∧ x.old = [] ∧ x.rotating = [] ∧
        x.keys = deriveKeys (Config.mlkemEncaps s.fresh (slice ek 0 1568)).2 (sha3_512 (openParams cred ek nonce ++ openResults s ek x.gen slot)) ∧
        (∃ sig, Answered t h 0x0101 .done (openResults s ek x.gen slot ++ sig)) ∧
        lookD t.cmd.gens slot 0 = x.gen ∧ t.cmd.nonces = liveNonces s h.stamp.toNat ++ [(slice nonce 0 32, wc)] ∧
        t.mem = s.mem ∧ t.cob = s.cob ∧ t.clusters = s.clusters ∧ t.power = s.power) ∧
    (InService s → (∀ slot x, sessionOf s h.session = some (slot, x) →
      exec (.sessionClose h) s = .next (endSession (reply s h 0x0102 .done []) slot)) ∧
      (sessionOf s h.session = none → exec (.sessionClose h) s = .next (reply s h 0x0102 .done []))) ∧
    (∀ slot x, look s.cmd.sessions slot = some x → x.last.toNat + 600000000000 ≤ clk s →
      exec (.sessionInactivityExpiry slot) s = .next (endSession s slot)) ∧
    (∀ nonce sets, InService s → lifecycle s < 2 → sets.toNat < 512 →
      exec (.attest h nonce sets) s = .next (reply { s with fresh := s.fresh + 1 } h 0x0103 .done
        (attestBody s nonce sets ++ slice (Config.dikSign s.fresh (attestBody s nonce sets) (ascii "IFEPOR ATTEST")) 0 4627 ++
          leBytes 4 Config.certChain.length ++ Config.certChain))) ∧
    (∀ ek slot x, InService s → sessionOf s h.session = some (slot, x) →
      ∃ t y, exec (.keyRotate h ek) s = .next t ∧ look t.cmd.sessions slot = some y ∧ y.old = (x.keys, h.seq) :: x.old ∧
        y.keys = deriveKeys (Config.mlkemEncaps s.fresh (slice ek 0 1568)).2
          (x.keys.kc ++ sha3_512 (slice ek 0 1568 ++ slice (Config.mlkemEncaps s.fresh (slice ek 0 1568)).1 0 1568)) ∧
        y.gen = x.gen ∧ y.h = x.h ∧ t.mem = s.mem ∧ t.cob = s.cob ∧
        Answered t h 0x0104 .done (slice (Config.mlkemEncaps s.fresh (slice ek 0 1568)).1 0 1568))) ∧
  (∀ (s : State) (slot : Nat) (x : Session), slot < 64 → look s.cmd.sessions slot = some x →
    (∀ e ∈ (endSession s slot).cmd.sessions, e.1 ≠ slot) ∧
    (∀ e, e.1 ≠ slot → (e ∈ (endSession s slot).cmd.sessions ↔ e ∈ s.cmd.sessions)) ∧
    (∀ e, e ∈ (endSession s slot).cmd.schedule ↔ e ∈ s.cmd.schedule ∧ e.cmd.hdr.session ≠ handleOf slot x) ∧
    (∀ w ∈ s.sync.index, w.2.toNat = 0x4800 + slot → w.1 ∈ (endSession s slot).sync.orphans) ∧
    (∀ a ∈ s.sync.orphans, a ∈ (endSession s slot).sync.orphans) ∧
    endSession s slot = { s with
      cmd := { s.cmd with sessions := (endSession s slot).cmd.sessions, schedule := (endSession s slot).cmd.schedule }
      sync := { s.sync with orphans := (endSession s slot).sync.orphans } })

/-- For a package in service and a master admitted to the range: REG_READ of 1 to 4,096 registers answers DONE with 8
bytes for each, word i the value of the register at address + 8i at its turn; only the counters of the meshes and
edges crossed change. REG_WRITE writes its values in increasing address up to the first that is not DONE, and answers
that status with the count written. MEM_READ of 1 to 61,440 bytes of memory that hold no poison and meet no hold
answers DONE with the bytes, or the bytes of the log record that stands there (where a record stands in its area is
the model's choice, log entry 38), once the commits in the drain queues of the stores it touches have gone ahead
(R64). MEM_WRITE of such a range goes behind them too, writes the bytes and answers DONE, or DEGRADED when it covers a
poisoned line in part. What the meshes count of these accesses is the model's choice (log entry 79).
(14_command_protocol.md: Command reference, 20_register_index.md.) -/
def Obligations.RegisterAndMemoryCommandsMoveTheirBytes : Prop :=
  ∀ (s : State) (h : CmdHdr), InService s →
    (∀ addr count, aligned addr.toNat 8 = true → count.toNat ≠ 0 → count.toNat ≤ 4096 →
      ctrlRange addr.toNat (8 * count.toNat) = true →
      cmdAccess s h.master.toNat addr.toNat (8 * count.toNat) .r = .done →
      exec (.regRead h addr count) s =
        .next (reply (readRegs h.master.toNat addr.toNat count.toNat s).1 h 0x0201 .done
          (readRegs h.master.toNat addr.toNat count.toNat s).2) ∧
      (readRegs h.master.toNat addr.toNat count.toNat s).1 = { s with
        dies := (readRegs h.master.toNat addr.toNat count.toNat s).1.dies
        links := (readRegs h.master.toNat addr.toNat count.toNat s).1.links } ∧
      (readRegs h.master.toNat addr.toNat count.toNat s).2.length = 8 * count.toNat ∧
      (∀ i b o, i < count.toNat → place (addr.toNat + 8 * i) = .ctrl b o →
        slice (readRegs h.master.toNat addr.toNat count.toNat s).2 (8 * i) 8 =
          leBytes 8 (regReadAs (meshTrip (readRegs h.master.toNat addr.toNat i s).1 h.master.toNat (addr.toNat + 8 * i) 8 false)
            h.master.toNat b o).toNat)) ∧
    (∀ mid a n w, meshTrip s mid a n w = { s with dies := (meshTrip s mid a n w).dies, links := (meshTrip s mid a n w).links }) ∧
    (DrainsEmpty s → ∀ a n, drainAhead s a n = s) ∧
    (∀ addr count values, count ≠ 0 → count.toNat ≤ 4096 → values.length = count.toNat →
      exec (.regWrite h addr count values) s =
        .next (reply (writeRegs h.master.toNat addr.toNat values 0 s).1 h 0x0202
          (writeRegs h.master.toNat addr.toNat values 0 s).2.1
          (leBytes 4 (writeRegs h.master.toNat addr.toNat values 0 s).2.2))) ∧
    (∀ src len a, len.toNat ≠ 0 → len.toNat ≤ 61440 → src.kind ≠ 2 → xPlace s src 0 = .here a →
      memStatus s h.master.toNat src len.toNat .r = .done → meetsCtrl a len.toNat = false →
      readMeets s a len.toNat = .done →
      (let t := drainAhead (meshTrip s h.master.toNat a len.toNat false) a len.toNat
       exec (.memRead h src len) s = .next (reply t h 0x0203 .done (areaView t a (rdBytes t a len.toNat))))) ∧
    (∀ dst len data a, len.toNat ≠ 0 → len.toNat ≤ 61440 → dst.kind ≠ 2 → data.length = len.toNat →
      xPlace s dst 0 = .here a → memStatus s h.master.toNat dst len.toNat .w = .done → meetsCtrl a len.toNat = false →
      exec (.memWrite h dst len data) s = .next (reply
        (wrBytes (drainAhead (meshTrip s h.master.toNat a len.toNat true) a len.toNat) a data) h 0x0204
        (if partialPoison s a len.toNat then .degraded else .done) []))

/-- For a package in service with empty drain queues. A MEM_FILL of a mapped range in memory, whose length is a
multiple of 8 and fits one slice, with no poison in the package, writes the pattern over the range and ends DONE; when
it does not fit, the first slice is written, the operation stays among the long operations with its progress, and the
answer is IN_PROGRESS. A MEM_COPY within the package of a range that fits one slice, from a source that does not meet
its destination, without a completion word, writes the bytes that a reader finds at the source (memory's own, or the
replay log's where its records stand, in places that are the model's choice, log entry 38) at the destination and ends
DONE with its byte count. (14_command_protocol.md: Command reference, 14_command_protocol.md: Long operations.) -/
def Obligations.CopyAndFillMoveOneSliceAtATime : Prop :=
  ∀ (s : State) (h : CmdHdr), InService s → DrainsEmpty s → s.poison = [] → s.cmd.longs.all (fun o => o.id != s.cmd.nextLong) = true →
    (∀ dst len pattern slice, dst.kind = 0 → len.toNat % 8 = 0 → 0 < len.toNat → 8 < slice →
      memStatus s h.master.toNat dst len.toNat .w = .done → meetsCtrl dst.addr.toNat len.toNat = false →
      ((len.toNat ≤ slice → ∃ t, exec (.memFill h dst len pattern slice) s = .next t ∧
        t.mem = (wrBytes s dst.addr.toNat (fillBytes pattern 0 len.toNat)).mem ∧ t.poison = [] ∧
        t.clusters = s.clusters ∧ t.cmd.longs = s.cmd.longs ∧ Answered t h 0x0206 .done []) ∧
      (slice < len.toNat → ∃ t o, exec (.memFill h dst len pattern slice) s = .next t ∧
        t.mem = (wrBytes s dst.addr.toNat (fillBytes pattern 0 slice)).mem ∧ t.cmd.longs = s.cmd.longs ++ [o] ∧
        o.id = s.cmd.nextLong ∧ o.kind = .memFill dst.addr len pattern slice none ∧ o.cursor = BitVec.ofNat 64 slice ∧ Answered t h 0x0206 .inProgress []))) ∧
    (∀ src dst len slice a b, src.kind = 0 → dst.kind = 0 → src.addr.toNat = a → dst.addr.toNat = b →
      0 < len.toNat → len.toNat ≤ 2 ^ 40 → len.toNat ≤ slice →
      memStatus s h.master.toNat src len.toNat .r = .done → memStatus s h.master.toNat dst len.toNat .w = .done →
      observerStatus s a len.toNat = .done → meetsCtrl a len.toNat = false → meetsCtrl b len.toNat = false →
      (∀ i, i < len.toNat → keyIn b len.toNat (keyOf (a + i)) = false) →
      cmdPending s s.cmd.nextLong = false →
      ∃ t, exec (.memCopy h src dst len 0 0 slice) s = .next t ∧
        t.mem = (wrBytes s b (areaView s a (rdBytes s a len.toNat))).mem ∧ t.clusters = s.clusters ∧ t.cmd.longs = s.cmd.longs ∧
        Answered t h 0x0205 .done (leBytes 8 len.toNat))

/-- For a package in service. PROGRAM_LOAD that nothing refuses, whose slice takes every named cluster, writes the
image's bytes at the offset in the store of each named cluster, in the order of their numbers, and ends DONE with no
long operation left. SEED_SET whose slice takes every named cluster gives each its generators from the job seed for
the lanes of SETS, and ends DONE; every stream stays as it was. (14_command_protocol.md: Command reference,
04_block_formats.md: Per-lane generators.) -/
def Obligations.ProgramLoadAndSeedSetReachEveryNamedCluster : Prop :=
  ∀ (s : State) (h : CmdHdr), InService s → s.cmd.longs.all (fun o => o.id != s.cmd.nextLong) = true →
    (∀ src len off first count sl, loadRefused s h.master.toNat src len off first count = .done →
      poisoned s src.toNat len.toNat = false → count.toNat ≤ sl →
      ∃ t, exec (.programLoad h src len off first count sl) s = .next t ∧ t.cmd.longs = s.cmd.longs ∧
        t.mem = ((namedClusters first.toNat count.toNat).foldl (fun u n =>
          wrBytes u (storeAddr n off.toNat) (rdBytes s src.toNat len.toNat)) s).mem ∧ Answered t h 0x0301 .done []) ∧
    (∀ seed first count sets sl, count.toNat ≠ 0 → first.toNat + count.toNat ≤ 4096 →
      namedLost s first.toNat count.toNat = false → namedOff s first.toNat count.toNat = false →
      namedRuns s first.toNat count.toNat = false → count.toNat ≤ sl →
      ∃ t, exec (.seedSet h seed first count sets sl) s = .next t ∧ t.cmd.longs = s.cmd.longs ∧ t.mem = s.mem ∧
        t.clusters = ((namedClusters first.toNat count.toNat).foldl (fun u n =>
          seedCluster u (slice seed 0 32) sets n) s).clusters ∧
        (∀ n c, stream t n c = stream s n c) ∧ Answered t h 0x0305 .done [])

/-- SEED_SET over a cluster gives each covered generator the first 16 bytes, little-endian, of SHA3-512 of the 32
bytes of the job seed followed by the three little-endian bytes of its lane identifier, with s0 = 1 when all four
words are 0; the identifier is domain 0 in [23:19], the logical cluster in [18:7] and the lane in [6:0], so it is
below 2^19 and names cluster and lane. For every four 32-bit words s0 to s3: the draw on their 128-bit state returns
the output of the manual's pseudocode, a 32-bit number, and leaves the four words of it, with the shift by 9 and the
rotation by 11. (R104, R105, R103.) -/
def Obligations.GeneratorsAreSeededAndDrawn : Prop :=
  ((∀ (seed : List Byte) (cl lane : Nat), seed.length = 32 → cl < 4096 → lane < 128 →
    bits (laneId cl lane) 23 19 = 0 ∧ bits (laneId cl lane) 18 7 = cl ∧ bits (laneId cl lane) 6 0 = lane ∧
    (let d := leNat ((sha3_512 (seed ++ leBytes 3 (laneId cl lane))).take 16)
     (d ≠ 0 → (seedState seed cl lane).toNat = d) ∧ (d = 0 → (seedState seed cl lane).toNat = 1))) ∧
  (∀ (s : State) (seed : List Byte) (sets : Byte) (cl lane : Nat), lane < 128 →
    genState (cluster (seedCluster s seed sets cl) cl).gens cl lane =
      if (lane < 64 ∧ sets.getLsbD 0 = true) ∨ (64 ≤ lane ∧ sets.getLsbD 1 = true) then seedState seed cl lane
      else genState (cluster s cl).gens cl lane)) ∧
  (∀ s0 s1 s2 s3 : W32,
    draw (s3 ++ s2 ++ s1 ++ s0) =
      ((((s0 + s3).rotateLeft 9 + s0).toNat),
       ((s3 ^^^ s1).rotateLeft 11) ++ ((s2 ^^^ s0) ^^^ (s1 <<< 9)) ++ (s1 ^^^ (s2 ^^^ s0)) ++ (s0 ^^^ (s3 ^^^ s1))))

/-- For a package in service and a stream of a die that is up. A FRESH start of a stream that is neither RUNNING nor
STOPPING, whose banks and entries clash with no other context, makes it RUNNING at the PC, banks, entries and the
eight scalars of the command and answers DONE; a RESUME of a STOPPED or FAULTED stream makes it RUNNING with its
registers kept. A start of a STOPPING stream is held DEFERRED. STREAM_STOP of a RUNNING stream puts it in STOPPING and
answers IN_PROGRESS; of a stream that is not running or stopping it answers DONE. STREAM_STATUS answers DONE with a
record of 32 bytes for each stream asked, which is the stream's own unless a service program of a pass runs there. A
STOPPING stream with nothing in flight and no deferred start reaches FAULTED when a fault was found and STOPPED
otherwise. (05_cluster_programs.md: Streams and contexts, 05_cluster_programs.md: Stopping and resuming,
14_command_protocol.md: Command reference.) -/
def Obligations.StreamCommandsStartStopAndReport : Prop :=
  ∀ (s : State) (h : CmdHdr) (n : Nat) (c : Ctx), h.stream.toNat = streamNo n c →
    (InService s → n < 4096 → (die s (n / 1024)).on = true → dieFenced s (n / 1024) = false → namedServes s n 1 = false →
      (∀ form banks lo hi pc xs,
        let p : StartParams := { hdr := h, form := form, banks := banks, entLo := lo, entHi := hi, pc := pc, xs := xs }
        (form = 0 → (stream s n c).st ≠ .running → (stream s n c).st ≠ .stopping → freshOk s n c p = true →
          exec (.streamStart h form banks lo hi pc xs) s = .next (reply (startFresh s n c p) h 0x0302 .done []) ∧
          (stream (startFresh s n c p) n c).st = .running ∧ (stream (startFresh s n c p) n c).pc = pc.toNat ∧
          (stream (startFresh s n c p) n c).banks = banks ∧ (stream (startFresh s n c p) n c).kept = [] ∧
          (stream (startFresh s n c p) n c).entLo = lo ∧ (stream (startFresh s n c p) n c).entHi = hi ∧
          ∀ i, i < 8 → i < xs.length → vgetD (stream (startFresh s n c p) n c).x (i + 1) 0 = xs.getD i 0) ∧
        (form = 1 → (stream s n c).st = .stopped ∨ (stream s n c).st = .faulted →
          exec (.streamStart h form banks lo hi pc xs) s = .next (reply (startResume s n c) h 0x0302 .done []) ∧
          stream (startResume s n c) n c = { stream s n c with st := .running, fault := none, record := StopRec.reset }) ∧
        (form.toNat ≤ 1 → (stream s n c).st = .stopping → (stream s n c).deferred = none →
          exec (.streamStart h form banks lo hi pc xs) s =
            .next (reply (modStream s n c (fun t => { t with deferred := some p })) h 0x0302 .deferred []))) ∧
      ((stream s n c).st = .running → exec (.streamStop h) s =
        .next (startLongReply (stopStream s n c) h 0x0303 (.streamStop (streamNo n c))) ∧
        (stream (stopStream s n c) n c).st = .stopping) ∧
      ((stream s n c).st ≠ .running → (stream s n c).st ≠ .stopping →
        exec (.streamStop h) s = .next (reply s h 0x0303 .done []))) ∧
    (InService s → ∀ count, count.toNat ≠ 0 → count.toNat ≤ 1024 → streamNo n c + count.toNat ≤ 16384 →
      exec (.streamStatus h count) s = .next (reply (if passRuns s && hasService s then useFresh s count.toNat else s) h 0x0304 .done
        ((List.range count.toNat).flatMap (fun i => statusBytes s (streamNo n c + i) (s.fresh + i)))) ∧
      (∀ i f, (statusBytes s i f).length = 32 ∧
        (serviceRuns s (i / 4) (ctxOf i) = false → statusBytes s i f = recordBytes (stream s (i / 4) (ctxOf i))))) ∧
    ((stream s n c).st = .stopping → streamQuiet s n c = true → (stream s n c).deferred = none →
      ∃ t, exec (.streamStopped (streamNo n c)) s = .next t ∧
        (stream t n c).st = (if (stream s n c).fault.isSome then .faulted else .stopped) ∧
        (stream t n c).record = stopRecord s n (stream s n c) ∧ (stream t n c).x = (stream s n c).x ∧
        (stream t n c).kept = (stream s n c).kept ∧ t.mem = s.mem ∧
        (∀ m d, (m, d) ≠ (n, c) → stream t m d = stream s m d))

/-- For every state, cluster, context and instruction issued from the program: issuing it counts one instruction in
the die's sequencer block and in the context, and changes no other field of any stream; a kept one leaves the kept
list and is not counted again. Then, with no loop whose body ends at it, PC is its address plus 16 and the loops stay;
when the innermost loop ends at it with passes left, PC is the start of the body, and the loop and its scalar count
on; when it ends at it with none left and no outer loop ends there too, the loop is popped and PC goes on. A kept
instruction moves neither PC nor loops. (05_cluster_programs.md: Instruction format, 05_cluster_programs.md: CTL:
control, 05_cluster_programs.md: Sequencer status block.) -/
def Obligations.SequencerMovesOn : Prop :=
  ∀ (s : State) (n : Nat) (c : Ctx) (i : Issued),
    (∀ k : Option Kept,
      stream (takeIssue s n c k) n c = (match k with
        | some _ => { stream s n c with kept := (stream s n c).kept.tail }
        | none => { stream s n c with issued := (stream s n c).issued + 1 }) ∧
      (∀ m d, (m, d) ≠ (n, c) → stream (takeIssue s n c k) m d = stream s m d) ∧
      takeIssue s n c k = { s with clusters := (takeIssue s n c k).clusters, dies := (takeIssue s n c k).dies } ∧
      (n < 4096 → (die (takeIssue s n c k) (n / 1024)).seqInstr =
        if k.isSome then (die s (n / 1024)).seqInstr else satAdd (die s (n / 1024)).seqInstr 1)) ∧
    (∀ k : Kept, moveOn s n c i (some k) = s) ∧
    (∀ m d, (m, d) ≠ (n, c) → stream (moveOn s n c i none) m d = stream s m d) ∧
    moveOn s n c i none = { s with clusters := (moveOn s n c i none).clusters } ∧
    ((∀ l ∈ (stream s n c).loops.head?, l.stop ≠ i.pc) →
      stream (moveOn s n c i none) n c = { stream s n c with pc := (i.pc + 16) % 2 ^ 64 }) ∧
    (∀ l r, (stream s n c).loops = l :: r → l.stop = i.pc → l.index.toNat + 1 < l.count.toNat →
      stream (moveOn s n c i none) n c =
        { stream s n c with pc := l.start, loops := { l with index := l.index + 1 } :: r }.setX l.xd.toNat
          (l.index.toNat + 1)) ∧
    (∀ l r, (stream s n c).loops = l :: r → l.stop = i.pc → l.count.toNat ≤ l.index.toNat + 1 →
      (∀ q ∈ r.head?, q.stop ≠ i.pc) →
      stream (moveOn s n c i none) n c = { stream s n c with pc := (i.pc + 16) % 2 ^ 64, loops := r })

/-- When a context issues the instruction with a defined FN: NOP has no effect; SETI writes IMM to X[XD]; ALU writes
X[XA] FN the second operand; LDX loads the 8-byte word at X[XA] + IMM, aligned and in the own store; STX stores X[XB]
there; YIELD puts off turns and grants by X[XA] + IMM ck; RDSR writes special register FN; CLRF clears the sticky
flags of FN. Each then moves on, and the next state is exactly that: no other field changes. (05_cluster_programs.md:
CTL: control.) -/
def Obligations.ScalarControlInstructionsSetRegisters : Prop :=
  ∀ (s : State) (n : Nat) (c : Ctx) (i : Issued) (k : Option Kept),
    (Issues s n c i k 4 0x0 → i.fn = 0 → exec (.ctlNop n c) s = .next (Past (Begun s n c k) n c i k)) ∧
    (Issues s n c i k 4 0x1 → i.fn = 0 → exec (.ctlSeti n c) s =
      .next (Past (modStream (Begun s n c k) n c (fun u => u.setX i.cxd i.cimm)) n c i k)) ∧
    (∀ v, Issues s n c i k 4 0x2 → aluOp i.fn (i.xr i.cxa) i.opnd = some v → exec (.ctlAlu n c) s =
      .next (Past (modStream (Begun s n c k) n c (fun u => u.setX i.cxd v)) n c i k)) ∧
    (Issues s n c i k 4 0x5 → i.fn = 0 → aligned i.sum 8 = true → inStore i.sum 8 = true → exec (.ctlLdx n c) s =
      .next (Past (modStream (Begun s n c k) n c (fun u => u.setX i.cxd (rdNat s (storeAddr n i.sum) 8))) n c i k)) ∧
    (Issues s n c i k 4 0x6 → i.fn = 0 → aligned i.sum 8 = true → inStore i.sum 8 = true → exec (.ctlStx n c) s =
      .next (Past (wrBytes (Begun s n c k) (storeAddr n i.sum) (leBytes 8 (i.xr i.cxb))) n c i k)) ∧
    (Issues s n c i k 4 0x8 → i.fn = 0 → exec (.ctlYield n c) s =
      .next (Past (modStream (Begun s n c k) n c (fun u => { u with yieldUntil := ftAfterCk s i.sum })) n c i k)) ∧
    (∀ v, Issues s n c i k 4 0xA → specialReg s n c i.fn = some v → exec (.ctlRdsr n c) s =
      .next (Past (modStream (Begun s n c k) n c (fun u => u.setX i.cxd v)) n c i k)) ∧
    (Issues s n c i k 4 0xB → i.fn < 8 → exec (.ctlClrf n c) s =
      .next (Past (modStream (Begun s n c k) n c (fun u => { u with
        nfs := u.nfs && !bit i.fn 0, sat := u.sat && !bit i.fn 1, nfe := u.nfe && !bit i.fn 2 })) n c i k))

/-- When a context issues the instruction: BR whose condition holds sets PC to PC + 16 x OFF and pops the loops that
it leaves, and one whose condition does not hold moves on. LOOP with OFF above 0 and room on the stack begins its body
at the next instruction with the scalar 0, or skips it for a count of 0. The time that HALT records is its issue (log
entry 42). FENCE moves on once nothing earlier of its classes is outstanding, and is not issued before. HALT with
nothing in flight enters HALTED with its code in the record and PC after it, and is not issued before. STREAM_FAULT of
a RUNNING stream in which a fault was found makes it STOPPING. (05_cluster_programs.md: CTL: control,
05_cluster_programs.md: Streams and contexts, 05_cluster_programs.md: Stopping and resuming.) -/
def Obligations.FlowControlInstructionsMovePc : Prop :=
  ∀ (s : State) (n : Nat) (c : Ctx) (i : Issued) (k : Option Kept),
    (Issues s n c i k 4 0x3 → brCond i.fn (i.xr i.cxa) i.opnd (stream s n c).c = some true →
      exec (.ctlBr n c) s = .next (modStream (Begun s n c k) n c (fun u => { u with
        pc := jumpTo i.pc i.off, loops := popLoops (jumpTo i.pc i.off) u.loops }))) ∧
    (Issues s n c i k 4 0x3 → brCond i.fn (i.xr i.cxa) i.opnd (stream s n c).c = some false →
      exec (.ctlBr n c) s = .next (Past (Begun s n c k) n c i k)) ∧
    (Issues s n c i k 4 0x4 → i.fn = 0 → 0 < i.off → (stream s n c).loops.length < 4 → i.xr i.cxa ≠ 0 →
      exec (.ctlLoop n c) s = .next (modStream (Begun s n c k) n c (fun u => { u with
        pc := (i.pc + 16) % 2 ^ 64
        loops := { count := BitVec.ofNat 64 (i.xr i.cxa), index := 0, start := (i.pc + 16) % 2 ^ 64,
                   stop := jumpTo i.pc i.off, xd := BitVec.ofNat 4 i.cxd } :: u.loops }.setX i.cxd 0))) ∧
    (Issues s n c i k 4 0x4 → i.fn = 0 → 0 < i.off → (stream s n c).loops.length < 4 → i.xr i.cxa = 0 →
      exec (.ctlLoop n c) s = .next (modStream (Begun s n c k) n c (fun u => seqNext u (jumpTo i.pc i.off) u.loops))) ∧
    (Issues s n c i k 4 0x7 → (outstanding s n c).all (fun o => !bit i.fn o.2.2) = true →
      exec (.ctlFence n c) s = .next (Past (Begun s n c k) n c i k)) ∧
    (Issues s n c i k 4 0x7 → (outstanding s n c).any (fun o => bit i.fn o.2.2) = true →
      exec (.ctlFence n c) s = .next s) ∧
    (Issues s n c i k 4 0x9 → i.fn = 0 → streamQuiet s n c = true →
      ∃ t, exec (.ctlHalt n c) s = .next t ∧ (stream t n c).st = .halted ∧
        (stream t n c).pc = (i.pc + 16) % 2 ^ 64 ∧ (stream t n c).record.haltCode = BitVec.ofNat 32 i.cimm ∧
        (stream t n c).record.ftStop = s.inv.ft ∧ (stream t n c).x = (stream s n c).x ∧
        (stream t n c).v = (stream s n c).v ∧ t.mem = s.mem ∧
        (∀ m d, (m, d) ≠ (n, c) → stream t m d = stream s m d)) ∧
    (Issues s n c i k 4 0x9 → i.fn = 0 → streamQuiet s n c = false → exec (.ctlHalt n c) s = .next s) ∧
    ((stream s n c).st = .running → (stream s n c).fault ≠ none →
      ∃ t, exec (.streamFault n c) s = .next t ∧ (stream t n c).st = .stopping ∧
        (stream t n c).fault = (stream s n c).fault ∧ (stream t n c).x = (stream s n c).x ∧
        (stream t n c).pc = (stream s n c).pc ∧ t.mem = s.mem)

/-- When a context issues a CTL instruction with a reserved FN, LDX or STX outside the own store or misaligned, or
LOOP with OFF of 0 or below or a full stack, the stream stops with the fault BAD_PARAM of class CTL and PC still names
the instruction (R117, R133, R134; for CLRF the model's choice, log entry 42). When it issues, with nothing waiting in
the vector unit, a VEC instruction with the reserved TYP, with a type that the operation does not have, with an
operand range past V15, LD or ST with a lane outside the own store, or CVTB or CVT8 whose checks fail (and no pending
commit holds it): no vector register, scalar register or byte of memory changes, the fault BAD_PARAM of class VEC is
found (the first fault of the stop stays), the instruction is kept, and the sequencer moves on (R117, R126, R466). The
same of a READ or FLUSH, a PASS or a LOAD whose checks fail at its grant, and of ADD, DEC, WAIT or MONITOR with an
operand of 2^48 or more, which under TOL gives C = 0 and the code in X[XS] instead (R119, R121, R122, R132, R320).
(05_cluster_programs.md: CTL: control, 05_cluster_programs.md: Instruction format, 05_cluster_programs.md: VEC: vector
work.) -/
def Obligations.ReservedFormsFault : Prop :=
  (∀ (s : State) (n : Nat) (c : Ctx) (i : Issued) (k : Option Kept),
    let bad : Host.Outcome State Fault Refusal := .next (faultAtIssue s n c .badParam 4)
    (i.fn ≠ 0 →
      (Issues s n c i k 4 0x0 → exec (.ctlNop n c) s = bad) ∧ (Issues s n c i k 4 0x1 → exec (.ctlSeti n c) s = bad) ∧
      (Issues s n c i k 4 0x4 → exec (.ctlLoop n c) s = bad) ∧ (Issues s n c i k 4 0x5 → exec (.ctlLdx n c) s = bad) ∧
      (Issues s n c i k 4 0x6 → exec (.ctlStx n c) s = bad) ∧ (Issues s n c i k 4 0x8 → exec (.ctlYield n c) s = bad) ∧
      (Issues s n c i k 4 0x9 → exec (.ctlHalt n c) s = bad)) ∧
    (Issues s n c i k 4 0x2 → 10 < i.fn → exec (.ctlAlu n c) s = bad) ∧
    (Issues s n c i k 4 0x3 → 8 < i.fn → exec (.ctlBr n c) s = bad) ∧
    (Issues s n c i k 4 0xA → 5 < i.fn → exec (.ctlRdsr n c) s = bad) ∧
    (Issues s n c i k 4 0xB → 8 ≤ i.fn → exec (.ctlClrf n c) s = bad) ∧
    (aligned i.sum 8 = false ∨ inStore i.sum 8 = false →
      (Issues s n c i k 4 0x5 → exec (.ctlLdx n c) s = bad) ∧ (Issues s n c i k 4 0x6 → exec (.ctlStx n c) s = bad)) ∧
    (Issues s n c i k 4 0x4 → i.off ≤ 0 ∨ 4 ≤ (stream s n c).loops.length → exec (.ctlLoop n c) s = bad) ∧
    ((stream s n c).st = .running → (stream s n c).fault = none →
      (stream (faultAtIssue s n c .badParam 4) n c).st = .stopping ∧
      (stream (faultAtIssue s n c .badParam 4) n c).pc = (stream s n c).pc ∧
      ∃ f, (stream (faultAtIssue s n c .badParam 4) n c).fault = some f ∧ f.cause = .badParam ∧ f.cls = 4 ∧
        f.pc = (stream s n c).pc)) ∧
  (∀ (s : State) (n : Nat) (c : Ctx) (i : Issued) (k : Option Kept), (cluster s n).vecq = [] →
    let bad : Host.Outcome State Fault Refusal :=
      .next (Past (noteFault (Begun s n c k) n c (keptWhole i) .badParam false) n c i k)
    let off := fun (types : List VTyp) => ¬ ∃ ty, VecForm i ty types
    (Issues s n c i k 1 0x00 → off [.fp32, .bf16, .int32] → exec (.vecAdd n c) s = bad) ∧
    (Issues s n c i k 1 0x01 → off [.fp32, .bf16, .int32] → exec (.vecSub n c) s = bad) ∧
    (Issues s n c i k 1 0x02 → off [.fp32, .bf16, .int32] → exec (.vecMul n c) s = bad) ∧
    (Issues s n c i k 1 0x03 → off [.fp32, .bf16, .int32] → exec (.vecFma n c) s = bad) ∧
    (Issues s n c i k 1 0x04 → off [.fp32, .bf16, .int32] → exec (.vecMax n c) s = bad) ∧
    (Issues s n c i k 1 0x05 → off [.fp32, .bf16, .int32] → exec (.vecMin n c) s = bad) ∧
    (Issues s n c i k 1 0x06 → off [.fp32, .bf16] → exec (.vecDiv n c) s = bad) ∧
    (Issues s n c i k 1 0x07 → off [.fp32, .bf16] → exec (.vecRcp n c) s = bad) ∧
    (Issues s n c i k 1 0x08 → off [.fp32, .bf16] → exec (.vecRsqrt n c) s = bad) ∧
    (Issues s n c i k 1 0x09 → off [.fp32, .bf16] → exec (.vecExp2 n c) s = bad) ∧
    (Issues s n c i k 1 0x0A → off [.fp32, .bf16] → exec (.vecLog2 n c) s = bad) ∧
    (Issues s n c i k 1 0x0B → off [.fp32, .bf16] → exec (.vecDot2 n c) s = bad) ∧
    (Issues s n c i k 1 0x0E → off [.fp32, .bf16] → exec (.vecCvt n c) s = bad) ∧
    (Issues s n c i k 1 0x15 → off [.fp32, .bf16] → exec (.vecBcast n c) s = bad) ∧
    (Issues s n c i k 1 0x16 → off [.fp32, .bf16] → exec (.vecXfer n c) s = bad) ∧
    (Issues s n c i k 1 0x11 → off [.fp32] → exec (.vecRedsum n c) s = bad) ∧
    (Issues s n c i k 1 0x12 → off [.fp32] → exec (.vecRedsq n c) s = bad) ∧
    (Issues s n c i k 1 0x13 → off [.fp32] → exec (.vecRedmax n c) s = bad) ∧
    (Issues s n c i k 1 0x14 → off [.fp32] → exec (.vecRedmin n c) s = bad) ∧
    (Issues s n c i k 1 0x0C → (∀ ty, VecForm i ty [.fp32, .bf16] → lanesInStore i ty = false) → exec (.vecLd n c) s = bad) ∧
    (Issues s n c i k 1 0x0D → (∀ ty, VecForm i ty [.fp32, .bf16] → lanesInStore i ty = false) → exec (.vecSt n c) s = bad) ∧
    (Issues s n c i k 1 0x0F → vecHeld s n i = false →
      (∀ ty d, VecForm i ty [.fp32] → readTD s n (i.xr i.xa) = some d → cvtbOk s i d = false) → exec (.vecCvtb n c) s = bad) ∧
    (Issues s n c i k 1 0x10 → vecHeld s n i = false →
      (∀ ty a d, VecForm i ty [.fp32] → readTD s n (i.xr i.xa) = some a → readTD s n (i.xr i.xe) = some d →
        cvt8Ok s i a d = false) → exec (.vecCvt8 n c) s = bad) ∧
    (let idle := (stream s n c).block = .none ∧ (stream s n c).fault = none ∧ (stream s n c).synq = [] ∧ synHeld s n i = false
     let wide := 2 ^ 48 ≤ i.synOp
     let no := (.next (Past (synResult (Begun s n c k) n c i .badParam 0) n c i k) : Host.Outcome State Fault Refusal)
     (Issues s n c i k 3 0 → idle → wide → exec (.synAdd n c) s = no) ∧
     (Issues s n c i k 3 1 → idle → wide → exec (.synDec n c) s = no) ∧
     (Issues s n c i k 3 3 → idle → wide → exec (.synWait n c) s = no) ∧
     (Issues s n c i k 3 4 → idle → wide → exec (.synMonitor n c) s = no) ∧
     (∀ u, synResult u n c i .badParam 0 = if i.tol
       then modStream u n c (fun t => { t with c := false }.setX i.xs (statusCode .badParam))
       else noteFault u n c (keptWhole i) .badParam false)) ∧
    (∀ q, roOk s n q = false → performRo s n c q = noteFault s n c (keptWhole q) .badParam false) ∧
    (∀ (a : Fin 4) (q : QEntry), clusterLive s n = true → memberHeld s n = false →
      let off := fun (u : ArrayUnit) => u.queue.filter (fun p => p ≠ q)
      ((cluster s n).arrays[a].feeder = none → changePending s n = false →
        (rotation (cluster s n).arrays[a].lastGrant).findSome? (fun c => readyPass s n (cluster s n).arrays[a] c) = some q →
        passOk s n a.val q.c q.ins = false → exec (.arrayGrant n (.feeder a)) s =
          .next (noteFault (modArray s n a (fun u => { u with
            queue := off u
            lastGrant := q.c })) n q.c { keptWhole q.ins with slots := q.slots } .badParam false)) ∧
      ((cluster s n).arrays[a].loading = none →
        (rotation (cluster s n).arrays[a].lastLoad).findSome? (fun c => if takesGrants s n c && !changeOf s n c
          then (cluster s n).arrays[a].queue.find? (fun q => q.c == c && q.isLoad) else none) = some q →
        loadOk s n a.val q.c q.ins = false → exec (.arrayGrant n (.load a)) s =
          .next (noteFault (modArray s n a (fun u => { u with
            queue := off u
            lastLoad := q.c })) n q.c (keptWhole q.ins) .badParam false))) ∧
    (∀ e : Kept, let t := noteFault s n c e .badParam false
      t.mem = s.mem ∧ (stream t n c).v = (stream s n c).v ∧ (stream t n c).x = (stream s n c).x ∧
      (stream t n c).kept = insertKept (stream s n c).kept e ∧
      ((stream s n c).fault = none → ∃ f, (stream t n c).fault = some f ∧ f.cause = .badParam ∧ f.pc = e.ins.pc) ∧
      ((stream s n c).fault ≠ none → (stream t n c).fault = (stream s n c).fault)))

/-- For every state, context and instruction whose destination range ends at V15 or below: after the operation, lane l
of register VD + r holds the 32-bit result for r and l computed from the registers as they stood before, also where
the destination is a source (that every source is read before any write is log entry 41); every other vector register
and every other field of the context is unchanged, and so are every other context and the rest of the package.
(05_cluster_programs.md: VEC: vector work.) -/
def Obligations.VectorResultsFillTheDestination : Prop :=
  ∀ (s : State) (n : Nat) (c : Ctx) (i : Issued) (f : Stream → Nat → Nat → Nat), i.vd + i.regs ≤ 16 →
    (∀ (r : Nat) (l : Fin 64), r < i.regs →
      ((stream (mapLanes s n c i f) n c).vr (i.vd + r))[l] = BitVec.ofNat 32 (f (stream s n c) r l.val)) ∧
    (∀ r, r < i.vd ∨ i.vd + i.regs ≤ r → (stream (mapLanes s n c i f) n c).vr r = (stream s n c).vr r) ∧
    stream (mapLanes s n c i f) n c = { stream s n c with v := (stream (mapLanes s n c i f) n c).v } ∧
    (∀ m d, (m, d) ≠ (n, c) → stream (mapLanes s n c i f) m d = stream s m d) ∧
    mapLanes s n c i f = { s with clusters := (mapLanes s n c i f).clusters }

/-- When a context issues the instruction with a legal type and legal register ranges and nothing waits in the vector
unit: under FP32 and BF16 each lane is the exact sum, difference, product, product plus addend, larger, smaller or
quotient of the operand values, rounded once; under INT32, which DIV does not have, ADD, SUB, MUL and FMA wrap at 32
bits and MAX and MIN compare signed values. The instruction then moves on. Behind a conversion that a commit holds,
ADD joins the queue of 8, and it is not issued while the queue is full. That FMA under INT32 wraps is the model's
reading (R126 names ADD, SUB and MUL; log entry 78). (05_cluster_programs.md: VEC: vector work.) -/
def Obligations.VectorBinaryArithmetic : Prop :=
  ∀ (s : State) (n : Nat) (c : Ctx) (i : Issued) (k : Option Kept),
    (8 ≤ (cluster s n).vecq.length → Issues s n c i k 1 0x00 → exec (.vecAdd n c) s = .next s) ∧
    (∀ p rest, (cluster s n).vecq = p :: rest → rest.length < 7 → (stream s n p.1).fault = none → vecHeld s n p.2 = true →
      Issues s n c i k 1 0x00 → exec (.vecAdd n c) s = .next (Past (modCluster (Begun s n c k) n (fun q => { q with
        vecq := p :: rest ++ [(c, i)] })) n c i k)) ∧
    ((cluster s n).vecq = [] →
    (∀ ty, Issues s n c i k 1 0x00 → VecForm i ty [.fp32, .bf16] → exec (.vecAdd n c) s =
      .next (Past (mapLanes (Begun s n c k) n c i (fun u r l =>
        fpLane ty (fun a b _ => a.add b) (i.lane u ty .a r l) (i.lane u ty .b r l) (i.lane u ty .c r l))) n c i k)) ∧
    (Issues s n c i k 1 0x00 → VecForm i .int32 [.int32] → exec (.vecAdd n c) s =
      .next (Past (mapLanes (Begun s n c k) n c i (fun u r l => ((i.lane u .int32 .a r l) + (i.lane u .int32 .b r l)) % 2 ^ 32)) n c i k)) ∧
    (∀ ty, Issues s n c i k 1 0x01 → VecForm i ty [.fp32, .bf16] → exec (.vecSub n c) s =
      .next (Past (mapLanes (Begun s n c k) n c i (fun u r l =>
        fpLane ty (fun a b _ => a.add b.negate) (i.lane u ty .a r l) (i.lane u ty .b r l) (i.lane u ty .c r l))) n c i k)) ∧
    (Issues s n c i k 1 0x01 → VecForm i .int32 [.int32] → exec (.vecSub n c) s =
      .next (Past (mapLanes (Begun s n c k) n c i (fun u r l => wrap 32 (((i.lane u .int32 .a r l) : Int) - (i.lane u .int32 .b r l)))) n c i k)) ∧
    (∀ ty, Issues s n c i k 1 0x02 → VecForm i ty [.fp32, .bf16] → exec (.vecMul n c) s =
      .next (Past (mapLanes (Begun s n c k) n c i (fun u r l =>
        fpLane ty (fun a b _ => a.mul b) (i.lane u ty .a r l) (i.lane u ty .b r l) (i.lane u ty .c r l))) n c i k)) ∧
    (Issues s n c i k 1 0x02 → VecForm i .int32 [.int32] → exec (.vecMul n c) s =
      .next (Past (mapLanes (Begun s n c k) n c i (fun u r l => ((i.lane u .int32 .a r l) * (i.lane u .int32 .b r l)) % 2 ^ 32)) n c i k)) ∧
    (∀ ty, Issues s n c i k 1 0x03 → VecForm i ty [.fp32, .bf16] → exec (.vecFma n c) s =
      .next (Past (mapLanes (Begun s n c k) n c i (fun u r l =>
        fpLane ty (fun a b d => (a.mul b).add d) (i.lane u ty .a r l) (i.lane u ty .b r l) (i.lane u ty .c r l))) n c i k)) ∧
    (Issues s n c i k 1 0x03 → VecForm i .int32 [.int32] → exec (.vecFma n c) s =
      .next (Past (mapLanes (Begun s n c k) n c i (fun u r l => ((i.lane u .int32 .a r l) * (i.lane u .int32 .b r l) +
        (i.lane u .int32 .c r l)) % 2 ^ 32)) n c i k)) ∧
    (∀ ty, Issues s n c i k 1 0x04 → VecForm i ty [.fp32, .bf16] → exec (.vecMax n c) s =
      .next (Past (mapLanes (Begun s n c k) n c i (fun u r l =>
        fpLane ty (fun a b _ => Fv.max a b) (i.lane u ty .a r l) (i.lane u ty .b r l) (i.lane u ty .c r l))) n c i k)) ∧
    (Issues s n c i k 1 0x04 → VecForm i .int32 [.int32] → exec (.vecMax n c) s =
      .next (Past (mapLanes (Begun s n c k) n c i (fun u r l => wrap 32 (max (sext 32 (i.lane u .int32 .a r l)) (sext 32 (i.lane u .int32 .b r l))))) n c i k)) ∧
    (∀ ty, Issues s n c i k 1 0x05 → VecForm i ty [.fp32, .bf16] → exec (.vecMin n c) s =
      .next (Past (mapLanes (Begun s n c k) n c i (fun u r l =>
        fpLane ty (fun a b _ => Fv.min a b) (i.lane u ty .a r l) (i.lane u ty .b r l) (i.lane u ty .c r l))) n c i k)) ∧
    (Issues s n c i k 1 0x05 → VecForm i .int32 [.int32] → exec (.vecMin n c) s =
      .next (Past (mapLanes (Begun s n c k) n c i (fun u r l => wrap 32 (min (sext 32 (i.lane u .int32 .a r l)) (sext 32 (i.lane u .int32 .b r l))))) n c i k)) ∧
    (∀ ty, Issues s n c i k 1 0x06 → VecForm i ty [.fp32, .bf16] → exec (.vecDiv n c) s =
      .next (Past (mapLanes (Begun s n c k) n c i (fun u r l =>
        fpLane ty (fun a b _ => a.div b) (i.lane u ty .a r l) (i.lane u ty .b r l) (i.lane u ty .c r l))) n c i k)))

/-- When a context issues the instruction with a legal type and legal register ranges and nothing waits in the vector
unit: RCP, RSQRT, EXP2 and LOG2 write the rounded reciprocal, reciprocal square root, power of two and logarithm of
each lane; DOT2 writes the FP32 sum of two BF16 products and an FP32 addend with one rounding, whatever the type;
BCAST writes X[XE][31:0], as it stood at issue, to every lane; XFER writes lane IMM mod 64 of the first register of
VA, zero-extended, to X[XE] (log entry 41). The instruction then moves on. How EXP2 and LOG2 round is log entry 8.
(05_cluster_programs.md: VEC: vector work.) -/
def Obligations.VectorUnaryAndTransferOperations : Prop :=
  ∀ (s : State) (n : Nat) (c : Ctx) (i : Issued) (k : Option Kept), (cluster s n).vecq = [] →
    (∀ ty, Issues s n c i k 1 0x07 → VecForm i ty [.fp32, .bf16] → exec (.vecRcp n c) s =
      .next (Past (mapLanes (Begun s n c k) n c i (fun u r l =>
        fpLane ty (fun a _ _ => (Fv.ofInt 1).div a) (i.lane u ty .a r l) (i.lane u ty .b r l) (i.lane u ty .c r l))) n c i k)) ∧
    (∀ ty, Issues s n c i k 1 0x08 → VecForm i ty [.fp32, .bf16] → exec (.vecRsqrt n c) s =
      .next (Past (mapLanes (Begun s n c k) n c i (fun u r l =>
        fpLane ty (fun a _ _ => a.rsqrt) (i.lane u ty .a r l) (i.lane u ty .b r l) (i.lane u ty .c r l))) n c i k)) ∧
    (∀ ty, Issues s n c i k 1 0x09 → VecForm i ty [.fp32, .bf16] → exec (.vecExp2 n c) s =
      .next (Past (mapLanes (Begun s n c k) n c i (fun u r l =>
        fpLane ty (fun a _ _ => a.exp2) (i.lane u ty .a r l) (i.lane u ty .b r l) (i.lane u ty .c r l))) n c i k)) ∧
    (∀ ty, Issues s n c i k 1 0x0A → VecForm i ty [.fp32, .bf16] → exec (.vecLog2 n c) s =
      .next (Past (mapLanes (Begun s n c k) n c i (fun u r l =>
        fpLane ty (fun a _ _ => a.log2) (i.lane u ty .a r l) (i.lane u ty .b r l) (i.lane u ty .c r l))) n c i k)) ∧
    (∀ ty, Issues s n c i k 1 0x0B → VecForm i ty [.fp32, .bf16] → exec (.vecDot2 n c) s =
      .next (Past (mapLanes (Begun s n c k) n c i (fun u r l =>
        let a := i.lane u ty .a r l
        let b := i.lane u ty .b r l
        toF32 ((((bf16 a).mul (bf16 b)).add ((bf16 (a / 65536)).mul (bf16 (b / 65536)))).add (f32 (i.lane u ty .c r l))))) n c i k)) ∧
    (∀ ty, Issues s n c i k 1 0x15 → VecForm i ty [.fp32, .bf16] → exec (.vecBcast n c) s =
      .next (Past (mapLanes (Begun s n c k) n c i (fun _ _ _ => i.xr i.xe % 2 ^ 32)) n c i k)) ∧
    (∀ ty, Issues s n c i k 1 0x16 → VecForm i ty [.fp32, .bf16] → exec (.vecXfer n c) s =
      .next (Past (modStream (Begun s n c k) n c (fun u =>
        u.setX i.xe (vgetD (u.vr i.va) (i.imm % 64) 0).toNat)) n c i k))

/-- When a context issues the instruction with a legal type and ranges, all its checks pass and nothing waits in the
vector unit: LD fills the lanes from the own store at X[XA] + IMM + (64r + l) x ESTR, 32 or 16 bits a lane; ST writes
them there in increasing r, then l; CVT of BF16 widens exactly, under either RND with no draw (log entry 41), and CVT
of FP32 under RNE rounds once to BF16 and changes no counter, flag or memory, under SR with the draws of its lanes,
register by register; CVTB converts its registers into blocks of a row and adds its counts to the sticky flags; CVT8
converts a row of FP8 blocks likewise. CVTB and CVT8 enter the unit's queue and wait there while a commit of the step
holds their tensor back. The instruction moves on. (05_cluster_programs.md: VEC: vector work, 04_block_formats.md:
Conversions to block formats, 04_block_formats.md: FP8 inputs.) -/
def Obligations.VectorLoadsStoresAndConversions : Prop :=
  ∀ (s : State) (n : Nat) (c : Ctx) (i : Issued) (k : Option Kept), (cluster s n).vecq = [] →
    (∀ ty, Issues s n c i k 1 0x0C → VecForm i ty [.fp32, .bf16] → lanesInStore i ty = true → exec (.vecLd n c) s =
      .next (Past (mapLanes (Begun s n c k) n c i (fun _ r l =>
        rdNat s (storeAddr n (i.laneAddr r l)) (if ty = .bf16 then 2 else 4))) n c i k)) ∧
    (∀ ty, Issues s n c i k 1 0x0D → VecForm i ty [.fp32, .bf16] → lanesInStore i ty = true →
      ∃ t, exec (.vecSt n c) s = .next t ∧
        t.mem = ((List.range i.regs).foldl (fun u r => (List.range 64).foldl (fun v l =>
          wrBytes v (storeAddr n (i.laneAddr r l)) (leBytes (if ty = .bf16 then 2 else 4) (i.lane (stream s n c) ty .a r l))) u) s).mem ∧
        (stream t n c).v = (stream s n c).v ∧ (∀ m d, (m, d) ≠ (n, c) → stream t m d = stream s m d)) ∧
    (Issues s n c i k 1 0x0E → VecForm i .bf16 [.bf16] → exec (.vecCvt n c) s =
      .next (Past (mapLanes (Begun s n c k) n c i (fun u r l => toF32 (bf16 (i.lane u .bf16 .a r l)))) n c i k)) ∧
    (Issues s n c i k 1 0x0E → VecForm i .fp32 [.fp32] → i.sr = false →
      ∃ t, exec (.vecCvt n c) s = .next t ∧ t.mem = s.mem ∧ t.guard = s.guard ∧
        (stream t n c).sat = (stream s n c).sat ∧ (stream t n c).nfe = (stream s n c).nfe ∧
        (cluster t n).gens = (cluster s n).gens ∧
        (∀ (r : Nat) (l : Fin 64), r < i.regs → ((stream t n c).vr (i.vd + r))[l] =
          BitVec.ofNat 32 (toBf16 (f32 (i.lane (stream s n c) .fp32 .a r l.val))))) ∧
    (Issues s n c i k 1 0x0E → VecForm i .fp32 [.fp32] → i.sr = true → exec (.vecCvt n c) s =
      .next (Past ((List.range i.regs).foldl (fun u r =>
        let d := drawLanes true n (List.range 64) (cluster u n).gens
        modStream (modCluster u n (fun q => { q with gens := d.2 })) n c (fun x => x.setV (i.vd + r)
          (mkReg (fun l => encodeFp 7 (f32 (i.lane (stream s n c) .fp32 .a r l)) (d.1.getD l none))))) (Begun s n c k)) n c i k)) ∧
    (∀ d, Issues s n c i k 1 0x0F → VecForm i .fp32 [.fp32] → vecHeld s n i = false →
      readTD s n (i.xr i.xa) = some d → cvtbOk s i d = true → exec (.vecCvtb n c) s =
        .next (Past (performCvtb (Begun s n c k) n c i d) n c i k)) ∧
    (∀ a d, Issues s n c i k 1 0x10 → VecForm i .fp32 [.fp32] → vecHeld s n i = false →
      readTD s n (i.xr i.xa) = some a → readTD s n (i.xr i.xe) = some d → cvt8Ok s i a d = true →
      exec (.vecCvt8 n c) s =
        (let x := (List.range (ceilDiv a.k 32)).foldl (fun (x : State × Counts) b =>
            ((cvt8Block x.1 n i a d b).1, x.2.add (cvt8Block x.1 n i a d b).2)) (Begun s n c k, Counts.none)
         .next (Past (modStream x.1 n c (fun u => { u with sat := u.sat || x.2.sat != 0, nfe := u.nfe || x.2.nonfin != 0 })) n c i k))) ∧
    (Issues s n c i k 1 0x0F → vecHeld s n i = true → exec (.vecCvtb n c) s =
      .next (Past (modCluster (Begun s n c k) n (fun q => { q with vecq := [(c, i)] })) n c i k)) ∧
    (Issues s n c i k 1 0x10 → vecHeld s n i = true → exec (.vecCvt8 n c) s =
      .next (Past (modCluster (Begun s n c k) n (fun q => { q with vecq := [(c, i)] })) n c i k))

/-- When a context issues the instruction under FP32 with a legal range and nothing waits in the vector unit: REDSUM
and REDSQ write the sum of R128's tree, of the values or of their squares; REDMAX and REDMIN write the winner in
X[XE][31:0] and X[XI] plus its index, modulo 2^32, in X[XE][63:32], ties keeping the lowest index (the order of two
NaNs is open, log entry 9). No other field changes but as the instruction moves on. For every list of registers that
holds at least one lane and no NaN: the value that REDMAX finds is the lane at the index it finds; no lane stands
above it in the order of R128, in which +0 stands above -0; every lane before the index stands below it. The same
holds of REDMIN in the reverse order. (05_cluster_programs.md: VEC: vector work.) -/
def Obligations.VectorReductionsWriteTheirScalar : Prop :=
  (∀ (s : State) (n : Nat) (c : Ctx) (i : Issued) (k : Option Kept), (cluster s n).vecq = [] → VecForm i .fp32 [.fp32] →
    (Issues s n c i k 1 0x11 → exec (.vecRedsum n c) s =
      .next (Past (modStream (Begun s n c k) n c (fun u => u.setX i.xe (redSum false (i.redRegs u)))) n c i k)) ∧
    (Issues s n c i k 1 0x12 → exec (.vecRedsq n c) s =
      .next (Past (modStream (Begun s n c k) n c (fun u => u.setX i.xe (redSum true (i.redRegs u)))) n c i k)) ∧
    (∀ p, redPick aboveMax (i.redRegs (stream s n c)) = p → Issues s n c i k 1 0x13 → exec (.vecRedmax n c) s =
      .next (Past (modStream (Begun s n c k) n c (fun u =>
        u.setX i.xe (p.1 + 2 ^ 32 * ((i.xr i.xi + p.2) % 2 ^ 32)))) n c i k)) ∧
    (∀ p, redPick belowMin (i.redRegs (stream s n c)) = p → Issues s n c i k 1 0x14 → exec (.vecRedmin n c) s =
      .next (Past (modStream (Begun s n c k) n c (fun u =>
        u.setX i.xe (p.1 + 2 ^ 32 * ((i.xr i.xi + p.2) % 2 ^ 32)))) n c i k))) ∧
  (∀ rs : List (List Nat), rs.flatten ≠ [] → (∀ x ∈ rs.flatten, x < 2 ^ 32 ∧ f32 x ≠ .nan) →
    (let p := redPick aboveMax rs
     rs.flatten[p.2]? = some p.1 ∧ (∀ x ∈ rs.flatten, orderKey x ≤ orderKey p.1) ∧
     (∀ j x, j < p.2 → rs.flatten[j]? = some x → orderKey x < orderKey p.1)) ∧
    (let p := redPick belowMin rs
     rs.flatten[p.2]? = some p.1 ∧ (∀ x ∈ rs.flatten, orderKey p.1 ≤ orderKey x) ∧
     (∀ j x, j < p.2 → rs.flatten[j]? = some x → orderKey p.1 < orderKey x)))

/-- When a context of a cluster that no other leads issues the instruction: LOAD or PASS joins the queue of the array
that it names while the context holds fewer than 4 places there, and otherwise is not issued. READ or FLUSH joins the
read-out queue, while the context holds fewer than 4 places, when another waits there or an earlier pass keeps it;
with the queue empty and nothing to wait for, it is granted at once. WIN writes its 10 bits to the context's WIN. The
instruction then moves on, and nothing else changes. With no capture active and no line poisoned, after the grant of a
FLUSH of entries that exist, in a cluster of no fused group, every one of the 64 columns of each of its N entries
reads 0, every other entry of the cluster and every entry of every other cluster keeps its value, and so does every
byte of every stack. (05_cluster_programs.md: ARR: array work, 05_cluster_programs.md: Ordering and hazards,
03_cluster_array.md: Sharing the array among streams, 05_cluster_programs.md: The accumulation store across
micro-batches.) -/
def Obligations.ArrayInstructionsEnterTheirQueues : Prop :=
  (∀ (s : State) (n : Nat) (c : Ctx) (i : Issued) (k : Option Kept), memberHeld s n = false →
    (let a : Fin 4 := Fin.ofNat 4 (i.f 0 21 20)
     let put := fun isLoad => modArray (Begun s n c k) n a (fun u => { u with queue := u.queue ++
       [{ c := c, ins := i, isLoad := isLoad, slots := (k.map (·.slots)).getD 0 }] })
     (Issues s n c i k 0 0 → queuedOf (cluster s n).arrays[a] c < 4 →
       exec (.arrLoad n c) s = .next (Past (put true) n c i k)) ∧
     (Issues s n c i k 0 0 → 4 ≤ queuedOf (cluster s n).arrays[a] c → exec (.arrLoad n c) s = .next s) ∧
     (Issues s n c i k 0 1 → queuedOf (cluster s n).arrays[a] c < 4 →
       exec (.arrPass n c) s = .next (Past (put false) n c i k)) ∧
     (Issues s n c i k 0 1 → 4 ≤ queuedOf (cluster s n).arrays[a] c → exec (.arrPass n c) s = .next s)) ∧
    (((cluster s n).readq.filter (fun p => p.1 == c)).length < 4 →
     (cluster s n).readq ≠ [] ∨ roWaits (Begun s n c k) n c i = true →
     let wait := reachRo n (modCluster (Begun s n c k) n (fun q => { q with readq := q.readq ++ [(c, i)] })) c
     (Issues s n c i k 0 2 → exec (.arrRead n c) s = .next (Past wait n c i k)) ∧
     (Issues s n c i k 0 3 → exec (.arrFlush n c) s = .next (Past wait n c i k))) ∧
    (∀ t : State, reachRo n t c =
      modStream t n c (fun u => { u with roPasses := (stream (reachRo n t c) n c).roPasses }) ∨ reachRo n t c = t) ∧
    ((cluster s n).readq = [] → roWaits (Begun s n c k) n c i = false →
     let now := performRo (modCluster (Begun s n c k) n (fun q => { q with lastRead := c })) n c i
     (Issues s n c i k 0 2 → exec (.arrRead n c) s = .next (Past now n c i k)) ∧
     (Issues s n c i k 0 3 → exec (.arrFlush n c) s = .next (Past now n c i k))) ∧
    (Issues s n c i k 0 4 → exec (.arrWin n c) s =
      .next (Past (modStream (Begun s n c k) n c (fun u => { u with win := BitVec.ofNat 10 (i.f 1 9 0) })) n c i k))) ∧
  (∀ (s : State) (n : Nat) (c : Ctx) (i : Issued), s.ckpt.capture = none → s.poison = [] → n < 4096 →
    (cluster s n).fused = none → isRead i = false → 1 ≤ i.roN → i.roN ≤ 512 → i.roEnt + i.roN ≤ 512 →
    let t := performRo s n c i
    (∀ e j, i.roEnt ≤ e → e < i.roEnt + i.roN → j < 64 → accGet t n e j = 0) ∧
    (∀ m e j, m < 4096 → e < 512 → j < 64 → m ≠ n ∨ e < i.roEnt ∨ i.roEnt + i.roN ≤ e → accGet t m e j = accGet s m e j) ∧
    (∀ a, a < linearEnd → rdByte t a = rdByte s a) ∧ t.clusters = s.clusters ∧ t = { s with mem := t.mem })

/-- When a context of a cluster in no fused group issues the instruction with its array queues and read-out queue
empty and no change pending, and no array holds a pass or a slot: PART gives the cluster the partition of its field at
once. FUSE with a shape at a leader's place, whose members all run P1, belong to no group and are empty too, makes the
cluster the leader and every other member a member of its group; FUSE with shape 0 changes nothing. A leader of a
group whose members are empty unfuses it by FUSE with shape 0. The instruction then moves on and the stores and banks
stay as they are. A FUSE whose members are not free faults with BAD_PARAM after issue. (05_cluster_programs.md: ARR:
array work, 03_cluster_array.md: Partitions, 03_cluster_array.md: Fusion.) -/
def Obligations.PartitionAndFusionChangeAnEmptyCluster : Prop :=
  (∀ (s : State) (n : Nat) (c : Ctx) (i : Issued) (k : Option Kept) (g : FuseShape), memberHeld s n = false →
    (cluster s n).fused = some g → arrQueuesEmpty s n c = true → changePending s n = false →
    (fuseMembers n g).all (fun m => arraysEmpty (cluster s m)) = true → Issues s n c i k 0 6 → i.f 0 1 0 = 0 →
    ∃ t, exec (.arrFuse n c) s = .next t ∧ t.mem = s.mem ∧ (∀ m ∈ fuseMembers n g, (cluster t m).leader = none ∧
      (cluster t m).fused = none ∧ (cluster t m).banks = (cluster s m).banks)) ∧
  ∀ (s : State) (n : Nat) (c : Ctx) (i : Issued) (k : Option Kept), memberHeld s n = false →
    (cluster s n).fused = none → arrQueuesEmpty s n c = true → changePending s n = false → arraysEmpty (cluster s n) = true →
    (Issues s n c i k 0 5 → ∃ t, exec (.arrPart n c) s = .next t ∧
      (cluster t n).part = [Partition.p1, .p2h, .p2v, .p4].getD (i.f 0 1 0) .p1 ∧ (cluster t n).change = none ∧
      (cluster t n).banks = (cluster s n).banks ∧ t.mem = s.mem ∧ (∀ m, m ≠ n → cluster t m = cluster s m)) ∧
    (∀ f, Issues s n c i k 0 6 → fuseShapeOf i = some f →
      fuseOk s n f = true → (fuseMembers n f).all (fun m => arraysEmpty (cluster s m)) = true →
      ∃ t, exec (.arrFuse n c) s = .next t ∧ (cluster t n).fused = some f ∧ (cluster t n).leader = none ∧
        (∀ m ∈ fuseMembers n f, m ≠ n → (cluster t m).leader = some n ∧ (cluster t m).banks = (cluster s m).banks) ∧
        (∀ m, m ∉ fuseMembers n f → m ≠ n → cluster t m = cluster s m) ∧ t.mem = s.mem) ∧
    (Issues s n c i k 0 6 → i.f 0 1 0 = 0 → exec (.arrFuse n c) s = .next (Past (Begun s n c k) n c i k)) ∧
    (∀ f, Issues s n c i k 0 6 → fuseShapeOf i = some f →
      fuseOk s n f = false → exec (.arrFuse n c) s =
        .next (Past (noteFault (Begun s n c k) n c (k.getD (keptWhole i)) .badParam false) n c i k))

/-- For a cluster whose die runs and that no other leads. ARRAY_GRANT of an idle feeder, with no change pending, takes
the first ready pass in rotation out of the queue and, when its checks pass, into the feeder with its descriptor as
read now. FEEDER_SLOT_ISSUE with an empty feeder advances the array's clock by 1 and counts a filler slot if there is
filler work and it takes this ck; with a pass whose drain rule fails it issues a bubble, counted as drain, or, when
throttling in force takes the ck, one counted as throttle; and it issues the pass's next slot when the token gate is
open, the SET rule holds and no crossing slows the group. LOAD_COMMIT of a load that waits for no pass writes its
parts into the bank and ends the load. DRAIN_COMMIT commits the oldest slot that has reached the drain, unless a lower
array takes its bank; either way the other slots that have reached the drain then wait in the drain queue.
(03_cluster_array.md: Sharing the array among streams, 03_cluster_array.md: Valid bits and bubbles,
03_cluster_array.md: Weight load, 03_cluster_array.md: Commits and determinism.) -/
def Obligations.ArrayStepsGrantIssueAndCommit : Prop :=
  ∀ (s : State) (n : Nat) (a : Fin 4), clusterLive s n = true → memberHeld s n = false →
    (∀ q, (cluster s n).arrays[a].feeder = none → changePending s n = false →
      (rotation (cluster s n).arrays[a].lastGrant).findSome? (fun c => readyPass s n (cluster s n).arrays[a] c) = some q →
      passOk s n a.val q.c q.ins = true →
      ∃ t, exec (.arrayGrant n (.feeder a)) s = .next t ∧
        (cluster t n).arrays[a] = { (cluster s n).arrays[a] with
          queue := (cluster s n).arrays[a].queue.filter (fun p => p ≠ q), lastGrant := q.c
          feeder := some { c := q.c, ins := q.ins, slots := q.slots,
                           td := rdBytes s (storeAddr n (q.ins.xr (q.ins.f 0 3 0))) 32 } } ∧
        t = { s with clusters := t.clusters } ∧ (∀ m, m ≠ n → cluster t m = cluster s m)) ∧
    (∀ h throttle filler, (cluster s n).arrays[a].feeder = none → arrayShape (cluster s n) n a.val = some h →
      exec (.feederSlotIssue n a throttle filler) s =
        .next (if filler && s.power.filler then slotTick s n a .filler else tickArray s n a)) ∧
    (∀ f h t throttle filler, (cluster s n).arrays[a].feeder = some f → arrayShape (cluster s n) n a.val = some h →
      parseTD f.td = some t →
      (drainAdmits s n a.val (f.ins.passEnt + f.slots) = false →
        exec (.feederSlotIssue n a throttle filler) s =
          .next (slotTick s n a .drain)) ∧
      (drainAdmits s n a.val (f.ins.passEnt + f.slots) = true → throttle = true → throttled s = true →
        exec (.feederSlotIssue n a throttle filler) s = .next (slotTick s n a .throttle)) ∧
      (drainAdmits s n a.val (f.ins.passEnt + f.slots) = true → (throttle && throttled s) = false → tokenGate s n f.slots f.ins = .open →
        (f.slots = 0 → setClear s n f.c f.ins = true) → relayedSlow s n = false →
        exec (.feederSlotIssue n a throttle filler) s =
          .next (issueSlot s n a f h t))) ∧
    (∀ l h, (cluster s n).arrays[a].loading = some l → arrayShape (cluster s n) n a.val = some h → l.before = [] →
      exec (.loadCommit n a) s = .next (modArray (l.parts.foldl (fun t p => modCluster t p.1 (fun k =>
        { k with banks := put k.banks (p.2.1 * 16 + l.bank.toNat) p.2.2 })) s) n a (fun u => { u with loading := none }))) ∧
    (∀ q h, dueSlot (cluster s n) n a.val = some q → arrayShape (cluster s n) n a.val = some h →
      (losesBank (cluster s n) n a.val q = false → exec (.drainCommit n a) s =
        .next (tryChanges (modArray (commitSlot s h q) n a (fun u => enterQueue { u with flight := u.flight.tail } h.latency)) n)) ∧
      (losesBank (cluster s n) n a.val q = true → exec (.drainCommit n a) s =
        .next (modArray s n a (fun u => enterQueue u h.latency)))) ∧
    (∀ (u : ArrayUnit) (lat : Nat), enterQueue u lat = { u with flight := u.flight.map (fun q =>
      { q with queued := q.queued || decide (q.issued + lat ≤ u.ck) }) })

/-- With no capture active and no line poisoned, for an array of one cluster and a slot whose columns lie in the array
and whose entry is below 512: after its commit, each enabled column that is not left out holds the slot's lane under
SET, and the sum of the stored value and the lane modulo 2^64 under ADD; every other column of every entry of every
cluster, and every byte of every stack, is unchanged (R75, R92, R139). (03_cluster_array.md: Commits and determinism,
03_cluster_array.md: Joints, 05_cluster_programs.md: ARR: array work.) -/
def Obligations.ACommitAddsTheLongLanes : Prop :=
  ∀ (s : State) (n : Nat) (h : Shape) (q : Slot), s.ckpt.capture = none → s.poison = [] → n < 4096 →
    arrayShape { Cluster.reset with part := .p1 } n 0 = some h → q.entry < 512 → q.colLo + q.colN ≤ 64 →
    (∀ j, q.colLo ≤ j → j < q.colLo + q.colN → (q.evenOnly = true → j % 2 = 0) →
      accGet (commitSlot s h q) n q.entry j =
        (if q.set then (q.lanes.getD j 0).toNat else (accGet s n q.entry j + (q.lanes.getD j 0).toNat) % 2 ^ 64)) ∧
    (∀ m e j, m < 4096 → e < 512 → j < 64 →
      m ≠ n ∨ e ≠ q.entry ∨ j < q.colLo ∨ q.colLo + q.colN ≤ j ∨ (q.evenOnly = true ∧ j % 2 = 1) →
      accGet (commitSlot s h q) m e j = accGet s m e j) ∧
    (∀ a, a < linearEnd → rdByte (commitSlot s h q) a = rdByte s a) ∧
    commitSlot s h q = { s with mem := (commitSlot s h q).mem }

/-- On a sync word whose line is not poisoned, with an operand below 2^48: an orphaned word answers OWNER_LOST and
nothing changes. Otherwise, with VALUE v: ADD n answers DONE and v; DEC n DONE and v, or UNDERFLOW and v when v < n;
TAKE DONE and v, or RETRY and 0 when v is 0; WAIT n DONE or RETRY and v; MONITOR n DONE and v with the entry in the
watch table, or BUSY when the table is full. With no poison and no capture, VALUE is afterwards v + n modulo 2^48, v -
n, v - 1, or as before, OWNER and ORPHAN stay, and every byte outside the word reads as before. A bad address, an
operand of 2^48 or more, and a poisoned line answer BAD_PARAM, BAD_PARAM and DEGRADED, and nothing changes.
(13_sync.md: Operations, 13_sync.md: The word.) -/
def Obligations.SyncWordOperationsFollowTheirTable : Prop :=
  ∀ (s : State) (mid a n : Nat) (nt : Bool × W64),
    (wordPlace a = false ∨ 2 ^ 48 ≤ n → ∀ sop, syncOp s mid a sop n nt = (s, .badParam, 0)) ∧
    (wordPlace a = true → n < 2 ^ 48 → ∀ sop, sop ≤ 4 →
      (poisoned s a 8 = true → syncOp s mid a sop n nt = (s, .degraded, 0)) ∧
      (poisoned s a 8 = false → wordOrphan? (rdNat s a 8) = true → syncOp s mid a sop n nt = (s, .ownerLost, 0))) ∧
    (wordPlace a = true → n < 2 ^ 48 → poisoned s a 8 = false → wordOrphan? (rdNat s a 8) = false →
      let v := wordValue (rdNat s a 8)
      let res := fun sop => (syncOp s mid a sop n nt).2
      res 0 = (.done, v) ∧ res 1 = (if n ≤ v then .done else .underflow, v) ∧
      res 2 = (if 1 ≤ v then (.done, v) else (.retry, 0)) ∧ res 3 = (if n ≤ v then .done else .retry, v) ∧
      res 4 = (if watchSize a ≤ watchUsed s a then .busy else .done, v) ∧
      (watchUsed s a < watchSize a → (syncOp s mid a 4 n nt).1.sync.monitors = s.sync.monitors ++
        [{ addr := BitVec.ofNat 48 a, n := BitVec.ofNat 48 n, notify := nt.2, notifyLocal := nt.1,
           master := BitVec.ofNat 16 mid, due := decide (n ≤ v) }]) ∧
      (∀ sop, 3 ≤ sop → sop ≤ 4 → (syncOp s mid a sop n nt).1.mem = s.mem) ∧
      (s.poison = [] → s.ckpt.capture = none → ∀ sop, sop ≤ 4 →
        let t := (syncOp s mid a sop n nt).1
        wordValue (rdNat t a 8) = (match sop with
          | 0 => (v + n) % 2 ^ 48
          | 1 => if n ≤ v then v - n else v
          | 2 => v - 1
          | _ => v) ∧
        rdNat t a 8 / 2 ^ 48 = rdNat s a 8 / 2 ^ 48 ∧
        (∀ b, (∀ i, i < 8 → keyOf b ≠ keyOf (a + i)) → rdByte t b = rdByte s b) ∧
        t = { s with
          mem := t.mem
          sync := { s.sync with
            monitors := t.sync.monitors
            cntOps := t.sync.cntOps
            cntUnderflow := t.sync.cntUnderflow
            cntRetry := t.sync.cntRetry } }))

/-- For a package in service: each SYNC_OP performs its operation under the session's master ID, and its reply carries
the status and, as 8 bytes, the observed value; on a word that the master may reach, that is the operation of the
table, and else only the counters of the meshes and edges on the way move. SYNC_INIT of a reachable word that is not
poisoned, with a VALUE below 2^48 and a defined OWNER, while the owner index has room: the word holds VALUE and OWNER
with ORPHAN clear, its index entry is as OWNER says, its monitors are disarmed but those that are due, and it waits
for no orphaning; every byte outside the word and the table of the owner index reads as before, and the answer is
DONE. (13_sync.md: Operations, 13_sync.md: Owners and orphans, 14_command_protocol.md: Command reference.) -/
def Obligations.SyncCommandsActAtTheHome : Prop :=
  ∀ (s : State) (h : CmdHdr) (addr : W64), InService s →
    let run := fun (sop n : Nat) (nt : W64) =>
      let r := ownSync s h.master.toNat addr.toNat sop n (false, nt)
      (.next (reply r.1 h 0x0502 r.2.1 (leBytes 8 r.2.2)) : Host.Outcome State Fault Refusal)
    (∀ n, exec (.syncOpAdd h addr n) s = run 0 n.toNat 0) ∧ (∀ n, exec (.syncOpDec h addr n) s = run 1 n.toNat 0) ∧
    exec (.syncOpTake h addr) s = run 2 0 0 ∧ (∀ n, exec (.syncOpWait h addr n) s = run 3 n.toNat 0) ∧
    (∀ n g, exec (.syncOpMonitor h addr n g) s = run 4 n.toNat g) ∧
    (∀ sop n nt, accessStatus s h.master.toNat addr.toNat 8 .atomic = .done → wordPlace addr.toNat = true →
      ownSync s h.master.toNat addr.toNat sop n nt =
        syncOp (meshTrip s h.master.toNat addr.toNat 8 true) h.master.toNat addr.toNat sop n nt) ∧
    (∀ mid a len w, meshTrip s mid a len w = { s with
      dies := (meshTrip s mid a len w).dies, links := (meshTrip s mid a len w).links }) ∧
    (∀ value owner, cmdAccess s h.master.toNat addr.toNat 8 .atomic = .done → wordPlace addr.toNat = true →
      value.toNat < 2 ^ 48 → ownerOk owner.toNat = true → poisoned s addr.toNat 8 = false →
      (owner = 0x7FFF ∨ (indexWithout s addr.toNat).length < 65536) → s.sync.index.length ≤ 65536 → s.poison = [] →
      s.ckpt.capture = none →
      ∃ t, exec (.syncInit h addr value owner) s = .next t ∧
        rdNat t addr.toNat 8 = value.toNat + owner.toNat * 2 ^ 48 ∧
        t.sync.index = (if owner = 0x7FFF then indexWithout s addr.toNat
          else indexWithout s addr.toNat ++ [(BitVec.ofNat 48 addr.toNat, owner)]) ∧
        t.sync.monitors = s.sync.monitors.filter (fun m => m.due || !sameWord m.addr.toNat addr.toNat) ∧ Answered t h 0x0501 .done [] ∧
        (∀ a ∈ t.sync.orphans, sameWord a.toNat addr.toNat = false) ∧
        (∀ b, (∀ i, i < 8 → keyOf b ≠ keyOf (addr.toNat + i)) →
          (∀ i, i < 16 * 65536 → keyOf b ≠ keyOf (s.sync.tableBase.toNat + i)) → rdByte t b = rdByte s b))

/-- When a context issues the instruction with an operand below 2^48 and no SYN instruction of it in progress: on a
word of the package, ADD, DEC, TAKE and MONITOR perform the operation and write its result; WAIT whose value is not
reached blocks in the watch table, or polls when that is full; on a word of another package a request leaves and the
context blocks. BAR makes the cluster's tap arrive and blocks on the channel. An operation whose path crosses an edge
that trains waits in the queue (log entry 79). A result writes the observed value to X[XS] with bit 63 clear and C 1
for DONE, 0 for RETRY; with TOL any other status writes its code and C 0; without TOL it is the fault of the stream
and the instruction is kept. Behind a SYN instruction in progress, ADD joins the queue of 4, and it is not issued
while the queue is full. Which instructions wait in the queue, and that a context issues past a waiting one, is log
entry 43. (05_cluster_programs.md: SYN: sync operations, 13_sync.md: Operations, 13_sync.md: Waiting, 13_sync.md:
Barriers.) -/
def Obligations.SynInstructionsActOnSyncWords : Prop :=
  ∀ (s : State) (n : Nat) (c : Ctx) (i : Issued) (k : Option Kept),
    let b := Begun s n c k
    let perform := fun (a sop v : Nat) (nt : Bool × W64) =>
      let r := ownSync b n a sop v nt
      (.next (Past (synResult r.1 n c i r.2.1 r.2.2) n c i k) : Host.Outcome State Fault Refusal)
    let away := fun (p a sop v : Nat) (nt : Bool × W64) =>
      (.next (Past (synAway b n c i p a sop v nt) n c i k) : Host.Outcome State Fault Refusal)
    let note := (i.f 2 31 31 == 1, BitVec.ofNat 64 (i.xr (i.f 2 3 0)))
    (Issues s n c i k 3 0 → 4 ≤ (stream s n c).synq.length → exec (.synAdd n c) s = .next s) ∧
    (Issues s n c i k 3 0 → (stream s n c).block ≠ .none → (stream s n c).synq.length < 4 → exec (.synAdd n c) s =
      .next (Past (modStream b n c (fun u => { u with synq := u.synq ++ [i] })) n c i k)) ∧
    (Issues s n c i k 3 0 → (stream s n c).block = .none → (stream s n c).synq = [] → synHeld b n i = true →
      exec (.synAdd n c) s = .next (Past (modStream b n c (fun u => { u with synq := [i] })) n c i k)) ∧
    ((stream s n c).block = .none → (stream s n c).synq = [] → EdgesSettled s →
    (∀ a, i.synOp < 2 ^ 48 → synTarget s i = .here a →
      (Issues s n c i k 3 0 → exec (.synAdd n c) s = perform a 0 i.synOp (false, 0)) ∧
      (Issues s n c i k 3 1 → exec (.synDec n c) s = perform a 1 i.synOp (false, 0)) ∧
      (Issues s n c i k 3 4 → exec (.synMonitor n c) s = perform a 4 i.synOp note)) ∧
    (∀ a, synTarget s i = .here a → Issues s n c i k 3 2 → exec (.synTake n c) s = perform a 2 0 (false, 0)) ∧
    (∀ a, i.synOp < 2 ^ 48 → synTarget s i = .here a → Issues s n c i k 3 3 →
      let r := ownSync b n a 3 i.synOp (false, 0)
      (r.2.1 ≠ .retry → exec (.synWait n c) s = perform a 3 i.synOp (false, 0)) ∧
      (r.2.1 = .retry → ∃ t, exec (.synWait n c) s = .next t ∧ (stream t n c).blocked = some i ∧
        (if watchUsed r.1 a < watchSize a then
          (stream t n c).block = .wait (BitVec.ofNat 48 a) (BitVec.ofNat 48 i.synOp) ∧
          t.sync.waiters = s.sync.waiters ++
            [{ addr := BitVec.ofNat 48 a, n := BitVec.ofNat 48 i.synOp, cl := n, c := c }]
        else (stream t n c).block = .poll (BitVec.ofNat 48 a) (BitVec.ofNat 48 i.synOp) ∧
          t.sync.waiters = s.sync.waiters) ∧ t.mem = s.mem)) ∧
    (∀ p a, synTarget s i = .away p a → (i.synOp < 2 ^ 48 →
        (Issues s n c i k 3 0 → exec (.synAdd n c) s = away p a 0 i.synOp (false, 0)) ∧
        (Issues s n c i k 3 1 → exec (.synDec n c) s = away p a 1 i.synOp (false, 0)) ∧
        (Issues s n c i k 3 3 → exec (.synWait n c) s = away p a 3 i.synOp (false, 0)) ∧
        (Issues s n c i k 3 4 → exec (.synMonitor n c) s = away p a 4 i.synOp note)) ∧
      (Issues s n c i k 3 2 → exec (.synTake n c) s = away p a 2 0 (false, 0)) ∧
      (∀ sop v nt, (stream (synAway b n c i p a sop v nt) n c).block = .remote ∧
        (stream (synAway b n c i p a sop v nt) n c).blocked = some i)) ∧
    (Issues s n c i k 3 5 → ∃ t, exec (.synBar n c) s = .next t ∧
      (stream t n c).block = .bar (Fin.ofNat 16 (i.f 0 15 12)) ∧ (stream t n c).blocked = some i ∧
      barrier t (i.f 0 15 12) = { barrier s (i.f 0 15 12) with
        arrived := insertNat (barrier s (i.f 0 15 12)).arrived n
        waiting := (barrier s (i.f 0 15 12)).waiting ++ [(n, c)] } ∧
      t = { s with clusters := t.clusters, dies := t.dies, sync := { s.sync with barriers := t.sync.barriers } })) ∧
    (∀ v, synResult s n c i .done v = modStream s n c (fun u => { u with c := true }.setX i.xs (v % 2 ^ 63)) ∧
      synResult s n c i .retry v = modStream s n c (fun u => { u with c := false }.setX i.xs (v % 2 ^ 63)) ∧
      (∀ e, e ≠ .done → e ≠ .retry → i.tol = true → synResult s n c i e v =
        modStream s n c (fun u => { u with c := false }.setX i.xs (statusCode e))) ∧
      (∀ e, e ≠ .done → e ≠ .retry → i.tol = false → (stream s n c).fault = none →
        ∃ f, (stream (synResult s n c i e v) n c).fault = some f ∧ f.cause = e ∧ f.pc = i.pc ∧
          keptWhole i ∈ (stream (synResult s n c i e v) n c).kept))

/-- A change of a word wakes every registered waiter of it, and each reads it again; a poller reads it likewise; a
waiter that observes its value has X[XS] and C written and blocks no more, and one that does not stays. A remote WAIT
is asked again once its interval has passed, not before. A poller waits while an edge on its way trains (log entry
79). MONITOR_FIRE disarms every due monitor of the word and makes the ADD of 1 of each in turn, under the master that
armed it: on a local notification word at once, on another by a fabric request. An indexed word of a lost owner,
reachable and not orphaned, gets ORPHAN with OWNER and VALUE kept, is counted, and its monitors become due.
(13_sync.md: Waiting, 13_sync.md: Operations, 13_sync.md: Owners and orphans.) -/
def Obligations.WaitersAreReleasedAndMonitorsFire : Prop :=
  ∀ (s : State) (n : Nat) (c : Ctx) (a : Addr48),
    (clocksOn s = true → exec (.syncWaitWake a) s = .next ((s.sync.waiters.filter
      (fun w => sameWord w.addr.toNat a.toNat)).foldl (fun t w => wakeOne t w.cl w.c w.addr.toNat w.n.toNat) s)) ∧
    (∀ v, clusterLive s n = true → (stream s n c).block = .poll a v → trainHolds s n a.toNat 8 = false →
      exec (.syncWatchPoll n c) s = .next (wakeOne s n c a.toNat v.toNat)) ∧
    (∀ v i w, (stream s n c).blocked = some i → observe s n a.toNat v = (.done, w) →
      stream (wakeOne s n c a.toNat v) n c =
        { stream s n c with block := .none, blocked := none, c := true }.setX i.xs (w % 2 ^ 63)) ∧
    (∀ v w, observe s n a.toNat v = (.retry, w) → wakeOne s n c a.toNat v = s) ∧
    (∀ due i p x, clusterLive s n = true → (stream s n c).block = .remotePoll due → (stream s n c).blocked = some i →
      synTarget s i = .away p x → exec (.syncRemotePoll n c) s =
        .next (if clk s < due.toNat then s else synAway s n c i p x 3 i.synOp (false, 0))) ∧
    (let fire := s.sync.monitors.filter (fun m => m.due && sameWord m.addr.toNat a.toNat)
     let rest := s.sync.monitors.filter (fun m => !(m.due && sameWord m.addr.toNat a.toNat))
     let t := fire.foldl notifyMonitor { s with sync := { s.sync with monitors := rest } }
     exec (.monitorFire a) s = .next t ∧ t.sync.monitors.length = rest.length) ∧
    (∀ m, (m.notifyLocal = true → notifyMonitor s m = (localAdd (countTrip s m.master.toNat m.notify.toNat)
        m.master.toNat m.notify.toNat 1).1) ∧
      (m.notifyLocal = false → notifyMonitor s m = (globalAdd s m.master.toNat m.notify 1 .add).1)) ∧
    (∀ mid x, countTrip s mid x = { s with dies := (countTrip s mid x).dies, links := (countTrip s mid x).links }) ∧
    (s.sync.orphans.contains a = true → wordPlace a.toNat = true → placeLost s none (place a.toNat) = false →
      s.poison = [] → s.ckpt.capture = none → wordOrphan? (rdNat s a.toNat 8) = false →
      ∃ t, exec (.wordOrphan a) s = .next t ∧ rdNat t a.toNat 8 = rdNat s a.toNat 8 + 2 ^ 63 ∧
        t.sync.orphans = s.sync.orphans.filter (· ≠ a) ∧ t.sync.cntOrphan = satAdd s.sync.cntOrphan 1 ∧
        (∀ m ∈ t.sync.monitors, sameWord m.addr.toNat a.toNat = true → m.due = true) ∧ t.sync.index = s.sync.index)

/-- A channel that is not armed toggles its release phase when its local condition holds and not before; its arrivals
and its waiting contexts clear. An armed one toggles only once its collective has completed, and its episode number
rises by 1; when its local condition holds, it starts the COUNT of 1 on its group under OP_ID 0xFFFF_8000 + 2,048 x
channel + episode modulo 2,048. For a package in service BARRIER_ARM arms a channel with episode 0 when no tap has
arrived, answers BUSY when one has, DEFERRED while a disarm waits, and BAD_PARAM above channel 15; a disarm takes
effect at once (log entry 30), or waits while a collective is incomplete. (13_sync.md: Barriers, 11_die_links_mesh.md:
Barrier wires.) -/
def Obligations.BarriersReleaseArmAndDisarm : Prop :=
  ∀ (s : State) (ch : Fin 16),
    let b := barrier s ch.val
    (b.armed = none → localCond s ch.val = false → exec (.barrierRelease ch) s = .next s) ∧
    (b.armed.isSome = true → b.collectiveDone = false → exec (.barrierRelease ch) s = .next s) ∧
    (b.armed = none → localCond s ch.val = true → ∃ t, exec (.barrierRelease ch) s = .next t ∧
      barrier t ch.val = { b with
        phase := !b.phase, arrived := [], waiting := [], collectiveDone := false } ∧
      t.sync.cntRelease = satAdd s.sync.cntRelease 1 ∧ t.mem = s.mem) ∧
    (∀ g e, b.armed = some (g, e) → b.collectiveDone = true → b.disarming = false →
      ∃ t, exec (.barrierRelease ch) s = .next t ∧ barrier t ch.val = { b with
        phase := !b.phase, arrived := [], waiting := [], collectiveDone := false, armed := some (g, e + 1) } ∧
      t.sync.cntRelease = satAdd s.sync.cntRelease 1) ∧
    (∀ g e y, b.armed = some (g, e) → b.collective = false → b.collectiveDone = false → b.disarming = false →
      localCond s ch.val = true → exchRuns s = true → s.exch.ops.length < 64 → readGroup s g.toNat = some y →
      (∀ x ∈ s.exch.ops, x.p.opId ≠ BitVec.ofNat 32 (0xFFFF8000 + 2048 * ch.val + e % 2048)) →
      ∃ t x, exec (.barrierEpisodeCollective ch) s = .next t ∧ barrier t ch.val = { b with collective := true } ∧
        x ∈ t.exch.ops ∧ x.p.opId = BitVec.ofNat 32 (0xFFFF8000 + 2048 * ch.val + e % 2048) ∧ x.p.kind = 6 ∧
        x.p.cval = 1 ∧ x.members = y.members ∧ x.own = true) ∧
    (InService s → ∀ (h : CmdHdr) (c g : Byte), c.toNat = ch.val →
      (b.disarming = false → b.arrived = [] → exec (.barrierArm h c g) s =
        .next (answer (modBarrier s ch.val (fun q => { q with armed := some (g, 0) })) h 0x0503 .done)) ∧
      (b.disarming = false → b.arrived ≠ [] → exec (.barrierArm h c g) s = .next (answer s h 0x0503 .busy)) ∧
      (b.disarming = true → b.deferred = none → exec (.barrierArm h c g) s =
        .next (answer (modBarrier s ch.val (fun q => { q with deferred := some (h, g) })) h 0x0503 .deferred)) ∧
      (b.armed.isSome = true → b.collective = false → ∃ t, exec (.barrierDisarm h c) s = .next t ∧
        barrier t ch.val = { b with disarming := false, armed := none, deferred := none, collectiveDone := false } ∧
        t.mem = s.mem ∧ t.clusters = s.clusters ∧ Answered t h 0x0503 .done []) ∧
      (b.armed.isSome = true → b.collective = true → ∃ t, exec (.barrierDisarm h c) s = .next t ∧
        barrier t ch.val = { b with disarming := true, deferred := none })) ∧
    (InService s → ∀ (h : CmdHdr) (c g : Byte), 15 < c.toNat →
      exec (.barrierArm h c g) s = .next (answer s h 0x0503 .badParam) ∧
      exec (.barrierDisarm h c) s = .next (answer s h 0x0503 .badParam))

/-- When a context issues MOV: with 16 descriptors in the mover, or 8 of the context, it is not issued. A descriptor
that does not pass is a fault of the instruction, and nothing moves. A descriptor of one run without CADDR between two
ranges of memory in the package that do not meet, admitted, without poison or capture and with no commit in a drain
queue: the bytes that a reader finds at the source (in the replay log those of its records, log entry 38) are written
at the destination, only the counters of meshes and edges move besides, and the mover is as before. A descriptor whose
bytes are all written makes its next completion ADD of CVAL to CADDR, counts the unit, and leaves the mover after the
last. (05_cluster_programs.md: MOV: data movement, 13_sync.md: Operations.) -/
def Obligations.MovesCopyTheirRunsAndAddTheirUnits : Prop :=
  ∀ (s : State) (n : Nat) (c : Ctx) (i : Issued) (k : Option Kept),
    (Issues s n c i k 2 0 →
      let b := Begun s n c k
      (16 ≤ (cluster s n).mover.length ∨ 8 ≤ ((cluster s n).mover.filter (fun j => j.c == c)).length →
        exec (.movDma n c) s = .next s) ∧
      ((cluster s n).mover.length < 16 → ((cluster s n).mover.filter (fun j => j.c == c)).length < 8 →
        (k = none → readDD b n i = none → ∃ t, exec (.movDma n c) s = .next t ∧ t.mem = s.mem ∧
          (cluster t n).mover = (cluster s n).mover ∧ ((stream s n c).fault = none →
            ∃ f, (stream t n c).fault = some f ∧ f.cause = .badParam ∧ f.movFresh = true ∧ f.isMov = true)) ∧
        (∀ d, k = none → readDD b n i = some d → d.runs = 1 → d.caddr = 0 → d.sloc = true → d.dloc = true →
          runStatus b n d 0 = .done → runsMeeting b d 0 = [] → DrainsEmpty s → s.poison = [] → s.ckpt.capture = none →
          meetsCtrl (d.srcAt 0) d.len0.toNat = false → meetsCtrl (d.dstAt 0) d.len0.toNat = false →
          (∀ j ∈ (cluster s n).mover, j.id ≠ (cluster s n).nextId) → jobWaits s n (cluster s n).nextId d.units = false →
          ∃ t, exec (.movDma n c) s = .next t ∧
            t.mem = (wrBytes s (d.dstAt 0) (areaView s (d.srcAt 0) (rdBytes s (d.srcAt 0) d.len0.toNat))).mem ∧
            (cluster t n).mover = (cluster s n).mover ∧ (stream t n c).fault = (stream s n c).fault ∧
            t = { s with clusters := t.clusters, dies := t.dies, links := t.links, mem := t.mem }))) ∧
    (∀ id j, clusterLive s n = true → jobOf s n id = some j → j.bad = none → j.adding = false → j.next = j.d.runs →
      jobWaits s n id j.d.units = false → j.d.caddr ≠ 0 → j.units < j.d.units → j.d.cloc = true →
      (ownAdd s n j.d.caddr.toNat j.d.cval.toNat).2 = .done →
      ∃ t, exec (.dmaCompletionAdd n id) s = .next t ∧
        t.mem = (ownAdd s n j.d.caddr.toNat j.d.cval.toNat).1.mem ∧
        jobOf t n id = (if j.units + 1 = j.d.units then none else some { j with units := j.units + 1 }) ∧
        t = { s with
          clusters := t.clusters
          dies := t.dies
          links := t.links
          mem := t.mem
          poison := t.poison
          ckpt := t.ckpt
          sync := t.sync
          memblk := t.memblk
          cob := t.cob })

/-- For a package in service TIME_SET, while FT is neither LOCKED nor in HOLDOVER, the schedule is empty and no stream
runs, sets FT, leaves FREE without a parent, else ACQUIRE, and answers DONE; otherwise it answers BUSY and changes
nothing. TIME_QUERY answers FT_NOW, FT_STATUS and the stamp. A TIME_IN edge more than 1,000 ns off is counted and
leaves FT, and the third in a row takes LOCKED to ACQUIRE, where FT_DEPTH reads 0xFF (log entry 11); one within 2 ns
of its second, with TIME_IN the parent and the seconds known, gives LOCKED at depth 0. A 1588 offset within 250 ns
from the parent gives COARSE. A lost parent gives HOLDOVER, or FREE above 12.5 ns; past it HOLDOVER becomes FREE.
TIME_OUT is high for 10,000 ns from every whole second, also from one that slewing has just moved FT past. TIME_SET
does not move the model's count of durations, clk (log entry 2). That one edge or message is enough to settle is the
model's choice (log entry 11). (02_fabric_time.md: Discipline, 02_fabric_time.md: Invar registers, 02_fabric_time.md:
Setting and reading FT, 12_fabric.md: Time exchange.) -/
def Obligations.FabricTimeIsSetReadAndDisciplined : Prop :=
  ∀ (s : State),
    (InService s → ∀ (h : CmdHdr) (ft : W64),
      (s.inv.state ≠ 3 → s.inv.state ≠ 4 → s.cmd.schedule = [] → anyRuns s = false →
        ∃ t, exec (.timeSet h ft) s = .next t ∧ t.inv.ft = ft ∧ t.inv.clk = s.inv.clk ∧ t.inv.slew = 0 ∧
          (s.inv.parent = 0xFF → t.inv.state = 0 ∧ t.inv.src = 0xFF) ∧
          (s.inv.parent ≠ 0xFF → t.inv.state = 1 ∧ t.inv.src = s.inv.parent) ∧ t.mem = s.mem ∧ t.clusters = s.clusters ∧
          Answered t h 0x0504 .done []) ∧
      (s.inv.state = 3 ∨ s.inv.state = 4 ∨ s.cmd.schedule ≠ [] ∨ anyRuns s = true →
        exec (.timeSet h ft) s = .next (answer s h 0x0504 .busy)) ∧
      exec (.timeQuery h) s = .next (reply s h 0x0505 .done
        (leBytes 8 s.inv.ft.toNat ++ leBytes 8 (readInvar s 8) ++ leBytes 8 h.stamp.toNat))) ∧
    (let off := nearestSecond (edgeTime s) - edgeTime s
     (s.inv.timeinEn = false → exec .timeInEdge s = .next s) ∧
     (s.inv.timeinEn = true → 1000 < off.natAbs → ∃ t, exec .timeInEdge s = .next t ∧ t.inv.ft = s.inv.ft ∧
        t.inv.slew = s.inv.slew ∧ t.inv.cntTimeinIgn = satAdd s.inv.cntTimeinIgn 1 ∧
        t.inv.state = (if s.inv.ignoredRun = 2 ∧ s.inv.state = 3 then 1 else s.inv.state) ∧
        t.inv.depth = (if s.inv.ignoredRun = 2 ∧ s.inv.state = 3 then 0xFF else s.inv.depth)) ∧
     (s.inv.timeinEn = true → s.inv.parent = 0xFE → off.natAbs ≤ 2 → s.inv.seconds = true → ∃ t, exec .timeInEdge s = .next t ∧
        t.inv.state = 3 ∧ t.inv.src = 0xFE ∧ t.inv.depth = 0 ∧ t.inv.slew = off ∧ t.inv.ft = s.inv.ft ∧
        t.inv.err ≤ 40000000)) ∧
    (∀ m : PtpInfo, s.inv.en1588 = true → s.tap.mgtUp[m.mgt] = true → s.inv.parent = 0xFD → m.offset.natAbs ≤ 250 →
      ∃ t, exec (.ptpMessage m) s = .next t ∧ t.inv.state = 2 ∧ t.inv.src = 0xFD ∧ t.inv.slew = m.offset ∧
        t.inv.ft = s.inv.ft) ∧
    (s.inv.parent ≠ 0xFF → 1 ≤ s.inv.state.toNat → s.inv.state.toNat ≤ 3 → ∃ t, exec .ftParentLost s = .next t ∧
      t.inv.slew = 0 ∧ t.inv.ft = s.inv.ft ∧ t.inv.err = s.inv.err ∧
      (s.inv.err ≤ 250000000 → t.inv.state = 4 ∧ t.inv.src = s.inv.parent) ∧
      (250000000 < s.inv.err → t.inv.state = 0 ∧ t.inv.src = 0xFF)) ∧
    (s.inv.state = 4 → 250000000 < s.inv.err → ∃ t, exec .ftErrEstThreshold s = .next t ∧ t.inv.state = 0 ∧
      t.inv.src = 0xFF ∧ t.inv.depth = 0xFF ∧ t.inv.ft = s.inv.ft) ∧
    (s.inv.state ≠ 4 ∨ s.inv.err ≤ 250000000 → exec .ftErrEstThreshold s = .next s) ∧
    (s.inv.ft.toNat % 1000000000 = 0 ∨
      (s.inv.ft.toNat % 1000000000 = 1 ∧ s.inv.slewAge = 0 ∧ s.inv.timeOutUntil = none) → exec .timeOutPulse s =
      .next { s with inv := { s.inv with timeOutUntil := some (s.inv.clk + 10000) } }) ∧
    (s.inv.ft.toNat % 1000000000 ≠ 0 → (s.inv.ft.toNat % 1000000000 = 1 → s.inv.slewAge ≠ 0 ∨ s.inv.timeOutUntil ≠ none) →
      exec .timeOutPulse s = .next s)

/-- For a package in service SCHEDULE_POST answers, in this order: BAD_PARAM for a DUE or repeat interval that is no
multiple of the tick or a bad embedded message; WINDOW_MISSED for a DUE below the stamp plus 2,000; NOT_YET beyond the
horizon; BUSY with 4,096 entries; else the entry stands at the end of the schedule under the next number, with its
DUE, interval, count and command, and the answer is DONE with that number. CANCEL of an entry that is held removes it
when the session posted it, and answers DENIED when not; of another entry BAD_PARAM. That the embedded message is
checked with the POST, and the answer to an unknown ENTRY, are log entry 29. For every state: the due entries are
exactly the entries of the schedule whose tick has come, each as often as it stands there, and none comes before one
that precedes it in the order of R47. SCHEDULE_DISPATCH of a package that serves commands, with no envelope ramp
ending, takes them in that order. A posted command that is due in Run leaves the schedule and enters the admission
queue under its tick; with nothing due the dispatch changes nothing. (14_command_protocol.md: Command reference,
02_fabric_time.md: Windows and release, 17_power.md: Commands and schedule outside Run.) -/
def Obligations.ScheduleEntriesArePostedCancelledAndDispatched : Prop :=
  (∀ (s : State) (h : CmdHdr) (due rep : W64) (times : W32) (message : List Byte) (entry : W32), InService s →
    let good := aligned due.toNat s.inv.tickNs.toNat = true ∧ aligned rep.toNat s.inv.tickNs.toNat = true ∧
      embeddedBad h message = false
    (¬ good → exec (.schedulePost h due rep times message) s = .next (answer s h 0x0506 .badParam)) ∧
    (good → due.toNat < h.stamp.toNat + 2000 →
      exec (.schedulePost h due rep times message) s = .next (answer s h 0x0506 .windowMissed)) ∧
    (good → h.stamp.toNat + 2000 ≤ due.toNat → h.stamp.toNat + s.inv.horizon.toNat < due.toNat →
      exec (.schedulePost h due rep times message) s = .next (answer s h 0x0506 .notYet)) ∧
    (good → h.stamp.toNat + 2000 ≤ due.toNat → due.toNat ≤ h.stamp.toNat + s.inv.horizon.toNat →
      (4096 ≤ s.cmd.schedule.length →
        exec (.schedulePost h due rep times message) s = .next (answer s h 0x0506 .busy)) ∧
      (s.cmd.schedule.length < 4096 → ∃ t e, exec (.schedulePost h due rep times message) s = .next t ∧
        t.cmd.schedule = s.cmd.schedule ++ [e] ∧ e.id = s.cmd.nextEntry ∧ e.due = due.toNat ∧ e.isPost = true ∧
        e.repeatNs = rep ∧ e.times = times ∧ e.occurrence = 0 ∧ e.cmd.opcode.toNat = leAt message 6 2 ∧
        e.cmd.params = message.drop 64 ∧ e.cmd.hdr.session = h.session ∧ e.cmd.hdr.master = h.master ∧
        t.cmd.nextEntry = s.cmd.nextEntry + 1 ∧ t.mem = s.mem ∧ t.clusters = s.clusters ∧
        Answered t h 0x0506 .done (leBytes 4 s.cmd.nextEntry.toNat))) ∧
    (∀ e, s.cmd.schedule.find? (fun e => e.isPost && e.id == entry) = some e →
      (e.cmd.hdr.session = h.session → ∃ t, exec (.scheduleCancel h entry) s = .next t ∧
        t.cmd.schedule = s.cmd.schedule.filter (fun x => x.id ≠ entry) ∧ t.mem = s.mem ∧
        Answered t h 0x0506 .done (leBytes 4 entry.toNat)) ∧
      (e.cmd.hdr.session ≠ h.session → exec (.scheduleCancel h entry) s = .next (answer s h 0x0506 .denied))) ∧
    (s.cmd.schedule.find? (fun e => e.isPost && e.id == entry) = none →
      exec (.scheduleCancel h entry) s = .next (answer s h 0x0506 .badParam))) ∧
  (∀ s : State,
    (∀ e, (dueEntries s).count e = if e.due ≤ s.inv.ft.toNat then s.cmd.schedule.count e else 0) ∧
    (dueEntries s).Pairwise (fun a b => entryBefore b a = false) ∧
    (served s = true → s.power.ramp = none → exec .scheduleDispatch s = .next ((dueEntries s).foldl dispatchOne s)) ∧
    (served s = true → s.power.ramp = none → (∀ e ∈ s.cmd.schedule, s.inv.ft.toNat < e.due) →
      exec .scheduleDispatch s = .next s) ∧
    (∀ e, served s = true → s.power.st = 0 → s.power.ramp = none → dueEntries s = [e] → e.isPost = false →
      ∃ t, exec .scheduleDispatch s = .next t ∧ t.cmd.schedule = s.cmd.schedule.filter (fun x => x.id ≠ e.id) ∧
        (∀ q, q ∈ t.cmd.queue ↔ q ∈ s.cmd.queue ∨ q = dispatchCmd e) ∧
        (dispatchCmd e).hdr.posted = some (BitVec.ofNat 64 e.due) ∧ t.mem = s.mem ∧ t.clusters = s.clusters))

/-- For a package in service. STEP_BEGIN answers BAD_PARAM for another epoch or within a step, then DEGRADED after a
failed pass, then DIE_LOST with a die or stack fenced (in that order, as that of the checks of STEP_COMMIT: log entry
50); else the step is in progress, a pending table load is latched, the logs of exchange and twin open under the next
epoch, the epoch stays, and the answer is DONE; the clusters stay as they are, but for those that a running refresh of
a group that the new table drops leaves (log entry 58). STEP_COMMIT answers the status that turns it away. Accepted
without a twin in PAIRED and with no refresh that it waits for, it raises the epoch by 1, ends step and hold, keeps
four committed steps in the logs, puts the digest at the head of the history, turns the active compute copy over
exactly when a pass is committed, changes no cluster in whose vector unit nothing waits, and answers DONE. In PAIRED,
with a digest held that differs, the epoch stays, the package is FAILED for state and leaves the pair, and the answer
is DIGEST_MISMATCH. (10_stack_memory.md: Step epochs, 07_update_engine.md: Commit, concurrency and faults,
15_reliability_twin.md: Digest comparison, 14_command_protocol.md: Command reference.) -/
def Obligations.StepsBeginAndCommit : Prop :=
  ∀ (s : State) (h : CmdHdr) (e : W64), InService s →
    (e ≠ s.memblk.epoch ∨ s.memblk.stepOn = true → exec (.stepBegin h e) s = .next (answer s h 0x0401 .badParam)) ∧
    (e = s.memblk.epoch → s.memblk.stepOn = false →
      (s.memblk.failed = true → exec (.stepBegin h e) s = .next (answer s h 0x0401 .degraded)) ∧
      (s.memblk.failed = false → anyFenced s = true → exec (.stepBegin h e) s = .next (answer s h 0x0401 .dieLost)) ∧
      (s.memblk.failed = false → anyFenced s = false → ∃ t, exec (.stepBegin h e) s = .next t ∧
        t.memblk.stepOn = true ∧ t.memblk.epoch = e ∧ t.memblk.failed = false ∧ t.upd.load = none ∧
        t.upd.ccActive = s.upd.ccActive ∧ t.upd.pass = s.upd.pass ∧
        (s.upd.load = none → t.upd.groups = s.upd.groups ∧ t.upd.tensors = s.upd.tensors) ∧
        (∃ l, t.exch.log.head? = some l ∧ l.epoch = e + 1 ∧ l.records = []) ∧
        (∃ l, t.twin.log.head? = some l ∧ l.epoch = e + 1) ∧
        (s.upd.load = none ∨ s.upd.refreshing = [] → t.clusters = s.clusters) ∧ t.power = s.power ∧
        Answered t h 0x0401 .done [])) ∧
    (∀ st, commitRefused s e = some st → exec (.stepCommit h e) s = .next (answer s h 0x0402 st)) ∧
    (commitRefused s e = none → s.twin.st ≠ 2 → waitsRefresh s (s.memblk.epoch.toNat + 1) = false →
      ∃ t, exec (.stepCommit h e) s = .next t ∧ t.memblk.epoch = s.memblk.epoch + 1 ∧ t.memblk.stepOn = false ∧
        t.exch.log.length ≤ 4 ∧ t.twin.log.length ≤ 4 ∧ t.memblk.hold = false ∧ t.memblk.failed = s.memblk.failed ∧ t.upd.phase = 0 ∧ t.upd.pass = none ∧
        t.upd.history = ((s.memblk.epoch + 1, stepDigest s) :: s.upd.history).take 4 ∧
        t.upd.ccActive = (s.upd.ccActive != (passToCommit s).isSome) ∧ t.power = s.power ∧
        ((∀ n, (cluster s n).vecq = []) → t.clusters = s.clusters) ∧
        ∃ r ∈ t.cmd.sent, r.status = .done ∧ r.seq = h.seq ∧
          r.results = leBytes 8 (s.memblk.epoch.toNat + 1) ++ leBytes 16 (stepDigest s).toNat) ∧
    (∀ d, commitRefused s e = none → s.twin.st = 2 → heldDigest s = some d → d ≠ stepDigest s →
      ∃ t, exec (.stepCommit h e) s = .next t ∧ t.memblk.epoch = s.memblk.epoch ∧ t.memblk.failed = true ∧
        t.memblk.hold = false ∧ t.twin.st = 3 ∧ ((∀ n, (cluster s n).vecq = []) → t.mem = s.mem) ∧
        ∃ r ∈ t.cmd.sent, r.status = .digestMismatch ∧ r.seq = h.seq)

/-- For a package in service GROUP_TABLE_LOAD of images in stack memory outside the stack reserve with at most 65,535
tensors keeps them for the next STEP_BEGIN, answers DENIED in the reserve, and BAD_PARAM otherwise. PRECOND_REFRESH of
a group under rule K, outside a step and for a later epoch, makes a refresh run, sets the epoch of its switch, leaves
the other scalars of every group and answers DONE; otherwise it answers BAD_PARAM. A running refresh whose clusters
are not held ends: the group is no longer refreshing, and no group state that awaits its commit changes.
(07_update_engine.md: Groups and schedule curves, 07_update_engine.md: Preconditioner refresh, 14_command_protocol.md:
Command reference.) -/
def Obligations.TablesAndRefreshesAreLatchedAndRun : Prop :=
  ∀ (s : State) (h : CmdHdr),
    (InService s → ∀ (ga ta : W64) (n : W32),
      (n.toNat ≤ 65535 → stackImage ga.toNat 0x80000 = true → stackImage ta.toNat (64 * n.toNat) = true →
        meetsReserve ga.toNat 0x80000 = false → meetsReserve ta.toNat (64 * n.toNat) = false →
        exec (.groupTableLoad h ga ta n) s =
          .next (answer { s with upd := { s.upd with load := some (ga, ta, n) } } h 0x0406 .done)) ∧
      (n.toNat ≤ 65535 → stackImage ga.toNat 0x80000 = true → stackImage ta.toNat (64 * n.toNat) = true →
        meetsReserve ga.toNat 0x80000 = true ∨ meetsReserve ta.toNat (64 * n.toNat) = true →
        exec (.groupTableLoad h ga ta n) s = .next (answer (noteAccess s .denied) h 0x0406 .denied)) ∧
      (65535 < n.toNat ∨ stackImage ga.toNat 0x80000 = false ∨ stackImage ta.toNat (64 * n.toNat) = false →
        exec (.groupTableLoad h ga ta n) s = .next (answer s h 0x0406 .badParam))) ∧
    (InService s → ∀ (gi : W16) (e : W64) (g : Group), look s.upd.groups gi.toNat = some g →
      (g.rule ≠ .k ∨ s.memblk.stepOn = true ∨ e.toNat ≤ s.memblk.epoch.toNat →
        exec (.precondRefresh h gi e) s = .next (answer s h 0x0407 .badParam)) ∧
      (g.rule = .k → s.memblk.stepOn = false → s.memblk.epoch.toNat < e.toNat →
        ∃ t, exec (.precondRefresh h gi e) s = .next t ∧ gi.toNat ∈ t.upd.refreshing ∧
          look t.upd.gstate gi.toNat =
            some { groupState s gi.toNat with nextSwitch := e } ∧
          (∀ j, j ≠ gi.toNat → look t.upd.gstate j = look s.upd.gstate j) ∧ t.upd.groups = s.upd.groups ∧
          t.memblk.epoch = s.memblk.epoch ∧ Answered t h 0x0407 .done [] ∧ ∀ n c, stream t n c = stream s n c)) ∧
    (InService s → ∀ (gi : W16) (e : W64), look s.upd.groups gi.toNat = none →
      exec (.precondRefresh h gi e) s = .next (answer s h 0x0407 .badParam)) ∧
    (∀ gi g, look s.upd.groups gi = some g → s.upd.refreshing.contains gi = true → clocksOn s = true →
      refreshHeld s gi = false → commitPending s = false →
      ∃ t, exec (.precondRefreshDone gi) s = .next t ∧ t.upd.refreshing = s.upd.refreshing.filter (· != gi) ∧
        t.upd.gstate = s.upd.gstate ∧ t.memblk.epoch = s.memblk.epoch ∧ ∀ n c, stream t n c = stream s n c)

/-- UPDATE_RUN of a package in service that nothing turns away begins a pass in phase 1, with its parameters and
nothing done, and answers IN_PROGRESS; it answers the status otherwise. The end of the first pass keeps the exact sum
and the count of non-finite gradients and enters phase 2. The join with no non-finite gradient, where no group state
or curve is poisoned, enters phase 3 with the hold set and UPD_NORM written; with one, the pass ends skipped in phase
4 and is counted (its GNORM and CLIP are free values, log entry 51). Each panel of rule O or K is posted once and
served once. The end of the second pass enters phase 4 without a change of the epoch or of the active copy. A tensor
on a fenced die, at the end of the first pass (log entry 51), or a poisoned group state or curve at the join ends the
pass in phase 5 with MEM_FAILED set. What turns an UPDATE_RUN away beside R169's list (a REPLAY, a pending commit) is
log entries 47 and 51. (07_update_engine.md: The pass, 07_update_engine.md: The first pass and the clip factor,
07_update_engine.md: The second pass, 07_update_engine.md: Rules O and K: panel service, 07_update_engine.md: Commit,
concurrency and faults.) -/
def Obligations.UpdatePassGoesThroughItsPhases : Prop :=
  ∀ (s : State) (h : CmdHdr) (gscale tau : W32) (ns ng : Byte),
    (InService s → (∀ st, updateRefused s ns ng = some st →
        exec (.updateRun h gscale tau ns ng) s = .next (answer s h 0x0403 st)) ∧
      (updateRefused s ns ng = none → ∃ t, exec (.updateRun h gscale tau ns ng) s = .next t ∧ t.upd.phase = 1 ∧
        t.upd.pass = some (newPass h gscale tau ns ng) ∧ (∃ o ∈ t.cmd.longs, o.kind = .updateRun ∧ o.hdr = h) ∧
        t.mem = s.mem ∧ t.clusters = s.clusters ∧ t.memblk = s.memblk ∧ Answered t h 0x0403 .inProgress [])) ∧
    (∀ p, s.upd.pass = some p → engineRuns s = true →
      (s.upd.phase = 1 → passLost s = false → passOneBad s = false → p.normScope ≠ 1 →
        ∃ t, exec .updatePass1End s = .next t ∧ t.upd.phase = 2 ∧ t.upd.pass = some { p with
          s := (passOneSum s p.gscale.toNat).1, nf1 := BitVec.ofNat 64 (passOneSum s p.gscale.toNat).2, normIn := true, tiles := passTiles s } ∧
          t.mem = s.mem ∧ t.clusters = s.clusters) ∧
      (s.upd.phase = 1 → passLost s = true → ∃ t, exec .updatePass1End s = .next t ∧ t.upd.phase = 5 ∧
        t.memblk.failed = true ∧ t.memblk.hold = false ∧ t.memblk.epoch = s.memblk.epoch) ∧
      (s.upd.phase = 2 → p.normIn = true → p.nf1 = 0 → scalarsBad s = false → ∃ t q, exec .normJoin s = .next t ∧ t.upd.phase = 3 ∧
        t.memblk.hold = true ∧ t.upd.pass = some q ∧ q.gnorm = BitVec.ofNat 32 (normClip p.s p.tau.toNat).1 ∧
        q.clip = BitVec.ofNat 32 (normClip p.s p.tau.toNat).2 ∧ t.upd.norm = q.clip ++ q.gnorm ∧ t.mem = s.mem) ∧
      (s.upd.phase = 2 → p.normIn = true → p.nf1 = 0 → scalarsBad s = true → ∃ t, exec .normJoin s = .next t ∧ t.upd.phase = 5 ∧
        t.memblk.failed = true ∧ t.memblk.hold = false ∧ t.memblk.epoch = s.memblk.epoch) ∧
      (s.upd.phase = 2 → p.normIn = true → p.nf1 ≠ 0 → ∃ t q, exec .normJoin s = .next t ∧ t.upd.phase = 4 ∧
        t.upd.pass = some q ∧ q.skipped = true ∧ t.upd.cntSkipped = satAdd s.upd.cntSkipped 1 ∧
        t.upd.passHad = true ∧ t.memblk.epoch = s.memblk.epoch) ∧
      (∀ ti pi t g, s.upd.phase = 3 → panelOf s ti pi = some (t, g) →
        (p.posted.contains (ti, pi) = false → phaseABad s t g pi = false → ∃ u, exec (.panelServicePost ti pi) s = .next u ∧
          u.upd.pass = some { p with posted := p.posted ++ [(ti, pi)] } ∧ u.upd.phase = 3 ∧ u.clusters = s.clusters) ∧
        (p.posted.contains (ti, pi) = true → exec (.panelServicePost ti pi) s = .next s) ∧
        (p.posted.contains (ti, pi) = true → p.served.contains (ti, pi) = false → serviceBad s t g pi = false →
          ∃ u, exec (.panelServiceDone ti pi) s = .next u ∧
            u.upd.pass = some { p with served := p.served ++ [(ti, pi)] } ∧ u.upd.phase = 3 ∧ u.clusters = s.clusters) ∧
        (p.posted.contains (ti, pi) = false ∨ p.served.contains (ti, pi) = true →
          exec (.panelServiceDone ti pi) s = .next s)) ∧
      (s.upd.phase = 3 → panelsServed s p = false → exec .updatePass2End s = .next s) ∧
      (s.upd.phase = 3 → panelsServed s p = true → passTwoAnyBad s = false → ∃ t, exec .updatePass2End s = .next t ∧
        t.upd.phase = 4 ∧ t.upd.passHad = true ∧ t.upd.ccActive = s.upd.ccActive ∧ t.memblk.epoch = s.memblk.epoch ∧
        t.upd.gstate = s.upd.gstate))

/-- For a package in service EXCHANGE_START answers the first status of its checks that applies; else the operation
stands among the incomplete ones with its parameters, its epoch and the members of its group, and the answer is
IN_PROGRESS, while nothing is poisoned; where it reads a poisoned line, or a state range that holds no epoch, the
answer is DEGRADED and no operation stands. While the engines run, a record under another layout ID is counted stale,
and a record of an incomplete operation under the epoch in progress, with nothing poisoned, is counted as received. A
finished operation without a completion word leaves the table and changes no memory; with one, it makes the ADD first.
One that is unfinished, or whose records wait for a slot or a window, stays. (09_gradient_exchange.md: Starting and
completing, 09_gradient_exchange.md: Collectives, 14_command_protocol.md: Long operations.) -/
def Obligations.ExchangeOperationsStartReceiveAndComplete : Prop :=
  ∀ (s : State),
    (InService s → ∀ (h : CmdHdr) (p : ExParams),
      (∀ st, exRefused s p = some st → exec (.exchangeStart h p) s = .next (answer (noteAccess s st) h 0x0405 st)) ∧
      (∀ g, exRefused s p = none → readGroup s p.group.toNat = some g → opReadsPoison s p g.rank = false → s.poison = [] →
        ∃ t x, exec (.exchangeStart h p) s = .next t ∧ x ∈ t.exch.ops ∧ x.p = p ∧ x.hdr = h ∧ x.own = false ∧
          x.epoch = exEpoch s ∧ x.members = g.members ∧ x.rank = g.rank ∧
          (∃ o ∈ t.cmd.longs, o.kind = .exchange p.opId ∧ o.hdr = h) ∧
          (∃ r ∈ t.cmd.sent, r.status = .inProgress ∧ r.seq = h.seq) ∧ t.clusters = s.clusters) ∧
      (∀ g, exRefused s p = none → readGroup s p.group.toNat = some g → opReadsPoison s p g.rank = true →
        ∃ t, exec (.exchangeStart h p) s = .next t ∧ t.exch = s.exch ∧ t.mem = s.mem ∧
          ∃ r ∈ t.cmd.sent, r.status = .degraded ∧ r.seq = h.seq)) ∧
    (∀ (h : ExHdr) (r : ExRec), exchRuns s = true →
      (h.layout ≠ s.exch.layout → exec (.exchRecordArrival h r) s = .next { s with
        exch := { s.exch with cntStale := satAdd s.exch.cntStale 1
                              cntRx := satAdd s.exch.cntRx (exPayload h r).length } }) ∧
      (∀ x, h.layout = s.exch.layout → h.epoch = exEpoch s → exOp s h.opId = some x → s.poison = [] →
        ∃ t y, exec (.exchRecordArrival h r) s = .next t ∧ exOp t h.opId = some y ∧ y.received = x.received + 1 ∧
          y.p = x.p ∧ t.exch.cntRx = satAdd s.exch.cntRx (exPayload h r).length ∧ t.clusters = s.clusters)) ∧
    (∀ id x, exOp s id = some x →
      (x.finished = false ∨ recordWaits s x = true → exchRuns s = true → s.exch.early = [] → exec (.exchangeComplete id) s = .next s) ∧
      (x.finished = true → recordWaits s x = false → exchRuns s = true → s.exch.early = [] → x.own = false →
        (x.p.caddr = 0 → ∃ t, exec (.exchangeComplete id) s = .next t ∧ exOp t id = none ∧ t.mem = s.mem) ∧
        (x.p.caddr ≠ 0 → x.p.kind ≠ 6 → ∃ t, exec (.exchangeComplete id) s = .next t ∧ exOp t id = none ∧
          t.mem = (ownAdd s x.hdr.master.toNat x.p.caddr.toNat x.p.cval.toNat).1.mem)))

/-- For a package in service CKPT_CAPTURE and CKPT_RESTORE answer the status of the first check that fails; else the
capture or restore is active with its regions, the header, the generator states and every covered block are recorded,
and the answer is IN_PROGRESS. A capture whose header is written and answered, with every block DONE, ends: it is the
base of the next replay, is counted, and changes no memory; while a block is not DONE nothing happens, and one that
has met a poisoned block ends DEGRADED. A restore with its dies up and its image at hand whose hashes all hold sets
the epoch of the image, clears MEM_FAILED and empties the logs; one whose hash fails ends DEGRADED with MEM_FAILED set
and the epoch as it was, its regions copied up to the first whose hash fails (log entry 57). Which checks a restore
keeps (log entry 57) and that it power-cycles every die with a fenced stack (log entry 58) are the model's reading.
(15_reliability_twin.md: Checkpoints, 10_stack_memory.md: Copy-on-write under capture, 14_command_protocol.md: Long
operations.) -/
def Obligations.CheckpointsAreCapturedAndRestored : Prop :=
  ∀ (s : State) (h : CmdHdr) (e : W64) (x : XAddr) (m : W64) (n : W32),
    (InService s →
      (∀ st, captureRefused s h.master.toNat e x m n = .inl st →
        exec (.ckptCapture h e x m n) s = .next (answer (noteAccess s st) h 0x0601 st)) ∧
      (∀ l, captureRefused s h.master.toNat e x m n = .inr l → ∃ t c, exec (.ckptCapture h e x m n) s = .next t ∧
        t.ckpt.capture = some c ∧ c.regions = l ∧ c.dest = x ∧ c.manifest = m ∧ c.header = imageHeader s l ∧
        c.gens = allGens s ∧ c.phase = 0 ∧ (∀ k ∈ regionBlocks l, look c.blocks k = some .uncaptured) ∧
        Answered t h 0x0601 .inProgress [] ∧ t.memblk.epoch = s.memblk.epoch ∧
        t.clusters = s.clusters) ∧
      (∀ st, restoreRefused s h.master.toNat e x m n = .inl st →
        exec (.ckptRestore h e x m n) s = .next (answer (noteAccess s st) h 0x0602 st)) ∧
      (∀ l, restoreRefused s h.master.toNat e x m n = .inr l → ∃ t r, exec (.ckptRestore h e x m n) s = .next t ∧
        t.ckpt.restore = some r ∧ r.regions = l ∧ r.src = x ∧ r.epoch = e ∧
        (imageHere s x = true → r.phase = 1 ∧ r.cycled = cycleDies s) ∧ (imageHere s x = false → r.phase = 0) ∧
        (∃ q ∈ t.cmd.sent, q.status = .inProgress ∧ q.seq = h.seq) ∧ t.memblk.epoch = s.memblk.epoch)) ∧
    (∀ c, ckptRuns s = true → s.ckpt.capture = some c → c.bad = true →
      ∃ t, exec .ckptCaptureDone s = .next t ∧ t.ckpt.capture = none ∧ t.mem = s.mem ∧
        t.ckpt.lastStatus = BitVec.ofNat 8 (statusCode .degraded)) ∧
    (∀ c, ckptRuns s = true → s.ckpt.capture = some c → c.bad = false →
      (c.blocks.all (fun b => b.2 == .done) = false → exec .ckptCaptureDone s = .next s) ∧
      (c.blocks.all (fun b => b.2 == .done) = true → captureQuiet s = true → 2 ≤ c.phase →
        ∃ t, exec .ckptCaptureDone s = .next t ∧ t.ckpt.capture = none ∧ t.ckpt.baseValid = true ∧
          t.ckpt.baseLoc = c.dest ∧ t.ckpt.baseManifest = c.manifest ∧
          t.ckpt.baseEpoch = BitVec.ofNat 64 (leAt c.header 8 8) ∧
          t.ckpt.cntCaptures = satAdd s.ckpt.cntCaptures 1 ∧ t.mem = s.mem ∧ t.clusters = s.clusters)) ∧
    (s.ckpt.restore = none → ∀ du su, exec (.ckptRestoreDone du su) s = .next s) ∧
    (∀ r du su, s.ckpt.restore = some r → r.phase ≠ 0 → ckptRuns s = true → fetchQuiet s (ckptLong s) = true →
      anyFenced (cycleFailed s r.cycled du su) = false → s.dies.toList.any (fun d => d.on && d.st == .off) = false →
      let q := restoreRegions s r.src (dataRegions r.regions)
      (q.2 = true → ∃ t, exec (.ckptRestoreDone du su) s = .next t ∧ t.ckpt.restore = none ∧
        t.memblk.epoch = r.epoch ∧ t.memblk.failed = false ∧ t.ckpt.baseValid = false ∧ t.guard.log = [] ∧
        t.exch.log = [] ∧ t.twin.log = [] ∧ t.mem = q.1.mem) ∧
      (q.2 = false → ∃ t, exec (.ckptRestoreDone du su) s = .next t ∧ t.ckpt.restore = none ∧
        t.memblk.failed = true ∧ t.memblk.epoch = s.memblk.epoch ∧ t.mem = q.1.mem))

/-- While a capture is active, for an UNCAPTURED block of a die's view: COW_BLOCK_COPY, with room in the die's pool
and the pool in stack memory, makes the block COPIED in a pool block that no other block uses; that pool block then
holds the 64 KiB of the block, and the copy is counted. CKPT_BLOCK_CAPTURE of a block that is neither lost nor
poisoned, in a capture that has met no poison, makes it DONE when its turn has come, with the 64 KiB that it held in
the image as captured: in manifest order, and while a pool is full after the COPIED blocks. Before its turn, and of a
DONE block, and of one that the capture does not cover, it changes nothing, nor does COW_BLOCK_COPY of the last two.
(10_stack_memory.md: Copy-on-write under capture.) -/
def Obligations.CopyOnWriteKeepsTheCapturedBytes : Prop :=
  ∀ (s : State) (c : Capture) (d : Fin 4) (b : Nat), s.ckpt.capture = some c → ckptRuns s = true → b < 0x600000 →
    let key := blockKey d.val b
    let size := (die s d.val).cowSize.toNat
    (look c.blocks key = none ∨ look c.blocks key = some .done →
      exec (.cowBlockCopy d b) s = .next s ∧ exec (.ckptBlockCapture d b) s = .next s) ∧
    (look c.blocks key = some .uncaptured → (poolUsed c d.val).length < size → MemoryCanonical s →
      (∀ p, p < size → (pages (poolAddr s d.val p) 65536).all (fun a => (place a).isStack) = true) →
      ∃ t c' p, exec (.cowBlockCopy d b) s = .next t ∧ t.ckpt.capture = some c' ∧
        look c'.blocks key = some (.copied p) ∧ p < size ∧ p ∉ poolUsed c d.val ∧ c'.cow = c.cow + 1 ∧
        (∀ j, j ≠ key → look c'.blocks j = look c.blocks j) ∧ t.memblk.cntCow = satAdd s.memblk.cntCow 1 ∧
        (∀ i, i < 65536 → rdByte t (poolAddr s d.val p + i) = rdByte s (blockAddr d.val b + i)) ∧
        t.clusters = s.clusters ∧ t.upd = s.upd) ∧
    (look c.blocks key = some .uncaptured → c.bad = false → blockLost s key = false → blockBad s c key = false →
      blockNext s c key = true → Memory.wf c.image = true →
      ∃ t c', exec (.ckptBlockCapture d b) s = .next t ∧ t.ckpt.capture = some c' ∧
        look c'.blocks key = some .done ∧
        (∀ i, i < 65536 → Memory.read c'.image (key * 65536 + i) = rdByte s (blockAddr d.val b + i)) ∧
        t.clusters = s.clusters) ∧
    (look c.blocks key = some .uncaptured → c.bad = false → blockNext s c key = false → exec (.ckptBlockCapture d b) s = .next s) ∧
    (∀ p, look c.blocks key = some (.copied p) → c.bad = false → blockNext s c key = false →
      exec (.ckptBlockCapture d b) s = .next s) ∧
    (blockNext s c key = true → look c.blocks key = some .uncaptured →
      (∀ k : Fin 4, (die s k.val).cowSize = 0 ∨ (poolUsed c k.val).length < (die s k.val).cowSize.toNat) ∧
      ∀ (rs : List Region) (r : Region) (rest : List Region), dataRegions c.regions = rs ++ r :: rest →
        (∀ x ∈ rs, key ∉ blocksOf x.addr x.len) → ∀ x ∈ rs, ∀ y ∈ blocksOf x.addr x.len, look c.blocks y = some .done)

/-- For a package in service TWIN_JOIN answers the status that turns it away; else Solder is JOINING and answers
IN_PROGRESS, or, with the twin's JOIN for that epoch held, is PAIRED and answers DONE when the digests agree, and is
back where it was and answers DIGEST_MISMATCH when not. TWIN_SOLE in PAIRED or MISMATCH gives SOLE with cause 1, and
otherwise only answers DONE. DIGEST_QUERY answers the digest of a kept epoch, BAD_PARAM for another. While Solder
runs: FENCED in PAIRED or MISMATCH gives SOLE with cause 3, SOLE from the twin UNPAIRED with cause 4, silence past the
limit SOLE with cause 2; a message of a reserved kind does nothing, and one that names no joined twin is taken for its
effect all the same (log entry 74). HEARTBEAT is sent every 100 us. What becomes of a join that a fence ends is log
entry 55. A digest that does not come in time ends STEP_COMMIT with BUSY and, with no vector instruction held, leaves
the step and memory; a join that takes 10 s ends with RETRY where it was. (15_reliability_twin.md: Pairing,
15_reliability_twin.md: Digest comparison, 14_command_protocol.md: Command reference.) -/
def Obligations.TwinsJoinCompareAndPart : Prop :=
  ∀ (s : State) (h : CmdHdr) (e : W64),
    (InService s →
      (∀ st, joinRefused s e = some st → exec (.twinJoin h e) s = .next (answer s h 0x0603 st)) ∧
      (joinRefused s e = none → joinOf s = none →
        (s.twin.joinIn = none → ∃ t, exec (.twinJoin h e) s = .next t ∧ t.twin.st = 1 ∧ t.twin.joinAt = s.inv.clk ∧
          Answered t h 0x0603 .inProgress [] ∧ t.mem = s.mem) ∧
        (s.twin.joinIn = some (e, committedDigest s) → ∃ t, exec (.twinJoin h e) s = .next t ∧ t.twin.st = 2 ∧
          t.twin.cause = 0 ∧ t.twin.joinIn = none ∧ Answered t h 0x0603 .done [] ∧ t.mem = s.mem) ∧
        (∀ d, d ≠ committedDigest s → s.twin.joinIn = some (e, d) → ∃ t, exec (.twinJoin h e) s = .next t ∧
          t.twin.st = s.twin.st ∧ Answered t h 0x0603 .digestMismatch [] ∧ t.mem = s.mem)) ∧
      (s.twin.st = 2 ∨ s.twin.st = 3 → ∃ t, exec (.twinSole h) s = .next t ∧ t.twin.st = 4 ∧ t.twin.cause = 1 ∧
        Answered t h 0x0604 .done []) ∧
      (s.twin.st ≠ 2 → s.twin.st ≠ 3 → exec (.twinSole h) s = .next (answer s h 0x0604 .done)) ∧
      (∀ d, historyDigest s e = some d →
        exec (.digestQuery h e) s = .next (reply s h 0x0608 .done (leBytes 8 e.toNat ++ leBytes 16 d.toNat))) ∧
      (historyDigest s e = none → exec (.digestQuery h e) s = .next (answer s h 0x0608 .badParam))) ∧
    (solderRuns s = true →
      exec .solderHeartbeatSend s = .next (if s.twin.st = 0 ∨ s.inv.clk.toNat < s.twin.hbAt.toNat + 100000 then s
        else sendSolder { s with twin := { s.twin with hbAt := s.inv.clk } } 0 0 0) ∧
      (∀ m : SolderMsg, (5 < m.kind.toNat → exec (.solderMessageReceive m) s = .next s) ∧ (m.kind = 0 → exec (.solderMessageReceive m) s =
          .next { s with twin := { s.twin with lastMsg := s.inv.clk, peerId := m.sender } }) ∧
        (m.kind = 1 → m.epoch ≠ s.memblk.epoch + 1 → exec (.solderMessageReceive m) s =
          .next { s with twin := { s.twin with lastMsg := s.inv.clk } }) ∧
        (m.kind = 3 → s.twin.st = 2 ∨ s.twin.st = 3 → ∃ t, exec (.solderMessageReceive m) s = .next t ∧
          t.twin.st = 4 ∧ t.twin.cause = 3) ∧
        (m.kind = 4 → 2 ≤ s.twin.st.toNat → s.twin.st.toNat ≤ 4 → ∃ t, exec (.solderMessageReceive m) s = .next t ∧
          t.twin.st = 0 ∧ t.twin.cause = 4)) ∧
      (since s s.twin.lastMsg < s.twin.hbLimitUs.toNat * 1000 → exec .twinHeartbeatLoss s = .next s) ∧
      (s.twin.hbLimitUs.toNat * 1000 ≤ since s s.twin.lastMsg → s.twin.st = 2 ∨ s.twin.st = 3 →
        ∃ t, exec .twinHeartbeatLoss s = .next t ∧ t.twin.st = 4 ∧ t.twin.cause = 2 ∧
          t.twin.cntHbLost = satAdd s.twin.cntHbLost 1) ∧
      (∀ f, s.twin.waitFrom = some f → s.twin.st = 2 → heldDigest s = none →
        (s.twin.digestToMs.toNat * 1000000 ≤ since s f → commitPending s = true → (∀ e ∈ s.clusters, e.2.vecq = []) →
          ∃ t, exec .twinDigestTimeout s = .next t ∧ commitPending t = false ∧ t.twin.waitFrom = none ∧
          t.memblk = s.memblk ∧ t.mem = s.mem ∧ ∀ o ∈ s.cmd.longs, ∀ p, o.kind = .stepCommit p →
            ∃ r ∈ t.cmd.sent, r.status = .busy ∧ r.seq = o.hdr.seq) ∧
        (since s f < s.twin.digestToMs.toNat * 1000000 → exec .twinDigestTimeout s = .next s)) ∧
      (∀ o prev, joinOf s = some (o, prev) → s.twin.st = 1 →
        (since s s.twin.joinAt < 10000000000 → exec .twinJoinTimeout s = .next s) ∧
        (10000000000 ≤ since s s.twin.joinAt → ∃ t, exec .twinJoinTimeout s = .next t ∧ t.twin.st = prev ∧
          (∃ r ∈ t.cmd.sent, r.status = .retry ∧ r.seq = o.hdr.seq) ∧ t.mem = s.mem)))

/-- For a package in service REPLAY answers the status that turns it away; else it is active in its form, the hold is
set, refreshes are cancelled and the answer is IN_PROGRESS; with no refresh to cancel no memory changes. In SOLE the
digest of a finished replay is compared with the original alone; in MISMATCH equal replay digests of both twins make
the package PAIRED. RESHARD of the committed epoch that this package has captured stops every running stream, ends
every exchange operation and an active REPLAY (log entry 59), discards the step, drops the base and writes the layout
ID; otherwise it answers BAD_PARAM. REMAP_CLUSTER of a free spare is pending and ACCEPTED; once released it serves the
logical cluster and answers DONE. (15_reliability_twin.md: Replay, 15_reliability_twin.md: Spare clusters,
08_pipeline_mapping.md: Changing the mapping.) -/
def Obligations.ReplayReshardAndRemapChangeWhatTheyName : Prop :=
  ∀ (s : State) (h : CmdHdr) (e : W64),
    (InService s → (∀ st, replayRefused s h.master.toNat e = .inl st →
        exec (.replay h e) s = .next (answer (noteAccess s st) h 0x0605 st)) ∧
      (∀ f l, replayRefused s h.master.toNat e = .inr (f, l) → ∃ t, exec (.replay h e) s = .next t ∧
        t.ckpt.replaying = some (h, e, f) ∧ t.memblk.hold = true ∧ t.memblk.epoch = s.memblk.epoch ∧
        t.upd.refreshing = [] ∧ (∃ o ∈ t.cmd.longs, o.kind = .replay ∧ o.hdr = h) ∧
        Answered t h 0x0605 .inProgress [] ∧ (s.upd.refreshing = [] → t.mem = s.mem)) ∧
      (∀ layout, e ≠ s.memblk.epoch ∨ s.ckpt.captured.contains e = false →
        exec (.reshard h e layout) s = .next (answer s h 0x0607 .badParam)) ∧
      (∀ layout, e = s.memblk.epoch → s.ckpt.captured.contains e = true → ∃ t, exec (.reshard h e layout) s = .next t ∧
        t.ckpt.replaying = none ∧ t.exch.layout = layout ∧ t.exch.ops = [] ∧ t.exch.early = [] ∧ t.memblk.stepOn = false ∧
        t.memblk.hold = false ∧ t.memblk.epoch = s.memblk.epoch ∧ t.ckpt.baseValid = false ∧
        (∀ n c, (stream t n c).st ≠ .running) ∧ Answered t h 0x0607 .inProgress []) ∧
      (∀ (lg : W16) (row : Byte), 4095 < lg.toNat ∨ 31 < row.toNat →
        exec (.remapCluster h lg row) s = .next (answer s h 0x0606 .badParam)) ∧
      (∀ (lg : W16) (row : Byte), lg.toNat ≤ 4095 → row.toNat ≤ 31 →
        let k := lg.toNat / 1024
        (spare s k row.toNat).1 = false → (spare s k row.toNat).2.1 = false →
        ((die s k).pending ++ (die s k).due).any (fun p => p.1 == row.toNat || p.2.1 == lg.toNat % 1024) = false →
        (dieFenced s k = true → exec (.remapCluster h lg row) s = .next (answer s h 0x0606 .dieLost)) ∧
        (dieFenced s k = false → ∃ t, exec (.remapCluster h lg row) s = .next t ∧
          (die t k).pending = (die s k).pending ++ [(row.toNat, lg.toNat % 1024, h)] ∧
          spare t k row.toNat = (false, false, true, lg.toNat % 1024) ∧ t.clusters = s.clusters ∧ t.mem = s.mem ∧
          Answered t h 0x0606 .accepted []))) ∧
    (∀ (k : Fin 4) (row : Fin 32) (n : Nat) (q : CmdHdr),
      (die s k.val).due.find? (fun p => p.1 == row.val) = some (row.val, n, q) →
      (dieFenced s k.val = false → clocksOn s = true → ∃ t, exec (.remapPerform k row) s = .next t ∧
        spare t k.val row.val = (true, false, false, n) ∧ (die t k.val).remapCnt = satAdd (die s k.val).remapCnt 1 ∧
        (die t k.val).due = (die s k.val).due.filter (fun p => p.1 != row.val) ∧ t.clusters = s.clusters ∧ t.mem = s.mem ∧
        Answered t q 0x0606 .done []) ∧
      (dieFenced s k.val = true → ∃ t, exec (.remapPerform k row) s = .next t ∧
        spare t k.val row.val = (false, false, false, 0) ∧ Answered t q 0x0606 .dieLost [])) ∧
    (∀ d, s.twin.ownReplay = some (e, d) → solderRuns s = true →
      (s.twin.st = 4 → ∃ t, exec .replayDigestCompare s = .next t ∧ t.twin.ownReplay = none ∧
        t.twin.mark = (if d = originalOf s e then 4 else 1) ∧ t.twin.st = 4 ∧ t.mem = s.mem) ∧
      (s.twin.st = 3 → s.twin.peerReplay = some (e, d) → ∃ t, exec .replayDigestCompare s = .next t ∧ t.twin.st = 2 ∧
        t.twin.mark = BitVec.ofNat 4 (markOf (d == originalOf s e) (d == peerOriginalOf s e)) ∧
        t.twin.ownReplay = none ∧ t.mem = s.mem))

/-- In Run with no entry or exit: POWER_STATE to Run answers DONE; to Hold it is accepted; to Bank or Dark it answers
BUSY while any of its conditions holds, else it is accepted. During an entry Run is DEFERRED, and another state waits
for the commit and cancels the deferred Run. From Hold, Bank or Dark, Run begins the exit; Hold from Bank or Dark, and
Bank from Dark, answer BAD_PARAM. An entry commits once the limit has fallen to the Hold power and no exit runs, and
not before. With nothing waiting, the commit of Hold keeps memory and clusters; that of Bank or Dark turns the dies
off and leaves the stores of the dies that are not fenced 0; Bank keeps the stacks (said where no word has an owner or
a monitor), Dark leaves them 0. A WAKE level present and enabled at the commit begins the exit. Run reached releases
the buffered commands; from Dark the epoch is 0, INCARN has risen, no session is left, and of the schedule the entries
with WAKE that are within the wake time. An enabled wake source begins the exit and is recorded; one that is not
enabled does nothing. (Log entry 14 says what of this the model chose.) (17_power.md: Power states, 17_power.md:
Commands and schedule outside Run, 17_power.md: Wake.) -/
def Obligations.PowerStatesAreEnteredAndLeft : Prop :=
  ∀ (s : State) (h : CmdHdr),
    (InService s → s.power.entering = none → s.power.exiting = false →
      let enter := fun (t : BitVec 2) => (.next (startLongReply { s with power := { s.power with entering := some t } } h 0x0701
        (.power t)) : Host.Outcome State Fault Refusal)
      exec (.powerStateRun h) s = .next (answer s h 0x0701 .done) ∧ exec (.powerStateHold h) s = enter 1 ∧
      exec (.powerStateBank h) s = (if darkBusy s then .next (answer s h 0x0701 .busy) else enter 2) ∧
      exec (.powerStateDark h) s = (if darkBusy s then .next (answer s h 0x0701 .busy) else enter 3)) ∧
    (InService s → s.power.entering.isSome = true →
      (∃ t, exec (.powerStateRun h) s = .next t ∧ t.power.deferredRun = some h ∧ t.power.next = s.power.next ∧
        Answered t h 0x0701 .deferred []) ∧
      (∃ t, exec (.powerStateHold h) s = .next t ∧ t.power.deferredRun = none ∧ t.power.next = s.power.next ++ [(1, h)]) ∧
      (∃ t, exec (.powerStateBank h) s = .next t ∧ t.power.deferredRun = none ∧ t.power.next = s.power.next ++ [(2, h)]) ∧
      (∃ t, exec (.powerStateDark h) s = .next t ∧ t.power.deferredRun = none ∧ t.power.next = s.power.next ++ [(3, h)])) ∧
    (served s = true → s.power.st ≠ 0 → s.power.entering = none → s.power.exiting = false →
      (∃ t, exec (.powerStateRun h) s = .next t ∧ t.power.exiting = true ∧ t.power.wakeLast = 6 ∧
        t.power.st = s.power.st ∧ t.mem = s.mem) ∧
      (s.power.st ≠ 1 → exec (.powerStateHold h) s = .next (answer s h 0x0701 .badParam)) ∧
      (s.power.st = 3 → exec (.powerStateBank h) s = .next (answer s h 0x0701 .badParam))) ∧
    (s.power.entering = none → exec .powerEntryCommit s = .next s) ∧
    (s.power.exiting = true ∨ (s.power.st.toNat < 2 ∧ holdPower s.power.mode.toNat < s.power.limit) →
      exec .powerEntryCommit s = .next s) ∧
    (∀ t, s.power.entering = some t → s.power.next = [] → s.power.deferredRun = none → s.power.exiting = false →
      2 ≤ s.power.st.toNat ∨ s.power.limit ≤ holdPower s.power.mode.toNat → t ≠ 0 → s.power.levels.getLsbD 0 = true →
      s.power.wakeCfg.getLsbD 0 = true → ∃ u, exec .powerEntryCommit s = .next u ∧ u.power.st = t ∧ u.power.exiting = true ∧
        u.power.wakeLast = 1) ∧
    (∀ t, s.power.entering = some t → s.power.next = [] → s.power.deferredRun = none → s.power.latched = none →
      s.power.levels = 0 → s.cmd.schedule = [] → s.power.exiting = false →
      2 ≤ s.power.st.toNat ∨ s.power.limit ≤ holdPower s.power.mode.toNat →
      s.power.buffer = [] → MemoryCanonical s → ∃ u, exec .powerEntryCommit s = .next u ∧ u.power.st = t ∧
        u.power.entering = none ∧ u.power.exiting = false ∧
        (t = 1 → u.mem = s.mem ∧ u.clusters = s.clusters) ∧
        (2 ≤ t.toNat → (∀ k : Fin 4, u.dies[k].on = false) ∧
          ∀ n off, n < 4096 → off < storeEnd → dieFenced s (n / 1024) = false → rdByte u (storeAddr n off) = 0) ∧
        (t = 2 → s.sync.index = [] → s.sync.orphans = [] → s.sync.monitors = [] → ∀ a, a < linearEnd → rdByte u a = rdByte s a) ∧
        (t = 3 → ∀ a, a < linearEnd → rdByte u a = 0)) ∧
    (exitReady s = false → exec .powerExitComplete s = .next s) ∧
    (exitReady s = true → ∃ u, exec .powerExitComplete s = .next u ∧ u.power.st = 0 ∧ u.power.exiting = false ∧
      u.power.buffer = [] ∧ (s.power.st ≠ 2 → u.cmd.ready = s.cmd.ready ++ s.power.buffer) ∧
      (∀ i ∈ s.power.buffer, i ∈ u.cmd.ready) ∧
      (s.power.st = 1 → u.mem = s.mem ∧ u.clusters = s.clusters) ∧
      (s.power.st = 2 → ∀ k : Fin 4, u.dies[k].on = (s.dies[k].st != .fenced)) ∧
      (s.power.st = 3 → u.memblk.epoch = 0 ∧ u.fab.incarn = s.fab.incarn + 1 ∧
        (∀ e ∈ u.cmd.schedule, e ∈ s.cmd.schedule ∧ e.cmd.hdr.wake = true ∧ e.due ≤ s.inv.ft.toNat + 2000000000) ∧
        ∀ slot, slot < 64 → look u.cmd.sessions slot = none)) ∧
    (s.power.st = 0 → s.power.entering = none → ∀ src, exec (.wakeEvent src) s = .next s) ∧
    (s.power.st ≠ 0 → s.power.entering = none → s.power.exiting = false →
      (s.power.wakeCfg.getLsbD 0 = false → exec (.wakeEvent .pin) s = .next s) ∧
      (s.power.wakeCfg.getLsbD 0 = true → ∃ t, exec (.wakeEvent .pin) s = .next t ∧ t.power.exiting = true ∧
        t.power.wakeLast = 1) ∧
      (∀ n, s.power.wakeCfg.getLsbD (8 + n.val) = false → exec (.wakeEvent (.port n)) s = .next s) ∧
      (s.power.wakeCfg.getLsbD 2 = false → exec (.wakeEvent .packet) s = .next s) ∧
      (s.power.wakeCfg.getLsbD 2 = true → s.power.buffer ≠ [] → ∃ t, exec (.wakeEvent .packet) s = .next t ∧
        t.power.exiting = true ∧ t.power.wakeLast = 3) ∧
      (s.power.wakeCfg.getLsbD 3 = false → exec (.wakeEvent .timer) s = .next s) ∧
      (s.power.wakeCfg.getLsbD 3 = true → s.power.wakeArmed = true → s.power.wakeFt.toNat ≤ s.inv.ft.toNat →
        ∃ t, exec (.wakeEvent .timer) s = .next t ∧ t.power.exiting = true ∧ t.power.wakeLast = 4 ∧ t.power.wakeArmed = false) ∧
      (s.power.wakeCfg.getLsbD 4 = false → exec (.wakeEvent .thermal) s = .next s) ∧
      (dueWake s = false → exec (.wakeEvent .command) s = .next s) ∧
      (dueWake s = true → ∃ t, exec (.wakeEvent .command) s = .next t ∧ t.power.exiting = true ∧ t.power.wakeLast = 6) ∧
      (∀ n, s.power.wakeCfg.getLsbD (8 + n.val) = true → ∃ t, exec (.wakeEvent (.port n)) s = .next t ∧
        t.power.exiting = true ∧ t.power.wakeLast = 2) ∧
      (s.power.wakeCfg.getLsbD 4 = true → ∃ t, exec (.wakeEvent .thermal) s = .next t ∧ t.power.exiting = true ∧
        t.power.wakeLast = 5)) ∧
    (s.power.wakeArmed = false ∨ s.inv.ft.toNat < s.power.wakeFt.toNat → exec .wakeTimer s = .next s) ∧
    (s.power.wakeArmed = true → s.power.wakeFt.toNat ≤ s.inv.ft.toNat → ∃ t, exec .wakeTimer s = .next t ∧
      t.power.wakeArmed = false ∧ t.power.wakeFt = 0 ∧ (s.power.wakeCfg.getLsbD 3 = true → s.power.st ≠ 0 →
        s.power.entering = none → s.power.exiting = false → t.power.exiting = true ∧ t.power.wakeLast = 4))

/-- MODE_SET of a package in service answers BAD_PARAM above 2, BUSY in a step, in an entry or while another runs,
DONE for the current mode; else it runs, its clocks stopped at once where the new mode admits the limit. When the
rails have settled the mode is the new one. ENVELOPE_SET answers BAD_PARAM outside the bounds of the mode, else takes
effect. A sample adds to its interval of 100, throttles above the limit and fills below the lower bound while in Run
or Hold; the end of an interval sets P100 and a limit within the slew (a tenth of SLEW, rounded down, in 100 us: log
entry 24), and a raised FLOOR pulls the lower bound up at SLEW until it is reached. An excursion is counted at most
every 100 ms. From 103 degrees thermal throttling begins and at 101 it ends; at 110 every domain but ISL is off in
Dark; so too past the input limits, below 18 V with the island itself off as by PWR_EN (log entry 90), and a smaller
deviation asserts ALERT_N until VIN is back. (17_power.md: Modes, 17_power.md: The envelope, 17_power.md: The input,
02_fabric_time.md: The power envelope against time.) -/
def Obligations.ModesEnvelopeAndLimitsActOnThePowerBlock : Prop :=
  ∀ (s : State) (h : CmdHdr),
    (InService s → ∀ mode : Byte,
      (2 < mode.toNat → exec (.modeSet h mode) s = .next (answer s h 0x0702 .badParam)) ∧
      (mode.toNat ≤ 2 → s.memblk.stepOn = true ∨ s.power.entering.isSome = true ∨ s.power.modeTo.isSome = true →
        exec (.modeSet h mode) s = .next (answer s h 0x0702 .busy)) ∧
      (mode.toNat ≤ 2 → s.memblk.stepOn = false → s.power.entering = none → s.power.modeTo = none →
        (mode.toNat = s.power.mode.toNat → exec (.modeSet h mode) s = .next (answer s h 0x0702 .done)) ∧
        (mode.toNat ≠ s.power.mode.toNat → ∃ t p, exec (.modeSet h mode) s = .next t ∧
          t.power.modeTo = some (BitVec.ofNat 2 mode.toNat, p) ∧ t.power.mode = s.power.mode ∧
          (s.power.limit ≤ maxPower mode.toNat → p = 3 ∧ t.power.clockStopped = true) ∧
          (maxPower mode.toNat < s.power.limit → p = 1 ∧ t.power.clockStopped = s.power.clockStopped)))) ∧
    (∀ m, s.power.modeTo = some (m, 3) → ∃ t, exec .modeRailsSettled s = .next t ∧ t.power.mode = m ∧ t.mem = s.mem ∧
      t.clusters = s.clusters) ∧
    (modePhase s ≠ 3 → exec .modeRailsSettled s = .next s) ∧
    (InService s → ∀ target floor slew : W32,
      let fits := holdPower s.power.mode.toNat ≤ target.toNat ∧ target.toNat ≤ maxPower s.power.mode.toNat ∧
        floor.toNat ≤ target.toNat ∧ 10 ≤ slew.toNat ∧ slew.toNat ≤ 10000
      (¬ fits → exec (.envelopeSet h target floor slew) s = .next (answer s h 0x0703 .badParam)) ∧
      (fits → ∃ t, exec (.envelopeSet h target floor slew) s = .next t ∧ t.power.target.toNat = target.toNat ∧
        t.power.floor.toNat = floor.toNat ∧ t.power.slew.toNat = slew.toNat ∧ t.power.limit = s.power.limit ∧
        t.mem = s.mem ∧ Answered t h 0x0703 .done [])) ∧
    (∀ w, s.tap.pwrEn = true → s.power.modeTo = none → s.power.samples + 1 < 100 → ∃ t, exec (.powerSample w) s = .next t ∧
      t.power.samples = s.power.samples + 1 ∧ t.power.sampleSum = s.power.sampleSum + w ∧
      t.power.envThr = (decide (s.power.st.toNat < 2) && decide (s.power.limit < w)) ∧
      t.power.filler = (decide (s.power.st.toNat < 2) && decide (w < s.power.low)) ∧ t.power.limit = s.power.limit ∧
      t = { s with power := t.power, fresh := t.fresh }) ∧
    (∀ w, s.tap.pwrEn = true → s.power.modeTo = none → 100 ≤ s.power.samples + 1 → ∃ t, exec (.powerSample w) s = .next t ∧
      t.power.samples = 0 ∧ t.power.sampleSum = 0 ∧ t.power.p100 = (s.power.sampleSum + w) / 100 ∧
      (s.power.thermThr = true → t.power.limit = s.power.limit - 5) ∧
      (s.power.thermThr = false → s.power.limit ≤ envelopeTop s → t.power.limit ≤ envelopeTop s ∧
        t.power.limit ≤ (s.power.sampleSum + w) / 100 + s.power.slew.toNat / 10) ∧
      (s.power.st = 0 → s.power.ramp = none → s.power.entering = none → s.power.floorRises = true → s.power.floorMet = false →
        (s.power.sampleSum + w) / 100 < s.power.floor.toNat → t.power.low = min t.power.limit
          (max ((s.power.sampleSum + w) / 100 - s.power.slew.toNat / 10)
            (min s.power.floor.toNat ((s.power.sampleSum + w) / 100 + s.power.slew.toNat / 10)))) ∧ t = { s with power := t.power, fresh := t.fresh }) ∧
    (∀ w, s.power.st.toNat < 2 → s.power.excursion = false → s.power.limit < w → w ≤ excursionLimit s.power.mode.toNat →
      (∀ f ∈ s.power.lastExcursion, f.toNat + 100000000 ≤ s.inv.clk.toNat) → ∃ t, exec (.excursionStart w) s = .next t ∧
        t.power.excursion = true ∧ t.power.cntExcursion = satAdd s.power.cntExcursion 1 ∧
        t.power.lastExcursion = some s.inv.clk ∧ t.mem = s.mem) ∧
    (∀ w f, s.power.lastExcursion = some f → s.inv.clk.toNat < f.toNat + 100000000 → exec (.excursionStart w) s = .next s) ∧
    (∀ w, w ≤ s.power.limit ∨ excursionLimit s.power.mode.toNat < w → exec (.excursionStart w) s = .next s) ∧
    (s.power.st = 0 → s.power.ramp = none →
      (∀ e, s.cmd.schedule.find? (leadBegun s) = some e → exec .envelopeRampStart s =
        .next { s with power := { s.power with ramp := some (BitVec.ofNat 64 e.due), filler := true } }) ∧
      (s.cmd.schedule.find? (leadBegun s) = none → exec .envelopeRampStart s = .next s)) ∧
    (∀ tp : Temps, s.tap.pwrEn = true →
      (∃ t, exec (.thermalWarnCross tp) s = .next t ∧ t.power.temps = liveTemps s tp ∧ t.mem = s.mem) ∧
      (s.power.thermThr = false → 103 ≤ hottest (liveTemps s tp) → ∃ t, exec (.thermalThrottle tp) s = .next t ∧
        t.power.thermThr = true ∧ t.power.temps = liveTemps s tp) ∧
      (s.power.thermThr = true → hottest (liveTemps s tp) ≤ 101 → ∃ t, exec (.thermalThrottle tp) s = .next t ∧
        t.power.thermThr = false ∧ t.power.temps = liveTemps s tp) ∧
      (101 < hottest (liveTemps s tp) → hottest (liveTemps s tp) < 103 → ∃ t, exec (.thermalThrottle tp) s = .next t ∧
        t.power.thermThr = s.power.thermThr) ∧
      (hottest (liveTemps s tp) < 110 → exec (.thermalTrip tp) s = exec (.thermalWarnCross tp) s) ∧
      (InService s → 110 ≤ hottest (liveTemps s tp) → ∃ t, exec (.thermalTrip tp) s = .next t ∧ t.power.st = 3 ∧
        t.power.tripped = true ∧ t.tap.alert = true ∧ ∀ k : Fin 4, t.dies[k].on = false)) ∧
    (∀ mv : W16, s.tap.pwrEn = true →
      (vinOut mv = true → ∃ t, exec (.vinWarn mv) s = .next t ∧ t.power.vinMv = mv ∧ t.power.vinBad = true ∧
        t.tap.alert = true ∧ t.power.st = s.power.st ∧ t.mem = s.mem) ∧
      (vinOut mv = false → ∃ t, exec (.vinClear mv) s = .next t ∧ t.power.vinMv = mv ∧ t.power.vinBad = false ∧
        t.tap.alert = alertLevel t ∧ t.mem = s.mem) ∧
      (mv.toNat < 18000 → ∃ t, exec (.vinFaultOff mv) s = .next t ∧ t.tap.pwrEn = false ∧ t.tap.alert = false ∧
        t.boot.complete = false ∧ ∀ k : Fin 4, t.dies[k].on = false) ∧
      (InService s → vinFault mv = true → 18000 ≤ mv.toNat → ∃ t, exec (.vinFaultOff mv) s = .next t ∧ t.power.st = 3 ∧
        t.power.vinBad = true ∧ t.tap.alert = true ∧ ∀ k : Fin 4, t.dies[k].on = false))

/-- PWR_EN rising, with RESET_N high, and RESET_N rising, with PWR_EN high, begin stage 2 with INCARN raised; RESET_N
falling holds the package at stage 1 with memory gone, FT kept; PWR_EN falling turns everything off and keeps the
credentials. Stage 2: a flash that cannot be read is fatal 0x20; a valid active slot boots (a trial counts a try;
after three, LAST_GOOD is active again); with only the other slot valid that one boots, with none RECOVERY. Stage 3
fails with 0x30 or 0x31 or ends in 4. Stage 4 turns the dies on and trains the edges; with every I/O edge below 4
bundles it is fatal 0x40. Stage 5 brings the stacks UP and makes LAST_GOOD the active slot; the stacks that fail are
fenced. Stage 6 ends when every port has settled, with FT_PARENT 0xFD. Stage 7 ends in 8, after its 10 s with warning
3 when FT stayed FREE. An announcement leaves a port with link 1 s after its last one. A Dark that no exit has left
stops bring-up. (What a restart keeps is log entry 15, what stage 7 leaves FT in is log entry 54.) (18_boot.md: The
stages, 18_boot.md: Image selection, 18_boot.md: Announcements, 18_boot.md: Registration, 17_power.md: The input.) -/
def Obligations.BringUpRunsThroughItsStages : Prop :=
  ∀ (s : State),
    (s.tap.pwrEn = true → exec .pwrEnAssert s = .next s) ∧
    (s.tap.pwrEn = false → s.tap.resetN = false →
      exec .pwrEnAssert s = .next { s with tap := { s.tap with pwrEn := true } }) ∧
    (s.tap.pwrEn = false → s.tap.resetN = true → ∃ t, exec .pwrEnAssert s = .next t ∧ t.tap.pwrEn = true ∧
      t.boot.stage = 2 ∧ t.boot.fail = 0 ∧ t.boot.warn = 0 ∧ t.fab.incarn = s.fab.incarn + 1 ∧ t.mem = s.mem) ∧
    (s.tap.pwrEn = false → exec .pwrEnDeassert s = .next s) ∧
    (s.tap.pwrEn = true → ∃ t, exec .pwrEnDeassert s = .next t ∧ t.tap.pwrEn = false ∧ t.mem = Mem.reset ∧ t.clusters = [] ∧
      t.cmd.sessions = [] ∧ (∀ k : Fin 4, t.dies[k].on = false) ∧ t.cob.creds = s.cob.creds ∧ t.cob.ctrs = s.cob.ctrs ∧
      t.boot.active = s.boot.active ∧ t.fab.incarn = s.fab.incarn ∧ (s.i3c.image = none → t.cob.flash = s.cob.flash)) ∧
    (s.tap.resetN = false → exec .resetNLow s = .next s) ∧
    (s.tap.resetN = true → s.tap.pwrEn = false →
      exec .resetNLow s = .next { s with tap := { s.tap with resetN := false } }) ∧
    (s.tap.resetN = true → s.tap.pwrEn = true → ∃ t, exec .resetNLow s = .next t ∧ t.tap.resetN = false ∧
      t.boot.stage = 1 ∧ t.mem = Mem.reset ∧ t.cmd.sessions = [] ∧ t.inv.ft = s.inv.ft ∧ t.cob.creds = s.cob.creds) ∧
    (s.tap.resetN = true → exec .resetNRise s = .next s) ∧
    (s.tap.resetN = false → s.tap.pwrEn = true → ∃ t, exec .resetNRise s = .next t ∧ t.tap.resetN = true ∧
      t.boot.stage = 2 ∧ t.tap.ir = 0x02 ∧ t.tap.landsTaken = false ∧ t.fab.incarn = s.fab.incarn + 1 ∧ t.mem = s.mem) ∧
    (∀ ok, s.boot.stage ≠ 2 → exec (.bootIsland ok) s = .next s) ∧
    (s.boot.stage = 2 →
      (∃ t, exec (.bootIsland false) s = .next t ∧ t.boot.stage = 15 ∧ t.boot.fail = 0x20) ∧
      (slotValid s s.boot.active = true → s.boot.trial = false → ∃ t, exec (.bootIsland true) s = .next t ∧
        t.boot.stage = 3 ∧ t.cob.bootSlot = s.boot.active ∧ t.boot.active = s.boot.active ∧ t.boot.trial = false) ∧
      (slotValid s s.boot.active = true → s.boot.trial = true → s.boot.tries ≠ 3 → ∃ t,
        exec (.bootIsland true) s = .next t ∧ t.boot.stage = 3 ∧ t.cob.bootSlot = s.boot.active ∧ t.boot.trial = true ∧
        t.boot.tries = s.boot.tries + 1) ∧
      (slotValid s s.boot.lastGood = true → s.boot.trial = true → s.boot.tries = 3 → ∃ t,
        exec (.bootIsland true) s = .next t ∧ t.boot.stage = 3 ∧ t.cob.bootSlot = s.boot.lastGood ∧
        t.boot.active = s.boot.lastGood ∧ t.boot.trial = false ∧ t.boot.warn.getLsbD 6 = true) ∧
      (slotValid s s.boot.active = false → slotValid s (!s.boot.active) = true → s.boot.trial = false ∨ s.boot.tries ≠ 3 →
        ∃ t, exec (.bootIsland true) s = .next t ∧ t.boot.stage = 3 ∧ t.cob.bootSlot = (!s.boot.active) ∧
        t.boot.active = (!s.boot.active) ∧ t.boot.warn.getLsbD 4 = true) ∧
      (slotValid s false = false → slotValid s true = false →
        (∃ t, exec (.bootIsland true) s = .next t ∧ t.boot.stage = 14 ∧ t.boot.fail = 0x21) ∧
        (∃ t, exec .recovery s = .next t ∧ t.boot.stage = 14 ∧ t.boot.fail = 0x21 ∧ t.mem = s.mem))) ∧
    (s.power.st = 3 → s.power.exiting = false →
      (∀ a b, s.boot.stage = 3 → exec (.bootIod a b) s = .next s) ∧ (∀ up, exec (.bootDieLinks up) s = .next s) ∧
      ∀ ok, exec (.bootDiesStacks ok) s = .next s) ∧
    (s.boot.stage = 3 → bootLive s = true → (∀ fw, ∃ t, exec (.bootIod false fw) s = .next t ∧ t.boot.stage = 15 ∧ t.boot.fail = 0x30) ∧
      (∃ t, exec (.bootIod true false) s = .next t ∧ t.boot.stage = 15 ∧ t.boot.fail = 0x31) ∧
      (∃ t, exec (.bootIod true true) s = .next t ∧ t.boot.stage = 4 ∧ t.boot.fail = s.boot.fail)) ∧
    (∀ up, s.boot.stage = 4 → s.boot.fromDark = false → bootLive s = true →
      ((∀ e, e < 8 → (up.masks.getD e (0, 0)).1 &&& (up.masks.getD e (0, 0)).2 &&& fullMask e = fullMask e) →
        ∃ t, exec (.bootDieLinks up) s = .next t ∧ t.boot.stage = 5 ∧
          (∀ k : Fin 4, t.dies[k].on = true ∧ t.dies[k].st = .up) ∧ ∀ e, e < 8 → edgeState t e = 1) ∧
      ((∀ e, e < 8 → 4 ≤ popCount 32 ((up.masks.getD e (0, 0)).1 &&& (up.masks.getD e (0, 0)).2 &&& fullMask e).toNat) →
        ∃ t, exec (.bootDieLinks up) s = .next t ∧ t.boot.stage = 5 ∧
          ∀ k : Fin 4, t.dies[k].on = true ∧ (t.dies[k].st = .up ∨ t.dies[k].st = .narrow)) ∧
      ((∀ e, 4 ≤ e → e < 8 → popCount 32 ((up.masks.getD e (0, 0)).1 &&& (up.masks.getD e (0, 0)).2 &&& fullMask e).toNat < 4) →
        ∃ t, exec (.bootDieLinks up) s = .next t ∧ t.boot.stage = 15 ∧ t.boot.fail = 0x40 ∧
          ∀ k : Fin 4, t.dies[k].st = .fenced)) ∧
    (∀ ok : W16, s.boot.stage = 5 → s.boot.fromDark = false → bootLive s = true →
      (∀ k : Fin 4, s.dies[k].st ≠ .fenced) → (∀ k : Fin 16, s.stk[k].st ≠ .fenced) →
      ∃ t, exec (.bootDiesStacks ok) s = .next t ∧ t.boot.stage = 6 ∧ t.boot.lastGood = s.boot.active ∧
        t.boot.trial = false ∧ (∀ k : Fin 16, t.stk[k].st = if ok.getLsbD k then .up else .fenced) ∧
        (ok = 0xFFFF → ∀ a, a < linearEnd → rdByte t a = 0)) ∧
    (s.boot.stage = 6 → s.power.st = 0 → s.fab.ports.toList.all portSettled = true → s.boot.fromDark = false →
      ∃ t, exec .bootFabric s = .next t ∧ t.boot.stage = 7 ∧ t.inv.parent = 0xFD) ∧
    (s.boot.stage = 6 → s.fab.ports.toList.all portSettled = false → exec .bootFabric s = .next s) ∧
    (s.boot.stage = 7 → s.boot.fromDark = false →
      (s.inv.state = 2 ∨ s.inv.state = 3 → ∃ t, exec .bootTime s = .next t ∧ t.boot.stage = 8 ∧ t.inv = s.inv ∧
        t.boot.warn = s.boot.warn) ∧
      (s.inv.state ≠ 2 → s.inv.state ≠ 3 → s.inv.clk.toNat < s.boot.since.toNat + 10000000000 → exec .bootTime s = .next s) ∧
      (s.inv.state ≠ 2 → s.inv.state ≠ 3 → s.boot.since.toNat + 10000000000 ≤ s.inv.clk.toNat → ∃ t, exec .bootTime s = .next t ∧ t.boot.stage = 8 ∧ t.inv.state = 0 ∧
        t.boot.warn.getLsbD 3 = true)) ∧
    (∀ m : Fin 2, announces s = true → s.boot.annAt[m].toNat + 1000000000 ≤ s.inv.clk.toNat →
      (s.tap.mgtUp[m] = true → exec (.announcement m) s = .next { s with boot := { s.boot with
        anns := announceDatagram s m.val :: s.boot.anns
        annSeq := s.boot.annSeq + 1
        annAt := s.boot.annAt.set m s.inv.clk } }) ∧
      (s.tap.mgtUp[m] = false → exec (.announcement m) s = .next s)) ∧
    (∀ m : Fin 2, announces s = false ∨ s.inv.clk.toNat < s.boot.annAt[m].toNat + 1000000000 →
      exec (.announcement m) s = .next s)

/-- In a package in service: FW_STAGE of a valid image to the slot that does not run begins staging and answers
IN_PROGRESS; the running slot, or another staging, is BUSY. FW_ACTIVATE of a valid slot makes it active on trial,
DONE; with WHEN 1, with nothing running, the package then restarts at stage 2 with memory gone. ACCESS_TABLE_SET
writes its entries and extends MR6. TELEMETRY_READ answers the guard, port or event records that the master may read,
while they take at most 64,000 B (log entry 35), and BAD_PARAM beyond. COUNTER_CLEAR of a port, of the command block
or of a die's sequencer block clears its counters and only those. EVENT_SUBSCRIBE sets the session's classes and port.
SCRUB_RUN starts on the named stacks. PORT_LOOP and EDGE_PRBS take the port (unless it is in FAULT) or the edge down
and run; STACK_TEST, CLUSTER_TEST and DIE_TEST answer DONE with results whose values the manual does not give, the
last two leaving stores zero. LINK_RETRAIN trains an edge or a port again. Targets out of range answer BAD_PARAM,
those on a fenced die DIE_LOST, and a port or edge test BUSY while a step is open or a stream runs. (COUNTER_CLEAR of
a fenced die is log entry 18, the state of a port after PORT_LOOP log entry 23.) (14_command_protocol.md: Command
reference, 16_security.md: Firmware staging, activation and anti-rollback, 16_security.md: Master IDs and access
tables, 14_command_protocol.md: Events, 19_pins_electrical.md: Test access.) -/
def Obligations.MaintenanceCommandsDoWhatTheyName : Prop :=
  ∀ (s : State) (h : CmdHdr), InService s →
    (∀ src : W64, ∀ len : W32, ∀ slot ok n, slotLen < len.toNat →
      exec (.fwStage h src len slot ok n) s = .next (answer s h 0x0801 .badParam)) ∧
    (∀ src : W64, ∀ len : W32, ∀ slot : Byte, ∀ ok n, len.toNat ≤ slotLen → slot.toNat ≤ 1 →
      cmdAccess s h.master.toNat src.toNat len.toNat .r = .done → inStacks src.toNat len.toNat = true →
      ((slot == 1) = s.cob.bootSlot ∨ s.cob.staging.isSome = true →
        exec (.fwStage h src len slot ok n) s = .next (answer s h 0x0801 .busy)) ∧
      ((slot == 1) ≠ s.cob.bootSlot → s.cob.staging = none → poisoned s src.toNat len.toNat = false → n < len.toNat →
        imageValid s (fun i => if i < len.toNat then rdByte s (src.toNat + i) else 0) len.toNat = true →
        ∃ t, exec (.fwStage h src len slot ok n) s = .next t ∧ t.cob.staging = some (slot == 1) ∧ t.mem = s.mem ∧
          t.cob.bootSlot = s.cob.bootSlot ∧ t.clusters = s.clusters ∧
          Answered t h 0x0801 .inProgress [])) ∧
    (∀ slot : Byte, slot.toNat ≤ 1 → slotValid s (slot == 1) = true →
      exec (.fwActivateNextBoot h slot) s = .next (answer { s with boot := { s.boot with
        active := slot == 1
        trial := true
        tries := 0 } } h 0x0802 .done) ∧
      (s.memblk.stepOn = false → anyRuns s = false → ckptBusy s = false → s.cob.staging = none →
        ∃ t, exec (.fwActivateNow h slot) s = .next t ∧ t.boot.stage = 2 ∧ t.boot.active = (slot == 1) ∧
          t.boot.trial = true ∧ t.boot.tries = 0 ∧ t.mem = Mem.reset ∧ t.clusters = [] ∧ t.inv.ft = s.inv.ft ∧
          t.fab.incarn = s.fab.incarn + 1 ∧ t.cob.creds = s.cob.creds ∧
          Answered t h 0x0802 .done []) ∧
      (s.memblk.stepOn = true ∨ anyRuns s = true ∨ ckptBusy s = true ∨ s.cob.staging.isSome = true →
        exec (.fwActivateNow h slot) s = .next (answer s h 0x0802 .busy))) ∧
    (∀ slot : Byte, slot.toNat ≤ 1 → slotValid s (slot == 1) = false →
      exec (.fwActivateNextBoot h slot) s = .next (answer s h 0x0802 .badParam) ∧
      exec (.fwActivateNow h slot) s = .next (answer s h 0x0802 .badParam)) ∧
    (∀ t : W16, ∀ first count : Byte, ∀ es : List W128, validTarget t.toNat = true → 1 ≤ count.toNat →
      first.toNat + count.toNat ≤ 64 → es.length = count.toNat → es.all (entryOk t.toNat) = true →
      exec (.accessTableSet h t first count es) s = .next (answer (extendMr
        { s with cob := { s.cob with table := setEntries s.cob.table t.toNat first.toNat es } } 6
        (sha3_512 (leBytes 2 t.toNat ++ [first, count] ++ es.flatMap (fun e => leBytes 16 e.toNat)))) h 0x0803 .done)) ∧
    (∀ kind : Byte, ∀ f n : W16,
      (n = 0 ∨ 1024 < n.toNat ∨ 2 < kind.toNat → exec (.telemetryRead h kind f n) s = .next (reply s h 0x0901 .badParam [])) ∧
      (1 ≤ n.toNat → n.toNat ≤ 1024 →
        (f.toNat + n.toNat ≤ 4096 → 1000 < n.toNat → (∀ i, i < n.toNat →
          cmdAccess s h.master.toNat (guardEntry s (f.toNat + i) + 64) 64 .r = .done ∧
          poisoned s (guardEntry s (f.toNat + i) + 64) 64 = false) →
          exec (.telemetryRead h 0 f n) s = .next (answer s h 0x0901 .badParam)) ∧
        (f.toNat + n.toNat ≤ 4096 → n.toNat ≤ 1000 → (∀ i, i < n.toNat →
          cmdAccess s h.master.toNat (guardEntry s (f.toNat + i) + 64) 64 .r = .done ∧
          poisoned s (guardEntry s (f.toNat + i) + 64) 64 = false) →
          exec (.telemetryRead h 0 f n) s = .next (reply s h 0x0901 .done
            ((List.range n.toNat).flatMap (fun i => rdBytes s (guardEntry s (f.toNat + i) + 64) 64)))) ∧
        (f.toNat + n.toNat ≤ 24 → (∀ i, i < n.toNat → cmdAccess s h.master.toNat (portCounters (f.toNat + i)) 96 .r = .done) →
          exec (.telemetryRead h 1 f n) s = .next (reply s h 0x0901 .done
          ((List.range n.toNat).flatMap (fun i =>
            (List.range 12).flatMap (fun j => leBytes 8 (readPort s (f.toNat + i) (0x20 + 8 * j))))))) ∧
        (f.toNat + n.toNat ≤ s.cmd.events.length →
          (((s.cmd.events.drop f.toNat).take n.toNat).flatMap (fun e => eventParams e true)).length ≤ 64000 → exec (.telemetryRead h 2 f n) s = .next (reply s h 0x0901 .done
          (((s.cmd.events.drop f.toNat).take n.toNat).flatMap (fun e => eventParams e true)))))) ∧
    (∀ p : W16, p.toNat < 24 → exec (.counterClear h (0x20 + p) 1) s =
      .next (answer (modPort s p.toNat clearPort) h 0x0902 .done)) ∧
    exec (.counterClear h 0x3C 1) s = .next (answer { s with cmd := { s.cmd with
      cntRx := 0
      cntDiscard := 0
      cntAuthFail := 0
      cntDup := 0
      cntBusy := 0 } } h 0x0902 .done) ∧
    (∀ k : Fin 4, (s.dies[k].st ≠ .fenced → exec (.counterClear h (BitVec.ofNat 16 (0x120 + 0x100 * k.val)) 1) s =
        .next (answer (modDie s k.val (fun d => { d with seqInstr := 0, seqFault := 0 })) h 0x0902 .done)) ∧
      (s.dies[k].st = .fenced → exec (.counterClear h (BitVec.ofNat 16 (0x120 + 0x100 * k.val)) 1) s =
        .next (answer s h 0x0902 .dieLost))) ∧
    (∀ classes : W32, ∀ i x, sessionOf s h.session = some (i, x) → exec (.eventSubscribe h classes) s =
      .next (answer { s with cmd := { s.cmd with
        sessions := put s.cmd.sessions i { x with
          classes := classes &&& 0x1FF
          port := h.port } } } h 0x0903 .done)) ∧
    (∀ mask : W16, mask ≠ 0 → (∀ k : Fin 16, mask.getLsbD k = true → stackServes s k = true) → passRuns s = false →
      scrubOp s = none → exec (.scrubRun h mask) s = .next (startLongReply (((List.range 16).filter (mask.getLsbD ·)).foldl
        (fun t k => modStack t k (fun u => { u with scrubRun := some stackLines64 })) s) h 0x0A01 (.scrub mask))) ∧
    (∀ mask : W16, (∀ k : Fin 16, mask.getLsbD k = true → s.stk[k].st ≠ .fenced) → passRuns s = true →
      exec (.scrubRun h mask) s = .next (answer s h 0x0A01 .busy)) ∧
    (∀ t : W16,
      (23 < t.toNat → exec (.testPortLoop h t) s = .next (answer s h 0x0A02 .badParam)) ∧
      (∀ p : Fin 24, t.toNat = p.val → testBusy s = false → loopRuns s p = false → s.fab.ports[p].pstate ≠ 7 → exec (.testPortLoop h t) s =
        .next (startLongReply (modPort (portLeave s p 0 none) p (fun q => { q with ethUp := false })) h 0x0A02
          (.port p true s.inv.clk))) ∧
      (15 < t.toNat → exec (.testStackTest h t) s = .next (answer s h 0x0A02 .badParam)) ∧
      (4095 < t.toNat → exec (.testClusterTest h t) s = .next (answer s h 0x0A02 .badParam)) ∧
      (3 < t.toNat → exec (.testDieTest h t) s = .next (answer s h 0x0A02 .badParam)) ∧
      (∀ p : Fin 24, t.toNat = p.val → testBusy s = false → loopRuns s p = false → s.fab.ports[p].pstate = 7 →
        exec (.testPortLoop h t) s = .next (startLongReply s h 0x0A02 (.port p true s.inv.clk))) ∧
      (t.toNat ≤ 23 → testBusy s = true → exec (.testPortLoop h t) s = .next (answer s h 0x0A02 .busy)) ∧
      (t.toNat ≤ 4095 → dieFenced s (t.toNat / 1024) = true →
        exec (.testClusterTest h t) s = .next (answer s h 0x0A02 .dieLost)) ∧
      (∀ k : Fin 4, t.toNat = k.val → s.dies[k].st = .fenced →
        exec (.testDieTest h t) s = .next (answer s h 0x0A02 .dieLost)) ∧
      (7 < t.toNat → exec (.testEdgePrbs h t) s = .next (answer s h 0x0A02 .badParam)) ∧
      (∀ e : Fin 8, t.toNat = e.val → edgeLost s e = true → exec (.testEdgePrbs h t) s = .next (answer s h 0x0A02 .dieLost)) ∧
      (∀ e : Fin 8, t.toNat = e.val → edgeLost s e = false → testBusy s = true →
        exec (.testEdgePrbs h t) s = .next (answer s h 0x0A02 .busy)) ∧
      (∀ e : Fin 8, t.toNat = e.val → edgeLost s e = false → testBusy s = false → exec (.testEdgePrbs h t) s =
        .next (startLongReply (startPrbs s e) h 0x0A02 (.edge e (some s.inv.clk)))) ∧
      (∀ k : Fin 16, t.toNat = k.val → stackServes s k = true → dieFenced s (k / 4) = false → testBusy s = false →
        ∃ a b c : W64, exec (.testStackTest h t) s =
          .next (reply (useFresh s 3) h 0x0A02 .done (leBytes 8 a.toNat ++ leBytes 8 b.toNat ++ leBytes 8 c.toNat))) ∧
      (t.toNat ≤ 4095 → dieFenced s (t.toNat / 1024) = false → (die s (t.toNat / 1024)).on = true → testBusy s = false →
        storeOwned s t.toNat (t.toNat + 1) = false → ∃ u, u < 6 ∧ exec (.testClusterTest h t) s =
          .next (reply (testedCluster (useFresh s 1) t.toNat) h 0x0A02 .done
            [if u = 0 then 0 else 1, BitVec.ofNat 8 u])) ∧
      (∀ k : Fin 4, t.toNat = k.val → s.dies[k].st ≠ .fenced → s.dies[k].on = true → testBusy s = false →
        storeOwned s (1024 * k) (1024 * (k + 1)) = false →
        ∃ u, ∃ m : List Byte, m.length = 132 ∧ exec (.testDieTest h t) s = .next (reply u h 0x0A02 .done
            (leBytes 4 ((m.map (fun b => popCount 8 b.toNat)).sum) ++ m)) ∧
          (∀ n off, n / 1024 = k.val → off < storeEnd → rdByte u (storeAddr n off) = 0) ∧
          ∀ a, a < linearEnd → rdByte u a = rdByte s a)) ∧
    (∀ i : Byte, (7 < i.toNat → exec (.linkRetrainEdge h i) s = .next (answer s h 0x0A03 .badParam)) ∧
      (∀ e : Fin 8, i.toNat = e.val → edgeLost s e = false → exec (.linkRetrainEdge h i) s =
        .next (startLongReply (startEdge s e 5) h 0x0A03 (.edge e none))) ∧
      (23 < i.toNat → exec (.linkRetrainPort h i) s = .next (answer s h 0x0A03 .badParam)) ∧
      (∀ p : Fin 24, i.toNat = p.val → s.fab.ports[p].mode ≠ 0 → exec (.linkRetrainPort h i) s =
        .next (startLongReply (modPort (portLeave s p 1 (some 5)) p (fun q => { q with ethUp := false })) h 0x0A03
          (.port p false s.inv.clk))))

/-- For a stack that is UP on a powered die: a corrected error is counted and marks its line, the data stay; an
uncorrectable one poisons the line, is counted once and raises a memory event; on a line poisoned already neither
counts. SCRUB_LINE reads the line at the patrol position, which moves on, or during a SCRUB_RUN counts a line of that
pass and leaves the patrol position; the last line of the last stack ends the SCRUB_RUN DONE. ROW_SPARE of a failing
row counts a spared row, forgets its corrections and adds it to the repair log while a spare row is left. PAGE_RETIRE
of a page with a poisoned line redirects it, at most 4,096 pages, after which an event says so. A training loss that
retraining does not mend fences the stack and not its die. A stack that does not serve is unchanged by these, but for
a training loss while an exit from Bank wakes it, which fences it. Which lines make a row, and how many spare rows
there are, the manual does not say (log entry 3); that a SCRUB_RUN has a pass of its own, and the training loss in an
exit from Bank, are log entry 85, the order of patrol log entry 75. (10_stack_memory.md: Line ECC and poison,
10_stack_memory.md: Patrol scrub, 10_stack_memory.md: Sparing, retirement and fencing.) -/
def Obligations.StackErrorsScrubAndRepairActAsGiven : Prop :=
  ∀ (s : State) (k : Fin 16),
    (stackServes s k = false →
      (∀ o, exec (.stackCorrectedRead k o) s = .next s) ∧ (∀ o, exec (.stackUncorrectable k o) s = .next s) ∧
      (∀ r, exec (.rowSpare k r) s = .next s) ∧ (∀ p, exec (.pageRetire k p) s = .next s) ∧
      exec (.stackTrainingLoss k true) s = .next s ∧ (stackWakes s k = false → exec (.stackTrainingLoss k false) s = .next s) ∧
      (stackWakes s k = true → ∃ t, exec (.stackTrainingLoss k false) s = .next t ∧ t.stk[k].st = .fenced ∧
        ∀ d : Fin 4, t.dies[d].st = s.dies[d].st)) ∧
    (stackServes s k = true →
      (∀ o, o < stackLen → s.poison.contains (stackLineNo k (o / 64)) = false →
        exec (.stackCorrectedRead k o) s = .next (modStack s k (fun u => { u with
          ce := satAdd u.ce 1
          corrected := insertNat u.corrected (o / 64) })) ∧
        exec (.stackUncorrectable k o) s = .next (wakeLine (raise (modStack
          { s with poison := insertNat s.poison (stackLineNo k (o / 64)) } k (fun u => { u with ue := satAdd u.ue 1 }))
          evMemory (Config.eventCode evMemory 1) (leBytes 8 (64 * stackLineNo k (o / 64)))) (stackLineNo k (o / 64))) ∧
        (s.sync.waiters = [] → ∃ t, exec (.stackUncorrectable k o) s = .next t ∧
          poisoned t (k * stackLen + o) 1 = true ∧ t.stk[k].ue = satAdd s.stk[k].ue 1 ∧ t.mem = s.mem ∧
          (∀ l, s.poison.contains l = true → t.poison.contains l = true))) ∧
      (∀ o, s.poison.contains (stackLineNo k (o / 64)) = true →
        exec (.stackCorrectedRead k o) s = .next s ∧ exec (.stackUncorrectable k o) s = .next s) ∧
      (∀ row, rowFails s.stk[k] k row = true →
        (s.stk[k].repairs.length < Config.spareRows k → ∃ t, exec (.rowSpare k row) s = .next t ∧
          t.stk[k].rowsSpared = satAdd s.stk[k].rowsSpared 1 ∧ t.stk[k].repairs = s.stk[k].repairs ++ [row] ∧
          rowFails t.stk[k] k row = false ∧ t.stk[k].redirects = s.stk[k].redirects ∧ t = { s with stk := t.stk } ∧
          ∀ j : Fin 16, j ≠ k → t.stk[j] = s.stk[j]) ∧
        (Config.spareRows k ≤ s.stk[k].repairs.length →
          s.stk[k].redirects.length + (pagesOfRow s.stk[k] k row).length ≤ 4096 → ∃ t, exec (.rowSpare k row) s = .next t ∧
          t.stk[k].repairs = s.stk[k].repairs ∧ (∀ p ∈ pagesOfRow s.stk[k] k row, p ∈ t.stk[k].redirects) ∧ t.mem = s.mem)) ∧
      (∀ row, rowFails s.stk[k] k row = false → exec (.rowSpare k row) s = .next s) ∧
      (∀ page i, i < 64 → s.poison.contains (stackLineNo k (64 * page + i)) = true →
        (page ∉ s.stk[k].redirects → s.stk[k].redirects.length < 4096 → ∃ t, exec (.pageRetire k page) s = .next t ∧
          t.stk[k].redirects = s.stk[k].redirects ++ [page] ∧ t.stk[k].pagesRetired = satAdd s.stk[k].pagesRetired 1 ∧
          t = { s with stk := t.stk } ∧ ∀ j : Fin 16, j ≠ k → t.stk[j] = s.stk[j]) ∧
        (page ∈ s.stk[k].redirects → exec (.pageRetire k page) s = .next s) ∧
        (page ∉ s.stk[k].redirects → 4096 ≤ s.stk[k].redirects.length → exec (.pageRetire k page) s =
          .next (raise s evMemory (Config.eventCode evMemory 2) (leBytes 8 (k * stackLen + 4096 * page))))) ∧
      (∀ page, (∀ i, i < 64 → s.poison.contains (stackLineNo k (64 * page + i)) = false) →
        exec (.pageRetire k page) s = .next s) ∧
      exec (.stackTrainingLoss k true) s = .next s ∧
      (∃ t, exec (.stackTrainingLoss k false) s = .next t ∧ t.stk[k].st = .fenced ∧ (∀ d : Fin 4, t.dies[d].st = s.dies[d].st) ∧
        ∀ j : Fin 16, j ≠ k → t.stk[j].st = s.stk[j].st) ∧
      (s.power.st ≠ 1 → s.stk[k].scrubRun = none →
        exec (.scrubLine k false false) s = .next (modStack s k scrubNext) ∧
        exec (.scrubLine k true false) s = .next (modStack (correctLine s k s.stk[k].scrubLine) k scrubNext) ∧
        ∀ c, exec (.scrubLine k c true) s = .next (modStack (spoilLine s k s.stk[k].scrubLine) k scrubNext)) ∧
      (∀ n o m, s.stk[k].scrubRun = some n → scrubOp s = some (o, m) →
        (1 < n → ∃ t,
          exec (.scrubLine k false false) s = .next t ∧ t.stk[k].scrubRun = some (n - 1) ∧ t.stk[k].scrubLine = s.stk[k].scrubLine ∧ t.mem = s.mem ∧
          t.cmd.longs.map (·.id) = s.cmd.longs.map (·.id)) ∧
        (n ≤ 1 → (∀ j : Fin 16, j ≠ k → s.stk[j].scrubRun = none) → ∃ t, exec (.scrubLine k false false) s = .next t ∧
          t.stk[k].scrubRun = none ∧ (∀ x ∈ t.cmd.longs, x.id ≠ o.id) ∧
          Answered t o.hdr o.opcode.toNat .done [])))

/-- A part whose header is not as given, or whose slice or message has another length, is discarded and counted. A
message of one part with a session that is not open, another master ID, a wrong tag, or a SEQUENCE above that of a
KEY_ROTATE that has not ended is counted, queued never, and answered AUTH_FAIL (said where no other was within the
second). With SEQUENCE 0 or one below the window it is discarded; one that repeats a seen SEQUENCE and is not of the
read class changes the queue not at all. One that is new, passes the checks and has no NB and WC joins the queue. An
incomplete message is discarded 10 ms after its first part. A free processor starts a released wake command, or the
first queued command that may start, as the row that its bytes spell; reserved field values are BAD_PARAM. (That only
commands which wait for another package or for an edge occupy a processor is log entry 36.) A slice resumes the named
long operation by its kind; progress is reported after CMD_PROGRESS_MS. (14_command_protocol.md: Messages,
14_command_protocol.md: Sessions and sequence numbers, 14_command_protocol.md: Admission, 14_command_protocol.md: Long
operations.) -/
def Obligations.MessagesAreAdmittedQueuedAndStarted : Prop :=
  (∀ i s, (cmdOf i).isSome = true → exec i s = .next (runCmd i s)) ∧
  ∀ (s : State),
    (∀ port via b, served s = false ∨ portServes s via port = false → exec (.messagePartArrival ⟨port, via⟩ b) s = .next s) ∧
    (∀ port via b, served s = true → portServes s via port = true →
      (headerOk b = false ∨ (leAt b 15 1 = 0 ∧ (b.length < 96 ∨ 4096 < b.length)) ∨
        (headerOk b = true ∧ leAt b 15 1 = 0 ∧ b.length ≠ 96 + leAt b 36 4) →
        exec (.messagePartArrival ⟨port, via⟩ b) s =
          .next { s with cmd := { s.cmd with cntDiscard := satAdd s.cmd.cntDiscard 1 } }) ∧
      (headerOk b = true → leAt b 15 1 = 0 → 96 ≤ b.length → b.length ≤ 4096 → b.length = 96 + leAt b 36 4 →
        (sessionOf s (par16 b 8) = none → ¬ (par16 b 8 = 0 ∧ leAt b 6 2 = 0x0101) → ∃ t,
          exec (.messagePartArrival ⟨port, via⟩ b) s = .next t ∧ t.cmd.cntAuthFail = satAdd s.cmd.cntAuthFail 1 ∧
          t.cmd.queue = s.cmd.queue ∧ t.cmd.schedule = s.cmd.schedule ∧ t.mem = s.mem ∧
          (s.cmd.authFails = [] → ∃ r rest, t.cmd.sent = r :: rest ∧ r.status = .authFail ∧ r.seq = par32 b 16)) ∧
        (∀ i x, sessionOf s (par16 b 8) = some (i, x) → par16 b 8 ≠ 0 →
          (leAt b 10 2 ≠ 0x2000 + i ∨ 0xFFFFFF00 ≤ x.h.toNat ∨
              x.rotating.any (fun r => decide (r.toNat < (par32 b 16).toNat)) = true ∨ b.drop (b.length - 32) ≠
              kmac256 (keysFor x (par32 b 16)).kc (b.take (b.length - 32)) 32 (ascii "APUNE CMD") → ∃ t,
            exec (.messagePartArrival ⟨port, via⟩ b) s = .next t ∧ t.cmd.cntAuthFail = satAdd s.cmd.cntAuthFail 1 ∧
            t.cmd.queue = s.cmd.queue ∧ t.cmd.sessions = s.cmd.sessions ∧ t.mem = s.mem ∧
            (s.cmd.authFails = [] → ∃ r rest, t.cmd.sent = r :: rest ∧ r.status = .authFail ∧ r.seq = par32 b 16)) ∧
          (leAt b 10 2 = 0x2000 + i → x.h.toNat < 0xFFFFFF00 →
              x.rotating.any (fun r => decide (r.toNat < (par32 b 16).toNat)) = false → b.drop (b.length - 32) =
              kmac256 (keysFor x (par32 b 16)).kc (b.take (b.length - 32)) 32 (ascii "APUNE CMD") →
            (par32 b 16 = 0 ∨ (par32 b 16).toNat + 1024 ≤ x.h.toNat → ∃ t, exec (.messagePartArrival ⟨port, via⟩ b) s = .next t ∧
              t.cmd.cntDiscard = satAdd s.cmd.cntDiscard 1 ∧ t.cmd.queue = s.cmd.queue ∧ t.cmd.sent = s.cmd.sent) ∧
            (par32 b 16 ≠ 0 → x.h.toNat < (par32 b 16).toNat + 1024 → (∃ e ∈ x.seen, e.1 = par32 b 16) →
              readClass (leAt b 6 2) = false → ∃ t, exec (.messagePartArrival ⟨port, via⟩ b) s = .next t ∧
              t.cmd.cntDup = satAdd s.cmd.cntDup 1 ∧ t.cmd.queue = s.cmd.queue ∧ t.mem = s.mem) ∧
            (par32 b 16 ≠ 0 → x.h.toNat < (par32 b 16).toNat + 1024 → (∀ e ∈ x.seen, e.1 ≠ par32 b 16) →
              leAt b 20 8 = 0 → par64 b 28 = 0 → leAt b 14 1 = 0 → (∀ j, 40 ≤ j → j < 64 → leAt b j 1 = 0) →
              cmdLength (leAt b 6 2) ((b.drop 64).take (leAt b 36 4)) = some (leAt b 36 4) →
              scopeOk (leAt b 6 2) (par16 b 12) = true →
              tableAdmits s 0x1200 (leAt b 10 2) (leAt b 6 2 * 65536 + leAt b 12 2) .cmd = true →
              queuedArrivals s < 1024 → ∃ t q, exec (.messagePartArrival ⟨port, via⟩ b) s = .next t ∧ q ∈ t.cmd.queue ∧
              t.cmd.queue.length = s.cmd.queue.length + 1 ∧ q.opcode = par16 b 6 ∧ q.params = (b.drop 64).take (leAt b 36 4) ∧
              q.hdr.seq = par32 b 16 ∧ q.hdr.stream = par16 b 12 ∧ q.hdr.stamp = s.inv.ft ∧ q.serial = (leAt b 5 1).testBit 3 ∧
              t.cmd.sent = s.cmd.sent ∧ t.mem = s.mem))))) ∧
    (∀ key, (∀ p, s.cmd.partials.find? (fun p => p.key == key) = some p → p.first.toNat + 10000000 ≤ clk s →
        exec (.messageAssemblyTimeout key) s = .next { s with cmd := { s.cmd with
          partials := s.cmd.partials.filter (fun x => x.key ≠ key)
          cntDiscard := satAdd s.cmd.cntDiscard 1 } }) ∧
      (∀ p, s.cmd.partials.find? (fun p => p.key == key) = some p → clk s < p.first.toNat + 10000000 →
        exec (.messageAssemblyTimeout key) s = .next s)) ∧
    (served s = true → 8 ≤ s.cmd.waits.length + s.cmd.held.length → ∀ n, exec (.commandProcessorStart n) s = .next s) ∧
    (served s = true → s.cmd.waits.length + s.cmd.held.length < 8 → ∀ n,
      (∀ i r, s.cmd.ready = i :: r → exec (.commandProcessorStart n) s =
        .next (runCmd i { s with cmd := { s.cmd with ready := r } })) ∧
      (s.cmd.ready = [] → s.cmd.queue = [] → exec (.commandProcessorStart n) s = .next s) ∧
      (∀ q rest, s.cmd.ready = [] → s.cmd.queue = q :: rest → mayStart s [] q = true → ∃ ok,
        (∀ i, parseCmd q n ok = some i → exec (.commandProcessorStart n) s =
          .next (runCmd i { s with cmd := { s.cmd with queue := rest }, fresh := s.fresh + 1 })) ∧
        (parseCmd q n ok = none → exec (.commandProcessorStart n) s =
          .next (answer { s with cmd := { s.cmd with queue := rest } } q.hdr q.opcode.toNat .badParam))) ∧
      (s.cmd.ready = [] → pickCmd s [] s.cmd.queue = none → exec (.commandProcessorStart n) s = .next s)) ∧
    (served s = true → s.power.st = 0 → ∀ id n o, longOp s id = some o →
      (∀ a len p d bad, o.kind = .memFill a len p d bad → exec (.longOpSlice id n) s = .next (sliceFill s o n)) ∧
      (∀ x y len ca cv d e bad w, o.kind = .memCopy x y len ca cv d e bad w →
        exec (.longOpSlice id n) s = .next (sliceCopy s o n)) ∧
      (∀ src len off f c d, o.kind = .programLoad src len off f c d → exec (.longOpSlice id n) s = .next (sliceLoad s o n)) ∧
      (∀ seed f c sets d, o.kind = .seedSet seed f c sets d → exec (.longOpSlice id n) s = .next (sliceSeed s o n)) ∧
      (∀ src len slot d ok, o.kind = .fwStage src len slot d ok →
        exec (.longOpSlice id n) s = .next (stageSlice s o src len slot d ok n)) ∧
      (o.kind = .replay → exec (.longOpSlice id n) s = .next (sliceReplay s)) ∧
      (∀ x, o.kind = .exchange x → exec (.longOpSlice id n) s = .next (resumeOp s x)) ∧
      (∀ e t, o.kind = .edge e (some t) → edgeState s e = 0 → (edge s e).1.tstate = 0 → (edge s e).2.tstate = 0 →
        exec (.longOpSlice id n) s = .next (if s.inv.clk.toNat < t.toNat + 1000000 then s else startEdge s e 5)) ∧
      (∀ l, o.kind = .reshard l → exec (.longOpSlice id n) s =
        .next (if anyRuns s then s else endLong s o .done [])) ∧
      (∀ p t, o.kind = .port p true t → clk s < t.toNat + 1000000000 → exec (.longOpSlice id n) s = .next s) ∧
      (∀ p t, o.kind = .port p true t → t.toNat + 1000000000 ≤ clk s → ∃ bs : List Byte, bs.length = 80 ∧
        exec (.longOpSlice id n) s = .next (endLong (modPort (useFresh s 1) p.val (fun q => { q with
          pstate := if q.pstate = 7 then 7 else BitVec.ofNat 3 (startState q) })) o .done bs))) ∧
    (∀ id o, longOp s id = some o →
      (o.lastReply.toNat + s.cmd.progressMs.toNat * 1000000 ≤ clk s → ∃ t, exec (.longOpProgress id) s = .next t ∧
        t.mem = s.mem ∧ ∃ r rest, t.cmd.sent = r :: rest ∧ r.status = .inProgress ∧ r.seq = o.hdr.seq ∧ r.opcode = o.opcode ∧
          (o.hdr.occurrence = none → o.kind ≠ .updateRun → r.cursor = o.cursor)) ∧
      (clk s < o.lastReply.toNat + s.cmd.progressMs.toNat * 1000000 → exec (.longOpProgress id) s = .next s))

/-- At an end that listens: a flit with a bad CRC is counted and a NAK leaves; one out of BSEQ order is asked for
again; one for which its full buffer has no credit is not accepted (log entry 79); one in order moves the bundle on
and its credits are taken; with its ESEQ next it is delivered (a whole packet for the die there then waits for its
router), with a later one it is held. A NAK sends the flits from the named one again. The stages CLOCK, LOCK, MASK,
CHECK follow one another when they pass, a failed attempt begins the next, and the third failure fences the die; a
TRAIN flit carries the masks of MASK; UP takes the bundles and the partner's mask of the last round. A flit sent 16
times excludes its bundle and trains with cause 2; a TRAIN flit at an UP end trains with cause 4. A watchdog on an I/O
edge fences the die at once (log entry 56); on a ring edge with both I/O edges UP it trains. Fencing a die fences its
stacks and edges and faults its streams, and no other die. A mesh COUNT adds its own value and those merged with it to
its word in one ADD; replies reach their die, but not one whose request has completed already; a multicast write
copies along one line and is discarded and counted in any other shape. (11_die_links_mesh.md: Bundles and flits,
11_die_links_mesh.md: Retry, 11_die_links_mesh.md: Width training, 11_die_links_mesh.md: Watchdog and fencing,
11_die_links_mesh.md: The on-die mesh, 11_die_links_mesh.md: Count combining.) -/
def Obligations.DieLinksAndMeshMoveTrainAndFence : Prop :=
  ∀ (s : State),
    (∀ e, endLive s e = false → (∀ b d x, exec (.d2dFlitReceive e b d x) s = .next s) ∧
      (∀ b, exec (.d2dNakResend e b) s = .next s) ∧ (∀ b, exec (.d2dBundleExclude e b) s = .next s) ∧
      (∀ r, exec (.d2dTrainStageEnd e r) s = .next s) ∧ exec (.d2dTrainFlitWhileUp e) s = .next s ∧
      exec (.d2dWatchdogExpiry e) s = .next s) ∧
    (∀ e, endLive s e = true → (linkEnd s e).tstate = 5 →
      (∀ b d x, (linkEnd s e).mask.getLsbD b = true →
        (d2dCrcOk d x = false → ∃ t, exec (.d2dFlitReceive e b d x) s = .next t ∧
          (linkEnd t e).cntCrc = satAdd (linkEnd s e).cntCrc 1 ∧ (bundleOf (linkEnd t e) b).nakOut = true ∧
          (bundleOf (linkEnd t e) b).rxExpect = (bundleOf (linkEnd s e) b).rxExpect ∧
          (∃ out, (linkEnd t e).wire = out ++ (linkEnd s e).wire ∧ ∃ f ∈ out, f.1 = b ∧ f.2.2.getLsbD 44 = true) ∧
          (∀ f, f ≠ e → linkEnd t f = linkEnd s f) ∧ t = { s with links := t.links }) ∧
        (d2dCrcOk d x = true → (parseD2d d).typ = 3 → ∃ t, exec (.d2dFlitReceive e b d x) s = .next t ∧
          (linkEnd t e).tstate = 1 ∧ (linkEnd t e).cause = 4 ∧ t.mem = s.mem) ∧
        (d2dCrcOk d x = true → (parseD2d d).typ = 1 → (linkEnd s e).streamReq = [] → (linkEnd s e).streamRsp = [] →
          (noRoom (linkEnd s e) (parseD2d d) = true → ∃ t, exec (.d2dFlitReceive e b d x) s = .next t ∧
            (bundleOf (linkEnd t e) b).rxExpect = (bundleOf (linkEnd s e) b).rxExpect ∧
            (linkEnd t e).rxEseqReq = (linkEnd s e).rxEseqReq ∧ (linkEnd t e).held = (linkEnd s e).held ∧
            t = { s with links := t.links }) ∧
          (noRoom (linkEnd s e) (parseD2d d) = false → (parseD2d d).bseq ≠ (bundleOf (linkEnd s e) b).rxExpect →
            ∃ t, exec (.d2dFlitReceive e b d x) s = .next t ∧ (bundleOf (linkEnd t e) b).nakOut = true ∧
            (bundleOf (linkEnd t e) b).rxExpect = (bundleOf (linkEnd s e) b).rxExpect ∧
            (linkEnd t e).rxEseqReq = (linkEnd s e).rxEseqReq ∧ t = { s with links := t.links }) ∧
          ((parseD2d d).bseq = (bundleOf (linkEnd s e) b).rxExpect → (linkEnd s e).held = [] → (linkEnd s e).txWait = [] →
            (linkEnd s e).requeue = [] →
            let took := fun (t : State) => (bundleOf (linkEnd t e) b).nakOut = false ∧
              (bundleOf (linkEnd t e) b).rxExpect = (bundleOf (linkEnd s e) b).rxExpect + 1 ∧
              (linkEnd t e).cntFlits = satAdd (linkEnd s e).cntFlits 1 ∧
              (linkEnd t e).crReq = (linkEnd s e).crReq + bits x.toNat 48 45
            let whole := takeMesh ((parseD2d d).bytes.length / 16 + 1) (parseD2d d).bytes
            ((parseD2d d).eseq ≠ (linkEnd s e).rxEseqReq → ((parseD2d d).eseq - (linkEnd s e).rxEseqReq).toNat < 32768 →
              ∃ t, exec (.d2dFlitReceive e b d x) s = .next t ∧ took t ∧ (linkEnd t e).held = [parseD2d d] ∧
              (linkEnd t e).rxEseqReq = (linkEnd s e).rxEseqReq ∧ t = { s with links := t.links }) ∧
            ((parseD2d d).eseq = (linkEnd s e).rxEseqReq → whole.1 = [] →
              ∃ t, exec (.d2dFlitReceive e b d x) s = .next t ∧ took t ∧ (linkEnd t e).held = [] ∧
              (linkEnd t e).rxEseqReq = (linkEnd s e).rxEseqReq + 1 ∧ (linkEnd t e).streamReq = (parseD2d d).bytes ∧
              t = { s with links := t.links }) ∧
            (∀ p, (parseD2d d).eseq = (linkEnd s e).rxEseqReq → whole = ([p], []) → (nearDie e).isSome = true →
              edgeToward (nearDie e) (meshTarget p) = none → ∃ t, exec (.d2dFlitReceive e b d x) s = .next t ∧ took t ∧
              (linkEnd t e).rxEseqReq = (linkEnd s e).rxEseqReq + 1 ∧ (linkEnd t e).streamReq = [] ∧
              t.waitingReqs = s.waitingReqs ++ [⟨farDie e, p⟩] ∧ t.mem = s.mem)))) ∧
      (∀ b, (bundleOf (linkEnd s e) b).nakFrom = none → exec (.d2dNakResend e b) s = .next s) ∧
      (∀ b q, (bundleOf (linkEnd s e) b).nakFrom = some q → (linkEnd s e).txWait = [] → (linkEnd s e).requeue = [] →
        let again := fun (f : D2dFlit) => decide ((f.bseq - q).toNat < 2048)
        ∃ t, exec (.d2dNakResend e b) s = .next t ∧ (bundleOf (linkEnd t e) b).nakFrom = none ∧
        (bundleOf (linkEnd t e) b).replay = (bundleOf (linkEnd s e) b).replay.map (fun f =>
          if again f then { f with sends := f.sends + 1 } else f) ∧
        (∃ out, (linkEnd t e).wire = out ++ (linkEnd s e).wire ∧
          out.length = ((bundleOf (linkEnd s e) b).replay.filter again).length) ∧ t = { s with links := t.links }) ∧
      (∀ r, exec (.d2dTrainStageEnd e r) s = .next s) ∧
      (∀ b, b < 32 → (∃ f ∈ (bundleOf (linkEnd s e) b).replay, 16 ≤ f.sends) → ∃ t,
        exec (.d2dBundleExclude e b) s = .next t ∧ (linkEnd t e).exclude.getLsbD b = true ∧ (linkEnd t e).tstate = 1 ∧
        (linkEnd t e).attempt = 1 ∧ (linkEnd t e).cause = 2 ∧ t.mem = s.mem) ∧
      (∀ b, (∀ f ∈ (bundleOf (linkEnd s e) b).replay, f.sends < 16) → exec (.d2dBundleExclude e b) s = .next s) ∧
      (∃ t, exec (.d2dTrainFlitWhileUp e) s = .next t ∧ (linkEnd t e).tstate = 1 ∧ (linkEnd t e).attempt = 1 ∧
        (linkEnd t e).cause = 4 ∧ t.mem = s.mem)) ∧
    (∀ e, endLive s e = true →
      (∀ m, (linkEnd s e).tstate = 1 → ∃ t, exec (.d2dTrainStageEnd e (.passed m)) s = .next t ∧
        linkEnd t e = { linkEnd s e with tstate := 2 } ∧ t = { s with links := t.links }) ∧
      (∀ m, (linkEnd s e).tstate = 2 → ∃ t, exec (.d2dTrainStageEnd e (.passed m)) s = .next t ∧
        linkEnd t e = sendTrain e { linkEnd s e with
          tstate := 3
          passed := m &&& (linkEnd s e).allowed } ∧ (linkEnd t e).tstate = 3 ∧ t = { s with links := t.links }) ∧
      (∀ b d x, (linkEnd s e).tstate = 3 → (linkEnd s e).passed.getLsbD b = true → d2dCrcOk d x = true → (parseD2d d).typ = 3 →
        exec (.d2dFlitReceive e b d x) s = exec (.d2dTrainStageEnd e (.masks
          (BitVec.ofNat 8 (leAt (parseD2d d).payload 0 4)) (BitVec.ofNat 32 (leAt (parseD2d d).payload 4 4)))) s) ∧
      (∀ a, (linkEnd s e).tstate = 3 → (linkEnd s e).second = false → (linkEnd s e).attempt.toNat ≤ a.toNat → a.toNat ≤ 3 →
        4 ≤ popCount 32 ((linkEnd s e).passed &&& ~~~(linkEnd s e).exclude).toNat →
        ∃ t, exec (.d2dTrainStageEnd e (.masks a ((linkEnd s e).passed &&& ~~~(linkEnd s e).exclude))) s = .next t ∧
          (linkEnd t e).tstate = 4 ∧ (linkEnd t e).attempt = a ∧
          (linkEnd t e).allowed = (linkEnd s e).passed &&& ~~~(linkEnd s e).exclude ∧
          (linkEnd t e).peerIn = (linkEnd t e).allowed ∧ (linkEnd t e).mask = (linkEnd s e).mask ∧
          t = { s with links := t.links }) ∧
      (∀ m, (linkEnd s e).tstate = 4 → ∃ t, exec (.d2dTrainStageEnd e (.passed m)) s = .next t ∧
        (linkEnd t e).tstate = 5 ∧ (linkEnd t e).mask = (linkEnd s e).allowed ∧
        (linkEnd t e).peerMask = (linkEnd s e).peerIn ∧
        ((linkEnd s (otherEnd e)).tstate ≠ 5 ∨ (∀ n c, (stream s n c).synq = []) → t.mem = s.mem)) ∧
      (1 ≤ (linkEnd s e).tstate.toNat → (linkEnd s e).tstate.toNat ≤ 4 →
        ((linkEnd s e).attempt.toNat < 3 → ∃ t, exec (.d2dTrainStageEnd e .failed) s = .next t ∧
          (linkEnd t e).tstate = 1 ∧ (linkEnd t e).attempt = (linkEnd s e).attempt + 1 ∧ t = { s with links := t.links }) ∧
        (3 ≤ (linkEnd s e).attempt.toNat → ∃ t, exec (.d2dTrainStageEnd e .failed) s = .next t ∧
          dieFenced t (edgeVictim e.edge.val) = true)) ∧
      (4 ≤ e.edge.val → ∃ t, exec (.d2dWatchdogExpiry e) s = .next t ∧ dieFenced t (e.edge.val - 4) = true) ∧
      (e.edge.val < 4 → iodEdgesUp s e.edge.val = true → ∃ t, exec (.d2dWatchdogExpiry e) s = .next t ∧
        (linkEnd t e).tstate = 1 ∧ (linkEnd t e).cause = 3 ∧ ∀ k : Fin 4, t.dies[k].st = s.dies[k].st) ∧
      (e.edge.val < 4 → iodEdgesUp s e.edge.val = false → ∃ t, exec (.d2dWatchdogExpiry e) s = .next t ∧
        (linkEnd t e).tstate = 6 ∧ ∀ k : Fin 4, t.dies[k].st = s.dies[k].st)) ∧
    (∀ k : Fin 4, (s.dies[k].on = false → exec (.dieFence k) s = .next s) ∧
      (s.dies[k].on = true → s.dies[k].st ≠ .fenced → ∃ t, exec (.dieFence k) s = .next t ∧ t.dies[k].st = .fenced ∧
        (∀ j : Fin 4, j ≠ k → t.dies[j].st = s.dies[j].st) ∧
        (∀ i : Fin 16, i.val / 4 = k.val → t.stk[i].st = .fenced) ∧
        (∀ i : Fin 16, i.val / 4 ≠ k.val → t.stk[i].st = s.stk[i].st) ∧
        (∀ e ∈ edgesOf k.val, edgeState t e = 3) ∧
        ∀ n c, n / 1024 = k.val → (stream t n c).st = .faulted)) ∧
    (∀ (k : Fin 4) p others, s.dies[k].on = false ∨ s.dies[k].st = .fenced →
      exec (.meshPacketDeliver k p others) s = .next s ∧ ∀ r c, exec (.meshMcWrite k r c p) s = .next s) ∧
    (∀ (k : Fin 4) p others, s.dies[k].on = true → s.dies[k].st ≠ .fenced →
      (p.net = true → p.ddie.toNat = k.val → p.typ = 4 ∨ p.typ = 5 → ∃ t, exec (.meshPacketDeliver k p others) s = .next t ∧
        t.dies[k].rspSeen = (if s.meshLate.contains (reqKey p) then s.dies[k].rspSeen else p :: s.dies[k].rspSeen) ∧
        t.dies[k].meshRsp = satAdd s.dies[k].meshRsp 1 ∧ t.mem = s.mem) ∧
      (p.net = false → p.typ = 3 → (place p.addr.toNat).die = some k.val → placeStopped s (place p.addr.toNat) = false →
        (∀ o ∈ others, mergeable p o = true) → wordPlace p.addr.toNat = true → poisoned s p.addr.toNat 8 = false →
        wordOrphan? (rdNat s p.addr.toNat 8) = false →
        accessStatus s p.master.toNat p.addr.toNat 8 .atomic = .done → s.ckpt.capture = none →
        leAt p.data 0 8 + (others.map (fun o => leAt o.data 0 8)).sum < 2 ^ 48 →
        ∃ t, exec (.meshPacketDeliver k p others) s = .next t ∧
          t.dies[k].meshReq = satAdd s.dies[k].meshReq (1 + others.length) ∧
          t.dies[k].meshCombined = satAdd s.dies[k].meshCombined others.length ∧
          rdNat t p.addr.toNat 8 = wordWith (rdNat s p.addr.toNat 8) (wordValue (rdNat s p.addr.toNat 8) +
            (leAt p.data 0 8 + (others.map (fun o => leAt o.data 0 8)).sum))) ∧
      (∀ r c, clocksOn s = true → (mcLine k.val r c p = none → ∃ t, exec (.meshMcWrite k r c p) s = .next t ∧
          t.dies[k].meshBad = satAdd s.dies[k].meshBad 1 ∧ t.lastStatus = .badParam ∧ t.mem = s.mem) ∧
        (∀ l, mcLine k.val r c p = some l → exec (.meshMcWrite k r c p) s = .next
          ((l.filterMap (fun q => clusterAt s k.val q.1 q.2)).foldl (fun t n => mcCopy t p n)
            (modDie { s with lastStatus := .done } k.val (fun d => { d with meshReq := satAdd d.meshReq 1 }))))))

/-- A port that does not listen takes no flit. One that does counts a bad flit and in UP sends a NAK; FEC_UNCORR rises
by the codewords that a bad flit ends, one or two, or none where the flit before was bad (log entry 3); in UP a good
DATA flit moves FSEQ on when it is the expected one, else the expected one is asked for. A NAK in UP resends. A flit
sent 8 times, a lost signal or the watchdog take a port in service DOWN, to DETECT with its cause. DETECT, EQUALISE,
ALIGN and IDENT follow one another; a budget takes it back to DETECT for 1 s, a failing IDENT to FAULT with cause 4.
IDENT of the partner is taken into the port's registers. With FT_LINK_EN a port in service sends a TIME flit, stamped,
and a received one gives the offset; from the parent it disciplines FT, in ACQUIRE until the offset is within the 1.5
ns of a hop (log entry 11, which also says that the depth is not in the flit, and that stamps count on the time line
of now). A port in Ethernet mode is UP with its link and in DETECT without, unless a PORT_LOOP runs on it.
(12_fabric.md: Link layer, 12_fabric.md: Time exchange, 12_fabric.md: Ethernet mode on P0–P3, 12_fabric.md: Ports and
lanes.) -/
def Obligations.FabricPortsTrainServeAndFail : Prop :=
  ∀ (s : State) (p : Fin 24),
    (s.fab.ports[p].mode ≠ 1 ∨ s.fab.ports[p].pstate.toNat < 4 ∨ s.fab.ports[p].pstate = 7 →
      (∀ l n ok, exec (.fabFlitReceive p l n ok) s = .next s) ∧ (∀ i, exec (.fabIdentReceive p i) s = .next s)) ∧
    (s.fab.ports[p].mode = 1 → s.fab.ports[p].pstate = 5 → ∀ l n,
      ((crc32c ((slice l 0 280).take 276)).toNat ≠ leAt l 276 4 → ∃ t, exec (.fabFlitReceive p l n true) s = .next t ∧
        t.fab.ports[p].nakOut = true ∧ t.fab.ports[p].crc = satAdd s.fab.ports[p].crc 1 ∧
        (∃ f, t.fab.ports[p].wire = f :: s.fab.ports[p].wire ∧ bit (leAt f 0 4) 3 = true) ∧
        t.fab.ports[p].rxExpect = s.fab.ports[p].rxExpect ∧ t.fab.ports[p].rxStream = s.fab.ports[p].rxStream ∧
        t.fab.inbox = s.fab.inbox ∧ t.mem = s.mem) ∧
      (∃ t, exec (.fabFlitReceive p l n false) s = .next t ∧ t.fab.ports[p].nakOut = true ∧
        (∃ u, u ≤ 2 ∧ (s.fab.ports[p].fecRun = false → 1 ≤ u) ∧ t.fab.ports[p].fecUncorr = satAdd s.fab.ports[p].fecUncorr u) ∧
        t.fab.ports[p].fecRun = true ∧
        t.fab.ports[p].rxExpect = s.fab.ports[p].rxExpect ∧ t.fab.inbox = s.fab.inbox) ∧
      ((crc32c ((slice l 0 280).take 276)).toNat = leAt l 276 4 → l.length = 280 → bits (leAt l 0 4) 31 28 = 1 →
        ∃ t, exec (.fabFlitReceive p l n true) s = .next t ∧ t.mem = s.mem ∧
          (bits (leAt l 0 4) 27 16 = s.fab.ports[p].rxExpect.toNat →
            t.fab.ports[p].rxExpect = s.fab.ports[p].rxExpect + 1 ∧ t.fab.ports[p].nakOut = false ∧
            ∃ ks, t.fab.inbox = s.fab.inbox ++ ks) ∧
          (bits (leAt l 0 4) 27 16 ≠ s.fab.ports[p].rxExpect.toNat →
            t.fab.ports[p].rxExpect = s.fab.ports[p].rxExpect ∧ t.fab.ports[p].nakOut = true ∧
            t.fab.inbox = s.fab.inbox))) ∧
    (s.fab.ports[p].nakFrom = none → exec (.fabNakResend p) s = .next s) ∧
    (∀ a, s.fab.ports[p].nakFrom = some a → s.fab.ports[p].mode = 1 → s.fab.ports[p].pstate = 5 →
      s.fab.ports[p].outq = [] → ∃ t, exec (.fabNakResend p) s = .next t ∧ t.fab.ports[p].nakFrom = none ∧
      (∀ f rest, s.fab.ports[p].replay = f :: rest → t.fab.ports[p].wire.length = s.fab.ports[p].wire.length +
        (s.fab.ports[p].replay.drop (fseqDist f.fseq a)).length) ∧
      t.fab.ports[p].replay.length = s.fab.ports[p].replay.length ∧
      t.fab.ports[p].txNext = s.fab.ports[p].txNext ∧ t.mem = s.mem ∧
      ∀ q : Fin 24, q ≠ p → t.fab.ports[q] = s.fab.ports[q]) ∧
    (s.fab.ports[p].carries = false → exec (.fabRetryExhaustion p) s = .next s ∧ exec (.fabIdentSend p) s = .next s ∧
      (∀ c, exec (.fabPortDown p c) s = .next s) ∧ exec (.timeFlitSend p) s = .next s ∧
      ∀ f, exec (.timeFlitReceive p f) s = .next s) ∧
    (s.fab.ports[p].carries = true →
      ((∃ f ∈ s.fab.ports[p].replay, 8 ≤ f.sends) → ∃ t, exec (.fabRetryExhaustion p) s = .next t ∧
        t.fab.ports[p].pstate = 1 ∧ t.fab.ports[p].downCause = 3 ∧ t.fab.ports[p].replay = [] ∧ t.fab.ports[p].outq = []) ∧
      ((∀ f ∈ s.fab.ports[p].replay, f.sends < 8) → exec (.fabRetryExhaustion p) s = .next s) ∧
      (∃ t, exec (.fabPortDown p .signal) s = .next t ∧ t.fab.ports[p].pstate = 1 ∧ t.fab.ports[p].downCause = 1 ∧
        t.fab.ports[p].replay = [] ∧ t.fab.ports[p].outq = []) ∧
      (∃ t, exec (.fabPortDown p .watchdog) s = .next t ∧ t.fab.ports[p].pstate = 1 ∧ t.fab.ports[p].downCause = 2) ∧
      (∃ f, exec (.fabIdentSend p) s = .next (modPort s p.val (fun q => { q with
        wire := f :: q.wire
        owed := q.owed.map (fun n => n - min n 255)
        nakOwed := false
        ackOwed := false }))) ∧
      (s.inv.linkEn = true → ∃ t, exec (.timeFlitSend p) s = .next t ∧ t.fab.ports[p].tseq = s.fab.ports[p].tseq + 1 ∧
        t.fab.ports[p].txStamp = portStamp s p.val ∧ t.fab.ports[p].prevTxStamp = s.fab.ports[p].txStamp ∧
        t.fab.ports[p].txLine = timeLine s ∧ t.fab.ports[p].prevTxLine = s.fab.ports[p].txLine ∧
        t.fab.ports[p].wire.length = s.fab.ports[p].wire.length + 1 ∧ t.inv = s.inv) ∧
      (s.inv.linkEn = true → ∀ f,
        (ttOffset s s.fab.ports[p] f = none → exec (.timeFlitReceive p f) s = .next (modPort s p.val (fun q => { q with
          rxLast := portStamp s p.val
          rxLine := timeLine s
          rseq := f.tseq }))) ∧
        (∀ o, ttOffset s s.fab.ports[p] f = some o → ∃ t, exec (.timeFlitReceive p f) s = .next t ∧
          t.fab.ports[p].offset = some o ∧ t.fab.ports[p].offLine = timeLine s ∧ t.fab.ports[p].rxLine = timeLine s ∧
          t.fab.ports[p].rseq = f.tseq ∧ t.fab.ports[p].rxLast = portStamp s p.val ∧
          (s.inv.parent.toNat ≠ p.val → t.inv = s.inv) ∧
          (s.inv.parent.toNat = p.val → o.natAbs ≤ 1 → t.inv.slew = o ∧ t.inv.src.toNat = p.val ∧
            1 ≤ t.inv.depth.toNat ∧ t.inv.depth.toNat ≤ 254 ∧ t.inv.state = if t.inv.depth.toNat ≤ 7 then 3 else 2) ∧
          (s.inv.parent.toNat = p.val → 1 < o.natAbs → t.inv.src = s.inv.parent ∧ t.inv.depth = 0xFF ∧ t.inv.state = 1 ∧
            t.inv.slew = if o.natAbs < 1000000 then o else s.inv.slew)))) ∧
    (s.inv.linkEn = false → exec (.timeFlitSend p) s = .next s ∧ ∀ f, exec (.timeFlitReceive p f) s = .next s) ∧
    (portsOn s = true → s.fab.ports[p].mode = 1 →
      (s.fab.ports[p].pstate = 1 → s.fab.ports[p].retryAt = none → ∀ n,
        (4 ≤ n → exec (.fabSignalDetect p n) s = .next (modPort s p.val (fun q => { q with pstate := 2 }))) ∧
        (n < 4 → exec (.fabSignalDetect p n) s = .next s)) ∧
      (s.fab.ports[p].pstate = 2 → ∀ m, exec (.fabTrainStageEnd p (.passed m)) s =
        .next (modPort s p.val (fun q => { q with pstate := 3 }))) ∧
      (s.fab.ports[p].pstate = 3 → ∀ m, (alignLanes m ≠ 0 → ∃ t, exec (.fabTrainStageEnd p (.passed m)) s = .next t ∧
          t.fab.ports[p].pstate = 4 ∧ t.fab.ports[p].lanes = BitVec.ofNat 4 (alignLanes m)) ∧
        (alignLanes m = 0 → ∃ t, exec (.fabTrainStageEnd p (.passed m)) s = .next t ∧ t.fab.ports[p].pstate = 1 ∧
          t.fab.ports[p].retryAt = some (s.inv.clk + 1000000000))) ∧
      (s.fab.ports[p].pstate = 4 → ∀ m,
        (s.fab.ports[p].identIn = false → exec (.fabTrainStageEnd p (.passed m)) s = .next s) ∧
        (s.fab.ports[p].identIn = true → identOk s.fab.ports[p] p.val = true → ∃ t,
          exec (.fabTrainStageEnd p (.passed m)) s = .next t ∧
          t.fab.ports[p].pstate = (if s.fab.ports[p].raw then 6 else 5)) ∧
        (s.fab.ports[p].identIn = true → identOk s.fab.ports[p] p.val = false → ∃ t,
          exec (.fabTrainStageEnd p (.passed m)) s = .next t ∧ t.fab.ports[p].pstate = 7 ∧
          t.fab.ports[p].downCause = 4)) ∧
      (2 ≤ s.fab.ports[p].pstate.toNat → s.fab.ports[p].pstate.toNat ≤ 4 → ∃ t,
        exec (.fabTrainStageEnd p .budget) s = .next t ∧ t.fab.ports[p].pstate = 1 ∧
        t.fab.ports[p].train = satAdd s.fab.ports[p].train 1 ∧
        t.fab.ports[p].retryAt = some (s.inv.clk + 1000000000))) ∧
    (∀ t, s.fab.ports[p].retryAt = some t →
      (t.toNat ≤ clk s → exec (.fabTrainRetryTimer p) s = .next (modPort s p.val (fun q => { q with retryAt := none }))) ∧
      (clk s < t.toNat → exec (.fabTrainRetryTimer p) s = .next s)) ∧
    (s.fab.ports[p].mode = 1 → 4 ≤ s.fab.ports[p].pstate.toNat → s.fab.ports[p].pstate.toNat ≤ 6 → ∀ i : Ident,
      let q : Port := { s.fab.ports[p] with
        peerId := i.pkgId
        peerPort := i.port
        peerPart := i.part
        peerIncarn := i.incarn
        identIn := true }
      (s.fab.ports[p].pstate = 4 ∨ identOk q p.val = true → exec (.fabIdentReceive p i) s =
        .next (modPort s p.val (fun _ => q))) ∧
      (s.fab.ports[p].pstate ≠ 4 → identOk q p.val = false → ∃ t, exec (.fabIdentReceive p i) s = .next t ∧
        t.fab.ports[p].pstate = 7 ∧ t.fab.ports[p].downCause = 4)) ∧
    (∀ up, (portsOn s = true → s.fab.ports[p].mode = 2 → s.fab.ports[p].ethUp ≠ up → loopRuns s p.val = false → ∃ t,
        exec (.ethPortLinkChange p up) s = .next t ∧ t.fab.ports[p].ethUp = up ∧
        t.fab.ports[p].pstate = (if up then 5 else 1) ∧ t.mem = s.mem) ∧
      (s.fab.ports[p].mode ≠ 2 ∨ s.fab.ports[p].ethUp = up ∨ loopRuns s p.val = true → exec (.ethPortLinkChange p up) s = .next s))

/-- A request that cannot arrive on the port changes nothing. One for another package is forwarded with TTL less 1, or
dropped and counted; none goes on with TTL 0, nor one of class TWIN (log entry 63). One for this package with a wrong
ECRC is counted only; of a flow without state and without SYN it is answered DIE_LOST; executed before, a WRITE is
answered again without being executed; from a package that is no valid peer it is DENIED, which COB_CNT_DENIED does
not count (log entry 66); else a WRITE does its write. A BUSY answer is kept 20 us, another ends the transaction and
reaches its requester. After those 20 us the request goes with a new SEQ; an unanswered one puts its flow into E2E; in
E2E it goes again with E2E set, and after its tries it ends with DIE_LOST. A quiet flow returns to SERVICE. Packets
held over 1 ms of which nothing has left are dropped and counted, and a multicast goes on along its line, whatever
FAB_FWD_EN says, and is delivered (log entry 64). A discovery or echo frame is answered, a pause is taken, a negative
acknowledgement sends the packets of its transfer again, another frame is counted (log entries 6 and 69), and one of
more than 9,216 B not taken. (12_fabric.md: Networks and routing, 12_fabric.md: Transactions, flows and sequence
numbers, 12_fabric.md: Line multicast, 12_fabric.md: Ethernet mode on P0–P3.) -/
def Obligations.FabricPacketsAreServedAnsweredAndSentAgain : Prop :=
  ∀ (s : State) (p : Fin 24) (k : Pkt),
    (arrives s p k = false → exec (.fabRequestArrival p k) s = .next s ∧ exec (.fabResponseArrival p k) s = .next s ∧
      exec (.fabMulticast p k) s = .next s) ∧
    (arrives s p k = true → k.vn = false → k.mc = false →
      (s.pkgId = 0xFFFF → k.cls ≠ 3 → exec (.fabRequestArrival p k) s = .next (dropNoRoute (takePkt s p k))) ∧
      (s.pkgId ≠ 0xFFFF → k.dst ≠ s.pkgId →
        (s.fab.fwdEn = false ∨ k.ttl.toNat ≤ 1 ∨ k.cls = 3 ∨ routePort s k.dst.toNat = none →
          exec (.fabRequestArrival p k) s = .next (dropNoRoute (takePkt s p k))) ∧
        (∀ q, s.fab.fwdEn = true → 2 ≤ k.ttl.toNat → k.cls ≠ 3 → routePort s k.dst.toNat = some q →
          exec (.fabRequestArrival p k) s = .next (queueAt (takePkt s p k) q
            (passOn p { k with ttl := k.ttl - 1 } (arrived s p k).at_)))) ∧
      (s.pkgId ≠ 0xFFFF → k.dst = s.pkgId → pktEcrc k ≠ k.ecrc → ∃ t, exec (.fabRequestArrival p k) s = .next t ∧
        t.fab.cntEcrc = satAdd s.fab.cntEcrc 1 ∧ t.mem = s.mem ∧ t.fab.recvs = s.fab.recvs) ∧
      (s.pkgId ≠ 0xFFFF → k.dst = s.pkgId → pktEcrc k = k.ecrc → requestOk p.val k = false → ∃ t,
        exec (.fabRequestArrival p k) s = .next t ∧ t.fab.cntBad = satAdd s.fab.cntBad 1 ∧ t.mem = s.mem ∧
        t.fab.recvs = s.fab.recvs) ∧
      (s.pkgId ≠ 0xFFFF → k.dst = s.pkgId → pktEcrc k = k.ecrc → requestOk p.val k = true →
        (recvFlow s k = none → k.syn = false → exec (.fabRequestArrival p k) s =
          .next (sendRsp (takePkt s p k) k (if k.cls = 0 ∧ k.op = 0 then 8 else 9) .dieLost [])) ∧
        (∀ f st v, flowGate s k = .again f st v → k.cls = 0 → k.op ≠ 0 → ∃ t, exec (.fabRequestArrival p k) s = .next t ∧
          t.mem = s.mem ∧ t.poison = s.poison ∧ t.sync = s.sync ∧ t.fab.cntDup = satAdd s.fab.cntDup 1) ∧
        (∀ f, flowGate s k = .run f → peerSlot s k.src = none → exec (.fabRequestArrival p k) s = .next
          (sendRsp (markSeen (putRecv (takePkt s p k) f) k .denied 0) k (if k.cls = 0 ∧ k.op = 0 then 8 else 9) .denied
            (if k.cls = 0 ∧ k.op = 2 then leBytes 8 0 else []))) ∧
        (∀ f slot, flowGate s k = .run f → peerSlot s k.src = some slot → k.cls = 0 → k.op = 1 →
          (place k.addr.toNat).isMem = true → pageShape k.addr.toNat k.plen.toNat = true →
          k.payload.length = k.plen.toNat → spaceStatus s (0x8000 + slot) k.addr.toNat k.plen.toNat .w = .done →
          touchesStopped s k.addr.toNat k.plen.toNat = false → trainHolds s (0x8000 + slot) k.addr.toNat k.plen.toNat = false →
          DrainsEmpty s → s.ckpt.capture = none → s.poison = [] → ∃ t,
          exec (.fabRequestArrival p k) s = .next t ∧
          rdBytes t k.addr.toNat k.plen.toNat = k.payload))) ∧
    (arrives s p k = true → k.vn = true → s.pkgId ≠ 0xFFFF → k.dst = s.pkgId → pktEcrc k = k.ecrc → k.op = 9 →
      k.cls.toNat ≤ 3 →
      (txnOf s k = none → exec (.fabResponseArrival p k) s = .next (takePkt s p k)) ∧
      (∀ t, txnOf s k = some t → t.pkt.mc = false →
        (k.status.toNat = statusCode .busy → exec (.fabResponseArrival p k) s =
          .next (launchWaiting (modTxn (touchFlow (takePkt s p k) t.pkt.dst) t.tag
            (fun x => { x with busyAt := some (s.inv.clk + 20000) })))) ∧
        (k.status.toNat ≠ statusCode .busy → exec (.fabResponseArrival p k) s =
          .next (answerTxn (launchWaiting (endTxn (touchFlow (takePkt s p k) t.pkt.dst) t.tag)) t.what
            (statusOf k.status.toNat) k.payload)))) ∧
    (∀ tag t, txnAt s tag = some t → iodOn s = true → t.pkt.mc = false →
      (t.busyAt = none → exec (.fabBusyResend tag) s = .next s) ∧
      (∀ due, t.busyAt = some due → (clk s < due.toNat → exec (.fabBusyResend tag) s = .next s) ∧
        (due.toNat ≤ clk s → exec (.fabBusyResend tag) s = .next (launchWaiting (sendReq (endTxn s tag)
          (mkReq t.pkt.dst t.pkt.cls.toNat t.pkt.op.toNat t.pkt.addr.toNat t.pkt.plen.toNat t.pkt.payload) t.what)))) ∧
      (flowE2e s (sendFlow s t.pkt.dst) = false → t.busyAt = none → t.sent.toNat + s.fab.toService.toNat * 1000 ≤ clk s →
        ∃ u, exec (.fabServiceTimeout tag) s = .next u ∧
        (∀ f ∈ u.fab.sends, f.dst = t.pkt.dst → f.e2e = true) ∧ (∃ f ∈ u.fab.sends, f.dst = t.pkt.dst) ∧ u.mem = s.mem) ∧
      (clk s < t.sent.toNat + s.fab.toService.toNat * 1000 → exec (.fabServiceTimeout tag) s = .next s) ∧
      (flowE2e s (sendFlow s t.pkt.dst) = true → t.busyAt = none → t.sent.toNat + backoffNs s t.resends ≤ clk s →
        (s.fab.tries.toNat ≤ t.resends → exec (.fabE2eResend tag) s = .next (finishTxn
          { s with fab := { s.fab with cntUnreach := satAdd s.fab.cntUnreach 1 } } t .dieLost [])) ∧
        (t.resends < s.fab.tries.toNat → ∃ u, exec (.fabE2eResend tag) s = .next u ∧
          txnAt u tag = some { t with
            pkt := sealPkt { t.pkt with
              e2e := true
              cum := flowCum s (sendFlow s t.pkt.dst) }
            sent := s.inv.clk
            resends := t.resends + 1 } ∧ u.fab.cntResend = satAdd s.fab.cntResend 1 ∧ u.mem = s.mem))) ∧
    (∀ dst f, s.fab.sends.find? (fun g => g.dst == dst) = some f →
      (f.e2e = true → s.fab.e2eAll = false → bit (routeEntry s dst.toNat) 30 = false →
        f.lastActive.toNat + 10000000 ≤ clk s → exec (.fabE2eQuiet dst) s = .next { s with fab := { s.fab with
          sends := s.fab.sends.map (fun g => if g.dst = dst then { g with e2e := false } else g) } }) ∧
      (clk s < f.lastActive.toNat + 10000000 → exec (.fabE2eQuiet dst) s = .next s)) ∧
    (∃ t, exec (.fabHoldTimeout p) s = .next t ∧
      let old := fun (cls : BitVec 4) (at_ : W64) => cls != 3 && decide (at_.toNat + 1000000 < clk s)
      let outOld := fun (o : OutPkt) => o.sent == 0 && old o.pkt.cls o.since
      let inOld := fun (e : InPkt) => e.port == p && old e.pkt.cls e.at_
      t.fab.ports[p].outq = s.fab.ports[p].outq.filter (fun o => !outOld o) ∧
      t.fab.inbox = s.fab.inbox.filter (fun e => !inOld e) ∧
      t.fab.cntNoroute = satAdd s.fab.cntNoroute ((s.fab.ports[p].outq.filter outOld).length + (s.fab.inbox.filter inOld).length) ∧
      t = { s with fab := { s.fab with
        ports := t.fab.ports
        inbox := t.fab.inbox
        cntNoroute := t.fab.cntNoroute } } ∧ ∀ q : Fin 24, q ≠ p → t.fab.ports[q] = s.fab.ports[q]) ∧
    (arrives s p k = true → k.vn = false → k.mc = true → s.pkgId ≠ 0xFFFF →
      let e := arrived s p k
      let last : Pkt := { k with mcHops := 1 }
      let s1 : State := { s with fab := { s.fab with
        inbox := s.fab.inbox.map (fun x => if x = e then { e with pkt := last } else x) } }
      let u := forwardLine s1 p k e.at_
      exec (.fabMulticast p k) s = .next (deliver u (takePkt u p last) p last) ∧
      (k.mcHops.toNat ≤ 1 → u = s1) ∧
      (2 ≤ k.mcHops.toNat → k.ttl.toNat ≤ 1 → u = dropNoRoute s1) ∧
      (2 ≤ k.mcHops.toNat → 2 ≤ k.ttl.toNat → ∀ q : Fin 24, q.val < 22 → s.fab.ports[p].lineNext.toNat = q.val →
        s.fab.ports[q].carries = true → u = queueAt s1 q.val (passOn p { k with
          ttl := k.ttl - 1
          mcHops := k.mcHops - 1 } e.at_))) ∧
    (portsOn s = false ∨ s.fab.ports[p].mode ≠ 2 ∨ s.fab.ports[p].ethUp = false →
      ∀ f, exec (.ethFrameReceive p f) s = .next s) ∧
    (portsOn s = true → s.fab.ports[p].mode = 2 → s.fab.ports[p].ethUp = true →
      let seen := fun n => modPort s p.val (fun q => { q with
        rxPkts := satAdd q.rxPkts 1
        rxBytes := satAdd q.rxBytes n })
      (∀ src, exec (.ethFrameReceive p (.neighbourSolicit src (portIp s.fab.ports[p]))) s = .next (sendFrame (seen 0) p.val
        ((leBytes 16 (portIp s.fab.ports[p]).toNat).reverse ++ portMac s.fab.ports[p]) 0)) ∧
      (∀ f, frameFits f = false → exec (.ethFrameReceive p f) s = .next s) ∧
      (∀ src d, d.length + 66 ≤ 9216 →
        exec (.ethFrameReceive p (.echoRequest src d)) s = .next (sendFrame (seen d.length) p.val d d.length)) ∧
      (∀ lqpn psn, ethXfers (seen 0) p.val lqpn false = [] → exec (.ethFrameReceive p (.rdmaAck lqpn psn)) s = .next (seen 0)) ∧
      (∀ lqpn psn, ethXfers (seen 0) p.val lqpn false = [] → ethXfers (seen 0) p.val lqpn true = [] →
        exec (.ethFrameReceive p (.rdmaNak lqpn psn)) s = .next (seen 0)) ∧
      (∀ lqpn psn x, ethXfers (seen 0) p.val lqpn false = [x] → ethXfers (seen 0) p.val lqpn true = [] → x.psn = psn.toNat →
        exec (.ethFrameReceive p (.rdmaNak lqpn psn)) s =
          .next (x.frames.foldl (fun u f => sendRoce u p.val f.1 f.2) (seen 0))) ∧
      (∀ n, s.fab.ports[p].ethWait = [] → exec (.ethFrameReceive p (.pause n)) s =
        .next (modPort (seen 0) p.val (fun q => { q with ethPause := s.inv.clk + pauseNs q n }))) ∧
      (∀ d, d.length ≤ 9216 → exec (.ethFrameReceive p (.other d)) s = .next (seen d.length)))

/-- A write is refused in the order address, fenced die, access table, access code and value, state, changes no
register and records its status. Else, by register: PKG_ID is BUSY before stage 7 and otherwise raises INCARN and
empties the flows, and a first valid ID registers the package; FT_CTL and FT_TICK, GUARD_TABLE_BASE, UPD_REFRESH_CFG,
EX_LAYOUT_ID, MEM_COW, MEM_ACCT_PROG, MEM_SCRUB, BAR_MASK, FAB_CTL and the route table base, FAB_Pn_CFG,
SYNC_TABLE_BASE, CMD_CTL, TWIN_CTL, COB_ACC_SEL, PWR_WAKE and PWR_THERM_CFG are BAD_PARAM on a value out of range,
BUSY in a state that holds them off, and otherwise take the value; the rows that name an offset complete as a write of
that register. A credential record is refused with its cause or installed, and its sessions end; a debug token
unlocks, or a new challenge is drawn. A read-only register answers DENIED. Where the row's status goes (lastStatus) is
the model's own (log entry 2), as is that a port in FAULT keeps its state at a write of FAB_RAW alone (log entry 23).
(20_register_index.md: Access rules common to every block, 02_fabric_time.md: Invar registers, 10_stack_memory.md:
Memory registers, 12_fabric.md: Registers, 13_sync.md: Sync register block, 14_command_protocol.md: Command register
block, 16_security.md: Security block, 17_power.md: Power block, 18_boot.md: Registration.) -/
def Obligations.RegisterWritesAreCheckedAndTakeEffect : Prop :=
  ∀ (s0 : State) (mid : W16) (v : W64),
    let via := fun b o => meshTrip s0 mid.toNat (ctrlAddr b o) 8 true
    let lost := fun b o => placeLost s0 (masterDie mid.toNat) (.ctrl b o)
    let admits := fun b o => tableAdmits s0 (Place.ctrl b o).target mid.toNat (Place.ctrl b o).compared .w
    let ready := fun b o => placeUp s0 (.ctrl b o) = true ∧ placeStopped s0 (.ctrl b o) = false
    let ok := fun b o => lost b o = false ∧ admits b o = true ∧ ready b o
    let only := fun (s : State) (st : Status) => (.next { s with lastStatus := st } : Host.Outcome State Fault Refusal)
    (∀ addr : W64, ∀ n, (∀ b o, place addr.toNat ≠ .ctrl b o) ∨ n ≠ 8 ∨ addr.toNat % 8 ≠ 0 →
      exec (.registerWrite mid addr n v) s0 = only s0 .badParam) ∧
    (∀ b o, listedBlock b = true → o % 8 = 0 → o < 65536 →
      let run := exec (.registerWrite mid (BitVec.ofNat 64 (ctrlAddr b o)) 8 v) s0
      let w := writeReg (via b o) b o v.toNat
      (lost b o = true → run = only s0 .dieLost) ∧
      (lost b o = false → admits b o = false → run = .next { countDenied s0 with lastStatus := .denied }) ∧
      (lost b o = false → admits b o = true → w.2 ≠ .done → run = .next { w.1 with lastStatus := w.2 }) ∧
      (lost b o = false → admits b o = true → w.2 = .done → ¬ ready b o → run = only s0 .busy) ∧
      (ok b o → run = .next { w.1 with lastStatus := w.2 })) ∧
    (ok 0x00 0x10 → let s := via 0x00 0x10; exec (.registerWrite mid (BitVec.ofNat 64 (ctrlAddr 0x00 0x10)) 8 v) s0 = only s .denied) ∧
    (ok 0x00 0x08 → let s := via 0x00 0x08;
      (s.boot.stage.toNat < 7 ∨ s.fab.txns ≠ [] ∨ clk s < s.fab.incarnAt.toNat + 100000000 →
        exec (.pkgIdWrite mid v) s0 = only s .busy) ∧
      (7 ≤ s.boot.stage.toNat → s.boot.stage.toNat ≤ 9 → s.fab.txns = [] → s.fab.waitq = [] →
        s.fab.incarnAt.toNat + 100000000 ≤ clk s → ∃ t, exec (.pkgIdWrite mid v) s0 = .next t ∧ t.lastStatus = .done ∧
        t.pkgId.toNat = v.toNat % 65536 ∧ t.fab.incarn = s.fab.incarn + 1 ∧ t.fab.recvs = [] ∧ t.mem = s.mem ∧
        (s.boot.stage = 9 ∨ v.toNat % 65536 = 0xFFFF → t.boot = s.boot ∧ t.fab.sends = []) ∧
        (s.boot.stage ≠ 9 → v.toNat % 65536 ≠ 0xFFFF → t.boot.stage = 9 ∧ t.boot.complete = true))) ∧
    (ok 0x04 0x10 → let s := via 0x04 0x10; let p := bits v.toNat 15 8
      (parentOk p = false → exec (.ftCtlWrite mid v) s0 = only s .badParam) ∧
      (parentOk p = true → s.inv.parent.toNat = p → exec (.ftCtlWrite mid v) s0 = .next { s with
        inv := { s.inv with
          timeinEn := bit v.toNat 2
          en1588 := bit v.toNat 1
          linkEn := bit v.toNat 0 }
        lastStatus := .done }) ∧
      (parentOk p = true → s.inv.parent.toNat ≠ p → ∃ t, exec (.ftCtlWrite mid v) s0 = .next t ∧ t.lastStatus = .done ∧
        t.inv.parent.toNat = p ∧ t.inv.linkEn = bit v.toNat 0 ∧ t.inv.ft = s.inv.ft ∧
        t.inv.state = (if p = 0xFF then 0 else 1))) ∧
    (ok 0x04 0x18 → let s := via 0x04 0x18; let n := v.toNat % 2 ^ 32
      (n < 250 ∨ 1000000000 % n ≠ 0 → exec (.ftTickWrite mid v) s0 = only s .badParam) ∧
      (250 ≤ n → 1000000000 % n = 0 → s.cmd.schedule ≠ [] → exec (.ftTickWrite mid v) s0 = only s .busy) ∧
      (250 ≤ n → 1000000000 % n = 0 → s.cmd.schedule = [] → exec (.ftTickWrite mid v) s0 = .next { s with
        inv := { s.inv with tickNs := BitVec.ofNat 32 n }
        lastStatus := .done })) ∧
    (ok 0x08 0x00 → let s := via 0x08 0x00; let a := addrField v.toNat 19
      (linearEnd < a + 0x80000 → exec (.guardRegWrite mid 0x00 v) s0 = only s .badParam) ∧
      (a + 0x80000 ≤ linearEnd → s.memblk.stepOn = true → exec (.guardRegWrite mid 0x00 v) s0 = only s .busy) ∧
      (a + 0x80000 ≤ linearEnd → s.memblk.stepOn = false → exec (.guardRegWrite mid 0x00 v) s0 = .next { s with
        guard := { s.guard with
          tableBase := BitVec.ofNat 64 a
          en := bit v.toNat 0 }
        lastStatus := .done })) ∧
    (ok 0x0C 0x20 → let s := via 0x0C 0x20;
      (32 < v.toNat % 64 → exec (.updRegWrite mid 0x20 v) s0 = only s .badParam) ∧
      (v.toNat % 64 ≤ 32 → updHeld s = true → exec (.updRegWrite mid 0x20 v) s0 = only s .busy) ∧
      (v.toNat % 64 ≤ 32 → updHeld s = false → exec (.updRegWrite mid 0x20 v) s0 = .next { s with
        upd := { s.upd with refreshClusters := BitVec.ofNat 6 v.toNat }
        lastStatus := .done })) ∧
    (ok 0x10 0x08 → let s := via 0x10 0x08;
      (s.exch.ops ≠ [] ∨ s.exch.early ≠ [] → exec (.exRegWrite mid 0x08 v) s0 = only s .busy) ∧
      (s.exch.ops = [] → s.exch.early = [] → exec (.exRegWrite mid 0x08 v) s0 = .next { s with
        exch := { s.exch with layout := BitVec.ofNat 32 v.toNat }
        lastStatus := .done })) ∧
    (∀ off : W16, off.toNat % 8 = 0 →
      let done := fun (b : Nat) => let w := writeReg (via b off.toNat) b off.toNat v.toNat
        (.next { w.1 with lastStatus := w.2 } : Host.Outcome State Fault Refusal)
      (ok 0x08 off.toNat → let s := via 0x08 off.toNat; exec (.guardRegWrite mid off v) s0 = done 0x08) ∧
      (ok 0x0C off.toNat → let s := via 0x0C off.toNat; exec (.updRegWrite mid off v) s0 = done 0x0C) ∧
      (ok 0x10 off.toNat → let s := via 0x10 off.toNat; exec (.exRegWrite mid off v) s0 = done 0x10) ∧
      (ok 0x1C off.toNat → let s := via 0x1C off.toNat; exec (.fabCtlWrite mid off v) s0 = done 0x1C) ∧
      (ok 0x3C off.toNat → let s := via 0x3C off.toNat; exec (.cmdCtlWrite mid off v) s0 = done 0x3C) ∧
      (ok 0x40 off.toNat → let s := via 0x40 off.toNat; exec (.twinRegWrite mid off v) s0 = done 0x40)) ∧
    (∀ k : Fin 4, ok (0x100 * (k.val + 1) + 0x40) 0x40 → let s := via (0x100 * (k.val + 1) + 0x40) 0x40;
      let n := (v.toNat % 2 ^ 32) * 0x10000
      let a := s.dies[k].cowBase.toNat
      let fits := n = 0 ∨ (viewBase + k.val * viewStride ≤ a ∧ a + n ≤ viewBase + k.val * viewStride + 0x5FF0000000)
      (¬ fits → exec (.memCowWrite mid k 0x40 v) s0 = only s .badParam) ∧
      (fits → s.ckpt.capture.isSome = true → exec (.memCowWrite mid k 0x40 v) s0 = only s .busy) ∧
      (fits → s.ckpt.capture = none → exec (.memCowWrite mid k 0x40 v) s0 =
        .next { modDie s k.val (fun d => { d with cowSize := BitVec.ofNat 32 v.toNat }) with lastStatus := .done })) ∧
    (∀ k : Fin 4, ok (0x100 * (k.val + 1) + 0x40) 0x38 → let s := via (0x100 * (k.val + 1) + 0x40) 0x38;
      let n := s.dies[k].cowSize.toNat * 0x10000
      let a := addrField v.toNat 16
      let fits := viewBase + k.val * viewStride ≤ a ∧ a + n ≤ viewBase + k.val * viewStride + 0x5FF0000000
      (¬ fits → exec (.memCowWrite mid k 0x38 v) s0 = only s .badParam) ∧
      (fits → s.ckpt.capture.isSome = true → exec (.memCowWrite mid k 0x38 v) s0 = only s .busy) ∧
      (fits → s.ckpt.capture = none → exec (.memCowWrite mid k 0x38 v) s0 =
        .next { modDie s k.val (fun d => { d with cowBase := BitVec.ofNat 64 a }) with lastStatus := .done })) ∧
    (∀ k off, off ≠ 0x38 → off ≠ 0x40 → exec (.memCowWrite mid k off v) s0 = .next s0) ∧
    (∀ k : Fin 4, ok (0x100 * (k.val + 1) + 0x40) 0x20 → let s := via (0x100 * (k.val + 1) + 0x40) 0x20; exec (.memAcctProgWrite mid k v) s0 =
      .next { modDie s k.val (fun d => { d with acctProg := v }) with lastStatus := .done }) ∧
    (∀ k : Fin 4, ok (0x100 * (k.val + 1) + 0x40) 0x48 → let s := via (0x100 * (k.val + 1) + 0x40) 0x48;
      (168 < v.toNat % 256 → exec (.memScrubWrite mid k v) s0 = only s .badParam) ∧
      (v.toNat % 256 ≤ 168 → exec (.memScrubWrite mid k v) s0 =
        .next { modDie s k.val (fun d => { d with scrubHours := BitVec.ofNat 8 v.toNat }) with lastStatus := .done })) ∧
    (∀ (k : Fin 4) (ch w : Fin 16), ok (0x100 * (k.val + 1) + 0x50) (0x100 + 0x80 * ch.val + 8 * w.val) → let s := via (0x100 * (k.val + 1) + 0x50) (0x100 + 0x80 * ch.val + 8 * w.val);
      (s.sync.barriers[ch].arrived ≠ [] → exec (.barMaskWrite mid k ch w v) s0 = only s .busy) ∧
      (s.sync.barriers[ch].arrived = [] → ∃ t, exec (.barMaskWrite mid k ch w v) s0 = .next t ∧ t.lastStatus = .done ∧
        lookD t.dies[k].barMask (16 * ch.val + w.val) 0 = v ∧
        (∀ i, i ≠ 16 * ch.val + w.val → look t.dies[k].barMask i = look s.dies[k].barMask i) ∧
        t.dies[k] = { s.dies[k] with barMask := t.dies[k].barMask } ∧ (∀ j : Fin 4, j ≠ k → t.dies[j] = s.dies[j]))) ∧
    (ok 0x1C 0x08 → let s := via 0x1C 0x08; bit v.toNat 2 = false ∨ s.fab.e2eAll = true → exec (.fabCtlWrite mid 0x08 v) s0 = .next { s with
      fab := { s.fab with
        en := bit v.toNat 0
        fwdEn := bit v.toNat 1
        e2eAll := bit v.toNat 2 }
      lastStatus := .done }) ∧
    (ok 0x1C 0x10 → let s := via 0x1C 0x10; let a := addrField v.toNat 12
      (linearEnd < a + 0x40000 → exec (.fabCtlWrite mid 0x10 v) s0 = only s .badParam) ∧
      (a + 0x40000 ≤ linearEnd → s.fab.en = true → exec (.fabCtlWrite mid 0x10 v) s0 = only s .busy) ∧
      (a + 0x40000 ≤ linearEnd → s.fab.en = false → exec (.fabCtlWrite mid 0x10 v) s0 = .next { s with
        fab := { s.fab with routeBase := BitVec.ofNat 64 a }
        lastStatus := .done })) ∧
    (∀ p : Fin 24, ok (0x20 + p.val) 0x00 → let s := via (0x20 + p.val) 0x00;
      (bits v.toNat 1 0 = 3 ∨ (bits v.toNat 1 0 = 2 ∧ 4 ≤ p.val) → exec (.fabPortCfgWrite mid p v) s0 = only s .badParam) ∧
      (bits v.toNat 1 0 ≤ 1 → bits v.toNat 3 2 ≤ 1 → bits v.toNat 23 16 < 24 → ∃ t,
        exec (.fabPortCfgWrite mid p v) s0 = .next t ∧ t.lastStatus = .done ∧
        t.fab.ports[p].mode.toNat = bits v.toNat 1 0 ∧ t.fab.ports[p].lineNext.toNat = bits v.toNat 23 16 ∧
        t.fab.ports[p].raw = bit v.toNat 5 ∧ t.fab.ports[p].dateline = bit v.toNat 8 ∧
        (s.fab.ports[p].mode.toNat = bits v.toNat 1 0 → s.fab.ports[p].raw = bit v.toNat 5 ∨ s.fab.ports[p].pstate = 7 →
          t.fab.ports[p].pstate = s.fab.ports[p].pstate ∧ t.fab.ports[p].replay = s.fab.ports[p].replay) ∧
        (s.fab.ports[p].mode.toNat ≠ bits v.toNat 1 0 ∨ s.fab.ports[p].raw ≠ bit v.toNat 5 ∧ s.fab.ports[p].pstate ≠ 7 →
          t.fab.ports[p].pstate.toNat = bits v.toNat 1 0 ∧ t.fab.ports[p].downCause = 6 ∧ t.fab.ports[p].replay = []))) ∧
    (ok 0x38 0x08 → let s := via 0x38 0x08; let a := addrField v.toNat 20
      (linearEnd < a + 0x100000 → exec (.syncTableBaseWrite mid v) s0 = only s .badParam) ∧
      (a + 0x100000 ≤ linearEnd → s.sync.index ≠ [] → exec (.syncTableBaseWrite mid v) s0 = only s .busy) ∧
      (a + 0x100000 ≤ linearEnd → s.sync.index = [] → exec (.syncTableBaseWrite mid v) s0 = .next { s with
        sync := { s.sync with tableBase := BitVec.ofNat 64 a }
        lastStatus := .done })) ∧
    (ok 0x3C 0x08 → let s := via 0x3C 0x08; let n := v.toNat % 2 ^ 32
      (bits v.toNat 47 32 = 0 ∨ n < 2000 ∨ 1000000 < n → exec (.cmdCtlWrite mid 0x08 v) s0 = only s .badParam) ∧
      (bits v.toNat 47 32 ≠ 0 → 2000 ≤ n → n ≤ 1000000 → exec (.cmdCtlWrite mid 0x08 v) s0 = .next { s with
        cmd := { s.cmd with
          udpPort := BitVec.ofNat 16 (bits v.toNat 63 48)
          progressMs := BitVec.ofNat 16 (bits v.toNat 47 32)
          sliceNs := BitVec.ofNat 32 n }
        lastStatus := .done })) ∧
    (ok 0x40 0x08 → let s := via 0x40 0x08;
      (bits v.toNat 31 16 = 0 ∨ v.toNat % 65536 < 200 → exec (.twinRegWrite mid 0x08 v) s0 = only s .badParam) ∧
      (bits v.toNat 31 16 ≠ 0 → 200 ≤ v.toNat % 65536 → exec (.twinRegWrite mid 0x08 v) s0 = .next { s with
        twin := { s.twin with
          digestToMs := BitVec.ofNat 16 (bits v.toNat 31 16)
          hbLimitUs := BitVec.ofNat 16 v.toNat }
        lastStatus := .done })) ∧
    (ok 0x48 0x08 → let s := via 0x48 0x08; let a := v.toNat % 2 ^ 48
      let r := rdBytes s a 7267
      (linearEnd < a + 7267 → exec (.cobCredInstall mid v) s0 = only s .badParam) ∧
      (a + 7267 ≤ linearEnd → recordCause s r true ≠ 1 → exec (.cobCredInstall mid v) s0 = .next { s with
        cob := { s.cob with credLast := BitVec.ofNat 8 (recordCause s r true) }
        lastStatus := .done }) ∧
      (a + 7267 ≤ linearEnd → recordCause s r true = 1 → ∃ t, exec (.cobCredInstall mid v) s0 = .next t ∧
        t.cob.credLast = 1 ∧ t.lastStatus = .done ∧
        look t.cob.ordinals (leAt r 4 1) = some (BitVec.ofNat 64 (leAt r 8 8)) ∧
        ((slice r 48 2592).all (· == 0) = true → look t.cob.creds (leAt r 4 1) = none) ∧
        ((slice r 48 2592).all (· == 0) = false → ∃ c, look t.cob.creds (leAt r 4 1) = some c ∧
          c.pubkey = slice r 48 2592 ∧ c.role = BitVec.ofNat 8 (leAt r 5 1)) ∧
        (∀ j, j ≠ leAt r 4 1 → look t.cob.creds j = look s.cob.creds j) ∧
        ∀ i, i < 4 → look t.cmd.sessions (4 * leAt r 4 1 + i) = none)) ∧
    (ok 0x48 0x20 → let s := via 0x48 0x20; let a := v.toNat % 2 ^ 48
      (linearEnd < a + 4675 → exec (.cobDebugUnlock mid v) s0 = only s .badParam) ∧
      (a + 4675 ≤ linearEnd → tokenOk s (rdBytes s a 4675) = false → ∃ c, exec (.cobDebugUnlock mid v) s0 = .next { s with
        cob := { s.cob with chal := c }
        fresh := s.fresh + 1
        lastStatus := .done }) ∧
      (a + 4675 ≤ linearEnd → tokenOk s (rdBytes s a 4675) = true → ∃ t, exec (.cobDebugUnlock mid v) s0 = .next t ∧
        t.cob.debug = true ∧ t.lastStatus = .done ∧ ∀ i, i < 64 → look t.cmd.sessions i = none)) ∧
    (ok 0x48 0xFF8 → let s := via 0x48 0xFF8;
      (validTarget (v.toNat % 65536) = false → exec (.cobAccSelWrite mid v) s0 = only s .badParam) ∧
      (validTarget (v.toNat % 65536) = true → exec (.cobAccSelWrite mid v) s0 = .next { s with
        cob := { s.cob with accSel := BitVec.ofNat 16 v.toNat }
        lastStatus := .done })) ∧
    (ok 0x4C 0x20 → let s := via 0x4C 0x20; exec (.pwrWakeWrite mid 0x20 v) s0 = .next { s with
      power := { s.power with
        wakeFt := v
        wakeArmed := decide (now s < v.toNat) }
      lastStatus := .done }) ∧
    (ok 0x4C 0x18 → let s := via 0x4C 0x18; s.power.buffer = [] → exec (.pwrWakeWrite mid 0x18 v) s0 = .next { s with
      power := { s.power with wakeCfg := BitVec.ofNat 64 (v.toNat &&& 0xFFFFFF1D) }
      lastStatus := .done }) ∧
    (ok 0x4C 0x30 → let s := via 0x4C 0x30;
      (bits v.toNat 15 8 < 60 ∨ 100 < bits v.toNat 15 8 → exec (.pwrThermCfgWrite mid v) s0 = only s .badParam) ∧
      (60 ≤ bits v.toNat 15 8 → bits v.toNat 15 8 ≤ 100 → ∃ t, exec (.pwrThermCfgWrite mid v) s0 = .next t ∧
        t.power = { s.power with thermWarn := BitVec.ofNat 8 (bits v.toNat 15 8) } ∧ t.lastStatus = .done ∧ t.mem = s.mem))

/-- With PWR_EN low none of them acts. BLOCK_READ answers the registers of an allowed block; STATUS answers result,
BOOT_STAGE and lifecycle. CRED_DATA fills the buffer and CRED_COMMIT installs a slot-0 root record, in UNOWNED only.
IMG_BEGIN, IMG_DATA and IMG_END act in RECOVERY only: a valid image restarts the package from stage 2, an invalid one
sets result 3. The CCCs set the address and the in-band interrupts (log entry 70), and an operation byte that the list
does not hold sets result 2 (log entry 89: it comes as an operand of I3C_CCC). Update-IR loads the code, or BYPASS
where RESET_N or the lifecycle does not allow it; an EXTEST-class one takes the lands. A scan shifts IDCODE, BYPASS, a
token, or the 785 cells of the boundary-scan chain, which captures PWR_EN high and ALERT_N low while asserted (log
entries 3 and 71). A debug token acts under DEBUG_TOKEN only, and draws a new challenge at each attempt; a
failure-analysis token blows the RMA fuse. TRST_N resets the TAP alone. A management port takes its link.
(19_pins_electrical.md: Control, time and I3C signals, 19_pins_electrical.md: Test access, 16_security.md: Debug,
16_security.md: Credentials and ownership, 18_boot.md: Image selection.) -/
def Obligations.BoardInterfacesReadInstallAndScan : Prop :=
  ∀ (s : State),
    (s.tap.pwrEn = false → (∀ b o n, exec (.i3cBlockRead b o n) s = .next s) ∧ exec .i3cStatus s = .next s ∧
      (∀ o d, exec (.i3cCredData o d) s = .next s) ∧ exec .i3cCredCommit s = .next s ∧
      (∀ b, exec (.i3cImgBegin b) s = .next s) ∧ (∀ o d, exec (.i3cImgData o d) s = .next s) ∧
      (∀ n, exec (.i3cImgEnd n) s = .next s) ∧ (∀ c, exec (.i3cCcc c) s = .next s) ∧
      (∀ c, exec (.tapInstructionUpdate c) s = .next s) ∧ (∀ d, exec (.tapDrUpdate d) s = .next s) ∧
      (∀ m up, exec (.mgtLinkChange m up) s = .next s)) ∧
    (s.tap.pwrEn = true →
      let ends := fun (u : State) (r : Byte) (d : List Byte) => (.next { u with i3c := { u.i3c with
        result := r
        readData := d } } : Host.Outcome State Fault Refusal)
      (∀ b o : W16, ∀ n : Byte, b.toNat = 0 ∨ b.toNat = 0x4C ∨ b.toNat = 0x50 → o.toNat % 8 = 0 → 1 ≤ n.toNat →
        n.toNat ≤ 32 → o.toNat + 8 * n.toNat ≤ 65536 → exec (.i3cBlockRead b o n) s = ends s 0
          ((List.range n.toNat).flatMap (fun i => leBytes 8 (regRead s b.toNat (o.toNat + 8 * i)).toNat))) ∧
      (∀ b o : W16, ∀ n : Byte, (b.toNat ≠ 0 ∧ b.toNat ≠ 0x4C ∧ b.toNat ≠ 0x50) ∨ o.toNat % 8 ≠ 0 ∨ n = 0 ∨ 32 < n.toNat →
        exec (.i3cBlockRead b o n) s = ends s 2 []) ∧
      exec .i3cStatus s = .next { s with i3c := { s.i3c with
        readData := [s.i3c.result, BitVec.ofNat 8 s.boot.stage.toNat, BitVec.ofNat 8 (lifecycle s), 0, 0, 0, 0, 0] } } ∧
      (lifecycle s ≠ 0 → (∀ o d, exec (.i3cCredData o d) s = ends s 1 []) ∧ exec .i3cCredCommit s = ends s 1 []) ∧
      (lifecycle s = 0 → ∀ o : W16, ∀ d : List Byte,
        (1 ≤ d.length → d.length ≤ 256 → o.toNat + d.length ≤ 7267 → ∃ t, exec (.i3cCredData o d) s = .next t ∧
          t.i3c.result = 0 ∧ (∀ i, i < d.length → Memory.read t.i3c.buffer (o.toNat + i) = d.getD i 0) ∧
          (∀ j, j < o.toNat ∨ o.toNat + d.length ≤ j → Memory.read t.i3c.buffer j = Memory.read s.i3c.buffer j) ∧
          t = { s with i3c := t.i3c }) ∧
        (d.length = 0 ∨ 256 < d.length ∨ 7267 < o.toNat + d.length → exec (.i3cCredData o d) s = ends s 2 [])) ∧
      (lifecycle s = 0 → let r := (List.range 7267).map (Memory.read s.i3c.buffer)
        (leAt r 4 1 ≠ 0 ∨ bit (leAt r 5 1) 0 = false → exec .i3cCredCommit s = ends s 2 []) ∧
        (leAt r 4 1 = 0 → bit (leAt r 5 1) 0 = true → recordCause s r false ≠ 1 → ∃ t, exec .i3cCredCommit s = .next t ∧
          t.i3c.result = 1 ∧ t.cob.creds = s.cob.creds) ∧
        (leAt r 4 1 = 0 → bit (leAt r 5 1) 0 = true → recordCause s r false = 1 → (slice r 48 2592).all (· == 0) = false →
          ∃ t c, exec .i3cCredCommit s = .next t ∧ t.i3c.result = 0 ∧ look t.cob.creds 0 = some c ∧
          c.pubkey = slice r 48 2592)) ∧
      (inRecovery s = false → (∀ b, exec (.i3cImgBegin b) s = ends s 1 []) ∧ (∀ o d, exec (.i3cImgData o d) s = ends s 1 []) ∧
        ∀ n, exec (.i3cImgEnd n) s = ends s 1 []) ∧
      (inRecovery s = true →
        (∀ b : Byte, b.toNat ≤ 1 → ∃ t, exec (.i3cImgBegin b) s = .next t ∧ t.i3c.result = 0 ∧
          t.i3c.image = some (b == 1) ∧ (∀ i, i < imageHeaderLen → flashByte t (b == 1) i = 0) ∧
          ∀ i, i < slotLen → flashByte t (b != 1) i = flashByte s (b != 1) i) ∧
        (∀ b : Byte, 1 < b.toNat → exec (.i3cImgBegin b) s = ends s 2 []) ∧
        (s.i3c.image = none → (∀ o d, exec (.i3cImgData o d) s = ends s 1 []) ∧ ∀ n, exec (.i3cImgEnd n) s = ends s 1 []) ∧
        (∀ b, s.i3c.image = some b →
          (∀ o : W32, ∀ d : List Byte, 1 ≤ d.length → d.length ≤ 256 → o.toNat + d.length ≤ slotLen →
            exec (.i3cImgData o d) s = ends (flashProgram s b o.toNat d) 0 []) ∧
          (∀ o : W32, ∀ d : List Byte, d.length = 0 ∨ 256 < d.length ∨ slotLen < o.toNat + d.length →
            exec (.i3cImgData o d) s = ends s 2 []) ∧
          (∀ n : W32, slotLen < n.toNat → exec (.i3cImgEnd n) s = ends s 2 []) ∧
          (∀ n : W32, n.toNat ≤ slotLen → imageValid s (flashByte s b) n.toNat = false →
            exec (.i3cImgEnd n) s = ends s 3 []) ∧
          (∀ n : W32, n.toNat ≤ slotLen → imageValid s (flashByte s b) n.toNat = true → ∃ t,
            exec (.i3cImgEnd n) s = .next t ∧ t.boot.stage = 2 ∧ t.i3c.image = none ∧ t.i3c.result = 0 ∧
            t.fab.incarn = s.fab.incarn + 1 ∧ t.cob.flash = s.cob.flash))) ∧
      (∀ st dyn, exec (.i3cCcc (.setdasa st dyn)) s = .next (if st = 0x3A ∧ s.i3c.address = none then
        { s with i3c := { s.i3c with address := some dyn } } else s)) ∧
      (∀ dyn, s.i3c.address = none → exec (.i3cCcc (.entdaa dyn)) s =
        .next { s with i3c := { s.i3c with address := some dyn, ids := i3cId :: s.i3c.ids } }) ∧
      (∀ op, i3cListed op = false → exec (.i3cCcc (.privateWrite op)) s = ends s 2 []) ∧
      exec (.i3cCcc .enec) s = .next { s with i3c := { s.i3c with ibiEn := true } } ∧
      exec (.i3cCcc .disec) s = .next { s with i3c := { s.i3c with ibiEn := false } } ∧
      exec (.i3cCcc .rstdaa) s = .next { s with i3c := { s.i3c with address := none } } ∧
      (∀ c, (extestClass c = true → s.tap.resetN = false → exec (.tapInstructionUpdate c) s = .next { s with
          tap := { s.tap with
            ir := c
            landsTaken := true
            testIod := true } }) ∧
        (extestClass c = true → s.tap.resetN = true → exec (.tapInstructionUpdate c) s = .next { s with
          tap := { s.tap with
            ir := 0xFF
            landsTaken := false } }) ∧
        (c = 0x01 ∨ c = 0x02 ∨ c = 0x40 ∨ c = 0xFF → exec (.tapInstructionUpdate c) s = .next { s with
          tap := { s.tap with
            ir := c
            landsTaken := false } }) ∧
        (extestClass c = false → c ≠ 0x01 → c ≠ 0x02 → c ≠ 0x40 → c ≠ 0xFF → exec (.tapInstructionUpdate c) s = .next { s with
          tap := { s.tap with
            ir := if lifecycle s = 2 then c else 0xFF
            landsTaken := false } })) ∧
      (∀ d, d.bits.length = 32 → s.tap.ir = 0x02 → ∃ t, exec (.tapDrUpdate d) s = .next t ∧
        t.tap.tdo = (List.range 32).map (fun i => (0x1041666B).testBit i) ∧ t.tap.shifted = d.bits ∧ t = { s with tap := t.tap }) ∧
      (∀ d b r, d.bits = b :: r → s.tap.ir = 0xFF → ∃ t, exec (.tapDrUpdate d) s = .next t ∧
        t.tap.tdo = false :: (b :: r).take r.length ∧ t.tap.cells = s.tap.cells ∧ t = { s with tap := t.tap }) ∧
      (scanCapture s).length = 785 ∧
      (∀ d, s.tap.ir = 0x00 ∨ s.tap.ir = 0x01 ∨ s.tap.ir = 0x08 ∨ s.tap.ir = 0x09 → ∃ t, exec (.tapDrUpdate d) s = .next t ∧
        t.tap.tdo = (scanCapture s ++ d.bits).take d.bits.length ∧ t.tap.cells = (scanCapture s ++ d.bits).drop d.bits.length ∧
        t.tap.ir = s.tap.ir ∧ (d.bits.length = 785 → t.tap.cells = d.bits) ∧
        (∀ i, i < d.bits.length → scanChain[i]? = some .pwrEn → t.tap.tdo[i]? = some true) ∧
        (∀ i, i < d.bits.length → scanChain[i]? = some .alertN → s.tap.landsTaken = false →
          t.tap.tdo[i]? = some (!s.tap.alert))) ∧
      (∀ d, s.tap.ir = 0x40 → ∃ t, exec (.tapDrUpdate d) s = .next t ∧ t.tap.token = d.bits ∧ t.tap.cells = s.tap.cells) ∧
      (∀ token, s.tap.ir = 0x40 → ∃ t, exec (.tapDebugToken token) s = .next t ∧
        (tokenOk s token = true → t.cob.debug = true ∧ ∀ i, i < 64 → look t.cmd.sessions i = none) ∧
        (tokenOk s token = false → t.cob.debug = s.cob.debug ∧ t.cmd = s.cmd ∧
          t = { s with
            cob := { s.cob with chal := t.cob.chal }
            fresh := s.fresh + 1 })) ∧
      (∀ token, s.tap.ir = 0x40 → Config.faTokenOk ((s.cob.keyHashes.filter (fun e => !s.cob.revoked.getLsbD e.1)).map (·.2))
        token = true → exec (.failureAnalysisUnlock token) s = .next { s with cob := { s.cob with
          rma := true
          dikPresent := false } }) ∧
      (∀ m : Fin 2, ∀ up, ∃ t, exec (.mgtLinkChange m up) s = .next t ∧ t.tap.mgtUp[m] = up ∧
        (∀ j : Fin 2, j ≠ m → t.tap.mgtUp[j] = s.tap.mgtUp[j]) ∧
        t = { s with tap := { s.tap with mgtUp := t.tap.mgtUp } })) ∧
    (s.tap.ir ≠ 0x40 → ∀ token, exec (.tapDebugToken token) s = .next s ∧ exec (.failureAnalysisUnlock token) s = .next s) ∧
    exec .trstNLow s = .next { s with tap := { s.tap with
      ir := 0x02
      landsTaken := false
      shifted := []
      token := [] } }

/-- For every exact magnitude n/d: select_scale answers a legal scale, every legal scale of smaller value does not
hold the magnitude, and it holds the magnitude itself unless it is the largest legal scale (R100). Quantisation under
a legal scale saturates above the top of the format, with ±top and the flag, and otherwise gives the code that
round_to_grid gives under RNE or SR (R98, R101), whose element value is that magnitude with the sign, zero without
one. A read-out to FP32 or BF16 rounds the exact value V x 2^W x sigma once, infinity standing for 2^128, +0 for a
magnitude that rounds to 0, the canonical NaN for NaN (R97, R98; a magnitude above 2^128 becomes infinity, log entry
88). amax is the largest magnitude of the finite elements. A non-finite element encodes as 0 or ±top and counts as
non-finite alone; a finite one counts as a zero code or a saturation (R102). A JIT block whose scale holds amax
saturates no element. CVT8 converts the FP8 values of its block so, under JIT, and its lossy count is 0 exactly when
every finite element kept its value (R87, R88). (04_block_formats.md: Conversions out of the accumulation store,
04_block_formats.md: Conversions to block formats, 04_block_formats.md: FP8 inputs.) -/
def Obligations.ConversionsRoundOnceUnderTheSmallestScale : Prop :=
  (∀ (n d : Nat) (f : TFmt) (h : Bool), 0 < d → f = .f4b ∨ f = .i8b →
    let legal := fun (u : Nat) => u < 512 ∧ u % 256 ≤ 254 ∧ (h = false → u < 256)
    let holds := fun (u : Nat) => fracLe (n, d) (fracMul (blockTop f) (scaleVal u))
    let s := selectScale (n, d) f h
    legal s ∧ (∀ u, legal u → fracLt (scaleVal u) (scaleVal s) = true → holds u = false) ∧
    (holds s = true ∨ ∀ u, legal u → fracLe (scaleVal u) (scaleVal s) = true)) ∧
  (∀ (g : Bool) (n d u : Nat) (f : TFmt) (r : Option Nat), 0 < d → u % 256 ≤ 254 → f = .f4b ∨ f = .i8b →
    let k := scaleVal u
    let q := quantise (.fin g n d) k f r
    (fracLt (blockTop f) (n * k.2, d * k.1) = true → q = (elementCode f g (topCode f), true)) ∧
    (fracLt (blockTop f) (n * k.2, d * k.1) = false → ∃ m, RoundsTo (blockGrid f) (topCode f) (n * k.2) (d * k.1) r m ∧
      q = (elementCode f g m, false))) ∧
  (∀ (g : Bool) (m : Nat),
    (m ≤ 7 → f4Val (elementCode .f4b g m) = (if g then -1 else 1) * (f4Grid.getD m 0 : Int)) ∧
    (m ≤ 127 → i8Val (elementCode .i8b g m) = (if g then -1 else 1) * (m : Int))) ∧
  (∀ (mb : Nat) (r : Option Nat), mb = 7 ∨ mb = 23 →
    (∀ (g : Bool) (n d : Nat), 0 < d →
      (fracLt (n, d) (2 ^ 128, 1) = true → RoundsTo (floatGrid mb) (255 * 2 ^ mb) n d r (roundMag mb n d r)) ∧
      (fracLe (2 ^ 128, 1) (n, d) = true → roundMag mb n d r = 255 * 2 ^ mb) ∧
      encodeReadout mb (.fin g n d) r =
        (if roundMag mb n d r = 0 then 0 else b2n g * 2 ^ (mb + 8) + roundMag mb n d r)) ∧
    (∀ g, encodeReadout mb (.inf g) r = b2n g * 2 ^ (mb + 8) + 255 * 2 ^ mb) ∧
    encodeReadout mb .nan r = if mb = 7 then 0x7FC0 else 0x7FC00000) ∧
  (∀ (v : Nat) (w : Int) (sigma : Nat), let i := sext 64 v
    (f32 sigma = .nan → readoutValue v w sigma = .nan) ∧
    (∀ g, f32 sigma = .inf g → readoutValue v w sigma = if i = 0 then .nan else .inf (g != decide (i < 0))) ∧
    (∀ g d, f32 sigma = .fin g 0 d → readoutValue v w sigma = .zero) ∧
    (∀ g n d, f32 sigma = .fin g n d → n ≠ 0 → ∃ x y, readoutValue v w sigma = .fin (g != decide (i < 0)) x y ∧ 0 < y ∧
      x * (pow2Frac 1 w).2 * d = i.natAbs * (pow2Frac 1 w).1 * n * y)) ∧
  (∀ l : List Fv, (∀ v ∈ l, v.isFin = true → 0 < v.mag.2) →
    (∀ v ∈ l, v.isFin = true → fracLe v.mag (amaxOf l) = true) ∧
    (amaxOf l = (0, 1) ∨ ∃ v ∈ l, v.isFin = true ∧ v.mag = amaxOf l)) ∧
  (∀ (k : Nat × Nat) (f : TFmt) (r : Option Nat),
    convertElement .nan k f r = (0, ⟨1, 0, 0, 1, 0⟩) ∧
    (∀ g, convertElement (.inf g) k f r = (elementCode f g (topCode f), ⟨1, 0, 0, 1, 0⟩)) ∧
    (∀ g n d, let q := quantise (.fin g n d) k f r
      convertElement (.fin g n d) k f r = (q.1, ⟨1, if q.1 = 0 then 1 else 0, if q.2 then 1 else 0, 0, 0⟩))) ∧
  (∀ (ys : List (Fv × Option Nat)) (f : TFmt) (h : Bool), f = .f4b ∨ f = .i8b →
    (∀ y ∈ ys, y.1.isFin = true → 0 < y.1.mag.2) →
    let top := amaxOf (ys.map (·.1))
    let sc := selectScale top f h
    fracLe top (fracMul (blockTop f) (scaleVal sc)) = true →
    (convertBlock ys f sc false).flag = false ∧ (convertBlock ys f sc false).counts.sat = 0) ∧
  (∀ (s : State) (n : Nat) (i : Issued) (a d : TD) (b : Nat), i.sr = false →
    let vs := (List.range (min 32 (a.k - 32 * b))).map (fun k => fp8Val a.fmt (a.getCode s n (i.xr i.xi) (32 * b + k)))
    let sc := selectScale (amaxOf vs) .i8b (!d.s8)
    let o := convertBlock (vs.map (fun v => (v, none))) .i8b sc false
    let c := (cvt8Block s n i a d b).2
    c.elems = vs.length ∧ c.nonfin = vs.countP (fun v => !v.isFin) ∧ c.zero = o.counts.zero ∧ c.sat = o.counts.sat ∧
    (c.lossy = 0 ↔ ∀ k x y g, vs[k]? = some (.fin g x y) → ∃ h z w,
      elementValue .i8b (o.codes.getD k 0) sc = .fin h z w ∧ x * w = z * y ∧ (g = h ∨ x = 0)))

/-- For a latched entry in stack memory whose records lie apart from it, with no capture active and no line poisoned:
at a commit of an epoch every record becomes what override_sweep gives; H rises to AMAX at once or decays toward it;
with H above 0 and FMT not COUNT, SCALE is select_scale of H x 2^HR or the cap, and CAPPED says which; else both stay.
CEIL is the exponent of SCALE, plus 1 while an override is in force; OV_IN_FORCE counts them, saturating (log entry
92); EPOCH and the telemetry of the step are written, with the cumulative counts saturating; no other byte of a stack
changes. A NONFIN count above 0 and a CAPPED that rises are due as events. Undoing what the commit kept gives every
byte of the stacks back. A commit of the guard empties the accumulators and heads its log, of at most 4 commits, which
says whether it overflowed; with GUARD_EN 0 it changes no memory. REPLAY of the step in progress clears FLAG and HIGH
of every record. Under TRACKED a block takes SCALE, with E raised by 1 up to 254 under an override (R100, R151, R156,
R158, R160, R161). (06_numeric_guard.md: The scale tracker, 06_numeric_guard.md: Block overrides, 06_numeric_guard.md:
Counts and telemetry, 06_numeric_guard.md: Replay, checkpoints and twins.) -/
def Obligations.GuardCommitsScalesOverridesAndTelemetry : Prop :=
  (∀ (s : State) (epoch t : Nat) (c : List W32), MemoryCanonical s → s.ckpt.capture = none → s.poison = [] →
    epoch < 2 ^ 64 → guardEntry s t + 128 ≤ linearEnd → cfgBase c + cfgRecords c ≤ linearEnd →
    cfgBase c + cfgRecords c ≤ guardEntry s t ∨ guardEntry s t + 128 ≤ cfgBase c →
    let q := trackerCommit s epoch t c
    let acc := lookD s.guard.acc t GAcc.none
    let old := guardWord s t
    let new := guardWord q.1 t
    let wide := fun (w : Nat → Nat) (i : Nat) => w i + 2 ^ 32 * w (i + 1)
    let rec_ := fun i => sweepRecord (bits (cfgWord c 0) 26 22) (rdByte s (cfgBase c + i)).toNat
    let ov := (List.range (cfgRecords c)).countP (fun i => bit (rec_ i) 7)
    let h := if acc.amax = 0 then old 8 else if fracLe (f32 (old 8)).mag (f32 acc.amax.toNat).mag then acc.amax.toNat
      else ffma (cfgWord c 1) (fsub (old 8) acc.amax.toNat) acc.amax.toNat
    (∀ i, i < cfgRecords c → rdByte q.1 (cfgBase c + i) = BitVec.ofNat 8 (rec_ i)) ∧ new 8 = h ∧
    (cfgFmt c = some .count ∨ (f32 h).mag.1 = 0 →
      bits (new 9) 24 16 = bits (old 9) 24 16 ∧ bit (new 9) 0 = bit (old 9) 0) ∧
    (cfgFmt c ≠ some .count → (f32 h).mag.1 ≠ 0 →
      let sel := selectScale ((f32 h).mag.1 * 2 ^ bits (cfgWord c 0) 19 16, (f32 h).mag.2)
        (if cfgFmt c = some .f4b then .f4b else .i8b) (!cfgS8 c)
      let top := cfgXcap c - 1 < ((sel % 256 : Nat) : Int) - 127
      (top → bits (new 9) 24 16 = capScale c % 512 ∧ bit (new 9) 0 = true) ∧
      (¬ top → bits (new 9) 24 16 = sel ∧ bit (new 9) 0 = false)) ∧
    bits (new 9) 15 8 = wrap 8 (((bits (new 9) 23 16 : Nat) : Int) - 127 + (if ov = 0 then 0 else 1)) ∧
    new 10 = min ov 0xFFFFFFFF ∧ wide new 12 = epoch ∧ wide new 16 = epoch ∧ wide new 18 = min acc.elems (2 ^ 64 - 1) ∧
    new 20 = min acc.zero 0xFFFFFFFF ∧ new 21 = min acc.sat 0xFFFFFFFF ∧ new 22 = min acc.nonfin 0xFFFFFFFF ∧
    new 23 = min acc.lossy 0xFFFFFFFF ∧ new 24 = acc.amax.toNat ∧ new 25 = min acc.flagged 0xFFFFFFFF ∧
    wide new 26 = min (wide old 26 + wide new 18) (2 ^ 64 - 1) ∧ wide new 28 = min (wide old 28 + new 21) (2 ^ 64 - 1) ∧
    wide new 30 = min (wide old 30 + new 22) (2 ^ 64 - 1) ∧
    (∀ i, i < 8 ∨ i = 11 ∨ i = 14 ∨ i = 15 → new i = old i) ∧
    (∀ a, a < linearEnd → a < cfgBase c ∨ cfgBase c + cfgRecords c ≤ a → a < guardEntry s t ∨ guardEntry s t + 128 ≤ a →
      rdByte q.1 a = rdByte s a) ∧
    (q.2.2.2.1 = true ↔ acc.nonfin ≠ 0) ∧ (q.2.2.2.2 = true ↔ bit (new 9) 0 = true ∧ bit (old 9) 0 = false) ∧
    (∀ a, a < linearEnd → rdByte (guardRestore q.1 {
      epoch := BitVec.ofNat 64 epoch
      words := [(t, q.2.1)]
      recs := q.2.2.1.map (fun x => (t, x.1, BitVec.ofNat 8 x.2))
      overflow := false
      table := s.guard.tableBase.toNat
      bases := [(t, cfgBase c)] }) a = rdByte s a)) ∧
  (∀ hold r : Nat, let clean := r % 32
    (bit r 6 = true → sweepRecord hold r = 128) ∧
    (bit r 6 = false → bit r 7 = true → bit r 5 = true → sweepRecord hold r = 128) ∧
    (bit r 6 = false → bit r 7 = true → bit r 5 = false →
      sweepRecord hold r = if hold ≤ clean + 1 then 0 else 128 + (clean + 1)) ∧
    (bit r 6 = false → bit r 7 = false → sweepRecord hold r = clean)) ∧
  (∀ (s : State) (epoch : Nat), let t := guardCommit s epoch
    (s.guard.en = false → t.mem = s.mem ∧ t.guard.log = s.guard.log ∧ t.guard.acc = []) ∧
    (s.guard.en = true → t.guard.acc = [] ∧ t.guard.log.length ≤ 4 ∧
      ∃ u, t.guard.log = (u :: s.guard.log).take 4 ∧ u.epoch = BitVec.ofNat 64 epoch ∧
        (u.overflow = false → u.recs.length ≤ s.guard.logRecs.toNat) ∧ (s.guard.logRecs = 0 → u.overflow = true))) ∧
  (∀ (s : State) (t : Nat) (c : List W32), s.guard.cfg = [(t, c)] → MemoryCanonical s → s.ckpt.capture = none →
    s.poison = [] → cfgBase c + cfgRecords c ≤ linearEnd → let u := guardDiscard s
    u.guard.acc = [] ∧ (∀ i, i < cfgRecords c → rdByte u (cfgBase c + i) = rdByte s (cfgBase c + i) &&& 0x9F) ∧
    (∀ a, a < linearEnd → a < cfgBase c ∨ cfgBase c + cfgRecords c ≤ a → rdByte u a = rdByte s a)) ∧
  (∀ (s : State) (t : Nat) (c : List W32) (f : TFmt) (s8 : Bool) (vs : List Fv) (m k : Nat),
    let sc := bits (guardWord s t 9) 24 16
    let ov := bit (rdByte s (recordAddr c m k)).toNat 7
    blockScale s (.tracked t c) f s8 true vs m k = (if ov = true ∧ sc % 256 < 254 then sc + 1 else sc, ov) ∧
    blockScale s (.tracked t c) f s8 false vs m k = (selectScale (amaxOf vs) f (!s8), false))

/-- A finite value within FP32 stores as a compensated master whose value lies at or below it and less than one step
of its compensation above (R164). Every finite FP32 square is an integer in units of 2^-298 (R180); GNORM is the FP32
nearest to the root of the sum, and CLIP is TAU / GNORM where 0 < TAU < GNORM and 1.0 else (R182). A curve of rising
steps gives its end values outside them and the interpolated value between two points (R178); the scalars of a group
follow from them. Each element of an unfrozen block becomes what R184 gives for its rule: gh, m1, and for A m2, the
direction u, the applied master and its value for the compute copy; non-finite gh are counted. Under O, DIR of a panel
is zero for a zero norm, five steps of R187 on the panel over its norm, and for a tall panel the transpose of that of
the transpose; under K, service writes the decayed statistics and DIR = mm(mm(Lr, M1), Rr) (R189). A tile all frozen
whose LAST matches changes nothing and adds a digest of 32 frozen blocks; the digest of a tensor adds one h_t for each
tile, modulo 2^128 (R183, R194). (07_update_engine.md: The first pass and the clip factor, 07_update_engine.md: Groups
and schedule curves, 07_update_engine.md: The second pass, 07_update_engine.md: Rules O and K: panel service,
07_update_engine.md: The state digest, 06_numeric_guard.md: Precision outside the narrow formats.) -/
def Obligations.UpdateRulesComputeEachElementOnce : Prop :=
  (∀ (g : Bool) (n d : Nat), 0 < d → (n = 0 → g = false) → fracLt maxF32 (n, d) = false →
    let q := cmStore (.fin g n d)
    q.1 < 2 ^ 32 ∧ isFinite32 q.1 = true ∧ q.2 < 65536 ∧ Fv.lt (.fin g n d) (cmValue q.1 q.2) = false ∧
    Fv.lt (.fin g n d) ((cmValue q.1 q.2).add ((cmGap q.1).mul (.fin false 1 65536))) = true) ∧
  (∀ c g n d, f32 c = .fin g n d → (n * n * 2 ^ 298) % (d * d) = 0) ∧
  (∀ n d, 0 < d → SqrtRounds n d (sqrtFrac n d)) ∧
  (∀ stot tau : Nat, let norm := sqrtFrac stot (2 ^ 298)
    let clips := ∃ a b, f32 tau = .fin false a b ∧ 0 < a ∧
      (f32 norm = .inf false ∨ ∃ x y, f32 norm = .fin false x y ∧ a * y < x * b)
    (normClip stot tau).1 = norm ∧ (clips → (normClip stot tau).2 = fdiv tau norm) ∧
    (¬ clips → (normClip stot tau).2 = 0x3F800000)) ∧
  (∀ (s : State) (base n x : Nat), let px := fun i => rdNat s (base + 16 * i) 8
    let py := fun i => rdNat s (base + 16 * i + 8) 4
    1 ≤ n → (∀ i, i + 1 < n → px i < px (i + 1)) →
    (x ≤ px 0 → curveAt s base n x = py 0) ∧
    (px 0 < x → px (n - 1) ≤ x → curveAt s base n x = py (n - 1)) ∧
    (∀ i, i + 1 < n → px 0 < x → px i ≤ x → x < px (i + 1) → curveAt s base n x =
      ffma (fdiv (toF32 (.fin false (x - px i) 1)) (toF32 (.fin false (px (i + 1) - px i) 1))) (fsub (py (i + 1)) (py i))
        (py i))) ∧
  (∀ (s : State) (g : Group) (st : GState) (clip : Nat), let q := groupScalars s g st clip
    let x := (st.steps + 1).toNat
    let eta := curveAt s g.lrCurve g.lrPoints x
    let p1 := fmul st.p1.toNat g.b1.toNat
    let r2 := fsqrt (fsub 0x3F800000 (fmul st.p2.toNat g.b2.toNat))
    q.eta = BitVec.ofNat 32 eta ∧ q.kap = BitVec.ofNat 32 (fmul eta (curveAt s g.wdCurve g.wdPoints x)) ∧
    q.clip = (if g.clipx then 0x3F800000 else BitVec.ofNat 32 clip) ∧
    (g.rule = .m → q.alpha = BitVec.ofNat 32 eta) ∧ (g.rule = .k → q.alpha = BitVec.ofNat 32 (fmul eta g.gain.toNat)) ∧
    (g.rule = .a → q.p1n = BitVec.ofNat 32 p1 ∧ q.epsh = BitVec.ofNat 32 (fmul g.eps.toNat r2) ∧
      q.alpha = BitVec.ofNat 32 (fdiv (fmul eta r2) (fsub 0x3F800000 p1)))) ∧
  (∀ (s : State) (t : Tensor) (g : Group) (sc : GScalars) (gscale tile j i : Nat), i < 32 →
    let word := fun (a : UArr) => leAt (rdTile s g.rule t a tile (128 * j) 128) (4 * i) 4
    let mast := rdTile s g.rule t .mast tile (192 * j) 192
    let gh := fmul (fmul (word .g) gscale) sc.clip.toNat
    let m1 := match g.rule with
      | .m => ffma g.b1.toNat (word .mom1) gh
      | .a => ffma g.b1.toNat (fsub (word .mom1) gh) gh
      | _ => word .mom1
    let sq := fmul gh gh
    let m2 := ffma g.b2.toNat (fsub (word .mom2) sq) sq
    let u := match g.rule with
      | .m => m1
      | .a => fdiv m1 (fadd (fsqrt m2) sc.epsh.toNat)
      | _ => word .dir
    let th := cmValue (leAt mast (4 * i) 4) (leAt mast (128 + 2 * i) 2)
    let q := cmStore (th.add (((f32 (tileAlpha t g sc tile)).mul (f32 u)).add
      ((f32 sc.kap.toNat).mul (f32 (toF32 th)))).negate)
    let b := updateBlock s t g sc gscale tile j
    leAt b.mast (4 * i) 4 = q.1 ∧ leAt b.mast (128 + 2 * i) 2 = q.2 ∧ leAt b.mom1 (4 * i) 4 = m1 ∧
    (g.rule = .a → leAt b.mom2 (4 * i) 4 = m2) ∧ b.vals[i]? = some (cmValue q.1 q.2)) ∧
  (∀ (s : State) (t : Tensor) (g : Group) (sc : GScalars) (gscale tile j : Nat),
    (updateBlock s t g sc gscale tile j).nf = (List.range 32).countP (fun i =>
      !isFinite32 (fmul (fmul (leAt (rdTile s g.rule t .g tile (128 * j) 128) (4 * i) 4) gscale) sc.clip.toNat))) ∧
  (∀ (p : Mat) (pk pn : Nat), p.length = pk → (∀ r ∈ p, r.length = pn) →
    (pk ≤ pn → let f := rootSumSq p.flatten
      (f = 0 → orth p pk pn = mkMat pk pn (fun _ _ => 0)) ∧
      (f ≠ 0 → orth p pk pn = iter 5 (fun x => let y := mm (mm x (x.tr pk pn) pk pn pk) x pk pk pn
        mkMat pk pn (fun i j => ffma 0xBF600000 (y.at i j) (fmul 0x3FF00000 (x.at i j))))
          (mkMat pk pn (fun i j => fdiv (p.at i j) f)))) ∧
    (pn < pk → orth p pk pn = (orth (p.tr pk pn) pn pk).tr pn pk)) ∧
  (∀ (s : State) (t : Tensor) (g : Group) (st : GState) (gscale clip p : Nat),
    let d := t.panelDim p
    let m1 := rdLivePanel s g.rule t .mom1 p
    (g.rule = .o → servicePanel s t g st gscale clip p = wrLivePanel s .o t .dir p (orth m1 d.1 d.2)) ∧
    (g.rule = .k → let gh : Mat := (rdLivePanel s .k t .g p).map (fun r => r.map (fun x => fmul (fmul x gscale) clip))
      let stat := fun (u : State) (x : KMat) (k : Nat) (n : Mat) => wrK u t p x (mkMat k k (fun i j =>
        ffma g.kbeta.toNat (fsub ((rdK u t p x).at i j) (n.at i j)) (n.at i j)))
      let s1 := stat s .lst d.1 (mm gh (gh.tr d.1 d.2) d.1 d.2 d.1)
      let s2 := stat s1 .rst d.2 (mm (gh.tr d.1 d.2) gh d.2 d.1 d.2)
      servicePanel s t g st gscale clip p = wrLivePanel s2 .k t .dir p
        (mm (mm (rdK s2 t p (.lr st.rootSlot)) m1 d.1 d.1 d.2) (rdK s2 t p (.rr st.rootSlot)) d.1 d.2 d.2))) ∧
  (∀ (s : State) (t : Tensor) (g : Group) (sc : GScalars) (gscale epoch tile : Nat), liveBlocks s t tile = [] →
    freezeBits s t tile = leNat (rdTile s g.rule t .last tile 0 4) → passTwoTile s t g sc gscale epoch tile =
      { s := s, nf := 0, digest := tileDigest t g.rule epoch tile (List.replicate 256 0xFF), bytes := 0 }) ∧
  (∀ (t : Tensor) (r : URule) (epoch tile : Nat) (body : List Byte), tileDigest t r epoch tile body =
    leNat (shake128 (leBytes 4 t.idx ++ leBytes 4 tile ++ leBytes 8 epoch ++ leBytes 2 t.group ++
      [BitVec.ofNat 8 (match r with | .m => 0 | .a => 1 | .o => 2 | .k => 3)] ++ List.replicate 5 0 ++ body) 16)) ∧
  (∀ (s : State) (p q : Pass) (t : Tensor) (g : Group) (sc : GScalars), look p.scalars t.group = some sc →
    s.upd.pass = some q → ∃ bodies : List (List Byte), bodies.length = t.tiles ∧
      ∃ u, (passTwoTensor s p t g).upd.pass = some u ∧ u.digest = q.digest +
        (bodies.zipIdx.map (fun b => BitVec.ofNat 128 (tileDigest t g.rule (s.memblk.epoch.toNat + 1) b.2 b.1))).foldl (· + ·) 0)

/-- From every state whose session table is keyed by slots below 64, whose schedule holds at most 4,096 entries, and
in whose remap tables no two spares of a die in use serve one logical cluster, a step that answers a next state gives
such a state (R341, R45, R47, R386). (14_command_protocol.md: Sessions and sequence numbers, 02_fabric_time.md:
Windows and release, 15_reliability_twin.md: Spare clusters.) -/
def Obligations.EveryStepKeepsTheTablesBounded : Prop :=
  ∀ s t : State, TablesBounded s → step s = .next t → TablesBounded t

/-- From every state in which the queues of every cluster hold no more than R113 gives them (4 in an array's queue,
the read-out queue and the sync unit for each context, 8 in the vector unit, 16 descriptors in the mover and 8 of one
context), a step that answers a next state gives such a state; and from every state in which the contexts of a cluster
of a die that is not fenced, neither IDLE nor HALTED, hold no bank and no entry in common (R112), so does the next
state. (05_cluster_programs.md: Streams and contexts.) -/
def Obligations.EveryStepKeepsClustersOrderly : Prop :=
  ∀ s t : State, step s = .next t → (QueuesBounded s → QueuesBounded t) ∧ (ContextsApart s → ContextsApart t)
end

