-- ==== Sys2Proof/Laws/State.lean ====
section
/-! SUPPORT. Each update of one part of the state, field by field: the part takes its new value, every other field stays. -/

namespace Sys2Proof.Machine

/-! ### modCluster -/

@[simp] theorem modCluster_pending (s : State) (n : Nat) (f : Cluster → Cluster) : (modCluster s n f).pending = s.pending := rfl
@[simp] theorem modCluster_fresh (s : State) (n : Nat) (f : Cluster → Cluster) : (modCluster s n f).fresh = s.fresh := rfl
@[simp] theorem modCluster_mem (s : State) (n : Nat) (f : Cluster → Cluster) : (modCluster s n f).mem = s.mem := rfl
@[simp] theorem modCluster_poison (s : State) (n : Nat) (f : Cluster → Cluster) : (modCluster s n f).poison = s.poison := rfl
@[simp] theorem modCluster_pkgId (s : State) (n : Nat) (f : Cluster → Cluster) : (modCluster s n f).pkgId = s.pkgId := rfl
@[simp] theorem modCluster_inv (s : State) (n : Nat) (f : Cluster → Cluster) : (modCluster s n f).inv = s.inv := rfl
@[simp] theorem modCluster_clusters (s : State) (n : Nat) (f : Cluster → Cluster) : (modCluster s n f).clusters = put s.clusters n (f (cluster s n)) := rfl
@[simp] theorem modCluster_dies (s : State) (n : Nat) (f : Cluster → Cluster) : (modCluster s n f).dies = s.dies := rfl
@[simp] theorem modCluster_stk (s : State) (n : Nat) (f : Cluster → Cluster) : (modCluster s n f).stk = s.stk := rfl
@[simp] theorem modCluster_links (s : State) (n : Nat) (f : Cluster → Cluster) : (modCluster s n f).links = s.links := rfl
@[simp] theorem modCluster_waitingReqs (s : State) (n : Nat) (f : Cluster → Cluster) : (modCluster s n f).waitingReqs = s.waitingReqs := rfl
@[simp] theorem modCluster_openReqs (s : State) (n : Nat) (f : Cluster → Cluster) : (modCluster s n f).openReqs = s.openReqs := rfl
@[simp] theorem modCluster_meshLost (s : State) (n : Nat) (f : Cluster → Cluster) : (modCluster s n f).meshLost = s.meshLost := rfl
@[simp] theorem modCluster_meshLate (s : State) (n : Nat) (f : Cluster → Cluster) : (modCluster s n f).meshLate = s.meshLate := rfl
@[simp] theorem modCluster_iodSeen (s : State) (n : Nat) (f : Cluster → Cluster) : (modCluster s n f).iodSeen = s.iodSeen := rfl
@[simp] theorem modCluster_guard (s : State) (n : Nat) (f : Cluster → Cluster) : (modCluster s n f).guard = s.guard := rfl
@[simp] theorem modCluster_upd (s : State) (n : Nat) (f : Cluster → Cluster) : (modCluster s n f).upd = s.upd := rfl
@[simp] theorem modCluster_exch (s : State) (n : Nat) (f : Cluster → Cluster) : (modCluster s n f).exch = s.exch := rfl
@[simp] theorem modCluster_memblk (s : State) (n : Nat) (f : Cluster → Cluster) : (modCluster s n f).memblk = s.memblk := rfl
@[simp] theorem modCluster_ckpt (s : State) (n : Nat) (f : Cluster → Cluster) : (modCluster s n f).ckpt = s.ckpt := rfl
@[simp] theorem modCluster_sync (s : State) (n : Nat) (f : Cluster → Cluster) : (modCluster s n f).sync = s.sync := rfl
@[simp] theorem modCluster_fab (s : State) (n : Nat) (f : Cluster → Cluster) : (modCluster s n f).fab = s.fab := rfl
@[simp] theorem modCluster_cmd (s : State) (n : Nat) (f : Cluster → Cluster) : (modCluster s n f).cmd = s.cmd := rfl
@[simp] theorem modCluster_twin (s : State) (n : Nat) (f : Cluster → Cluster) : (modCluster s n f).twin = s.twin := rfl
@[simp] theorem modCluster_cob (s : State) (n : Nat) (f : Cluster → Cluster) : (modCluster s n f).cob = s.cob := rfl
@[simp] theorem modCluster_power (s : State) (n : Nat) (f : Cluster → Cluster) : (modCluster s n f).power = s.power := rfl
@[simp] theorem modCluster_boot (s : State) (n : Nat) (f : Cluster → Cluster) : (modCluster s n f).boot = s.boot := rfl
@[simp] theorem modCluster_i3c (s : State) (n : Nat) (f : Cluster → Cluster) : (modCluster s n f).i3c = s.i3c := rfl
@[simp] theorem modCluster_tap (s : State) (n : Nat) (f : Cluster → Cluster) : (modCluster s n f).tap = s.tap := rfl
@[simp] theorem modCluster_savedGens (s : State) (n : Nat) (f : Cluster → Cluster) : (modCluster s n f).savedGens = s.savedGens := rfl
@[simp] theorem modCluster_lastStatus (s : State) (n : Nat) (f : Cluster → Cluster) : (modCluster s n f).lastStatus = s.lastStatus := rfl

/-! ### modStream -/

@[simp] theorem modStream_pending (s : State) (n : Nat) (c : Ctx) (f : Stream → Stream) : (modStream s n c f).pending = s.pending := rfl
@[simp] theorem modStream_fresh (s : State) (n : Nat) (c : Ctx) (f : Stream → Stream) : (modStream s n c f).fresh = s.fresh := rfl
@[simp] theorem modStream_mem (s : State) (n : Nat) (c : Ctx) (f : Stream → Stream) : (modStream s n c f).mem = s.mem := rfl
@[simp] theorem modStream_poison (s : State) (n : Nat) (c : Ctx) (f : Stream → Stream) : (modStream s n c f).poison = s.poison := rfl
@[simp] theorem modStream_pkgId (s : State) (n : Nat) (c : Ctx) (f : Stream → Stream) : (modStream s n c f).pkgId = s.pkgId := rfl
@[simp] theorem modStream_inv (s : State) (n : Nat) (c : Ctx) (f : Stream → Stream) : (modStream s n c f).inv = s.inv := rfl
@[simp] theorem modStream_dies (s : State) (n : Nat) (c : Ctx) (f : Stream → Stream) : (modStream s n c f).dies = s.dies := rfl
@[simp] theorem modStream_stk (s : State) (n : Nat) (c : Ctx) (f : Stream → Stream) : (modStream s n c f).stk = s.stk := rfl
@[simp] theorem modStream_links (s : State) (n : Nat) (c : Ctx) (f : Stream → Stream) : (modStream s n c f).links = s.links := rfl
@[simp] theorem modStream_waitingReqs (s : State) (n : Nat) (c : Ctx) (f : Stream → Stream) : (modStream s n c f).waitingReqs = s.waitingReqs := rfl
@[simp] theorem modStream_openReqs (s : State) (n : Nat) (c : Ctx) (f : Stream → Stream) : (modStream s n c f).openReqs = s.openReqs := rfl
@[simp] theorem modStream_meshLost (s : State) (n : Nat) (c : Ctx) (f : Stream → Stream) : (modStream s n c f).meshLost = s.meshLost := rfl
@[simp] theorem modStream_meshLate (s : State) (n : Nat) (c : Ctx) (f : Stream → Stream) : (modStream s n c f).meshLate = s.meshLate := rfl
@[simp] theorem modStream_iodSeen (s : State) (n : Nat) (c : Ctx) (f : Stream → Stream) : (modStream s n c f).iodSeen = s.iodSeen := rfl
@[simp] theorem modStream_guard (s : State) (n : Nat) (c : Ctx) (f : Stream → Stream) : (modStream s n c f).guard = s.guard := rfl
@[simp] theorem modStream_upd (s : State) (n : Nat) (c : Ctx) (f : Stream → Stream) : (modStream s n c f).upd = s.upd := rfl
@[simp] theorem modStream_exch (s : State) (n : Nat) (c : Ctx) (f : Stream → Stream) : (modStream s n c f).exch = s.exch := rfl
@[simp] theorem modStream_memblk (s : State) (n : Nat) (c : Ctx) (f : Stream → Stream) : (modStream s n c f).memblk = s.memblk := rfl
@[simp] theorem modStream_ckpt (s : State) (n : Nat) (c : Ctx) (f : Stream → Stream) : (modStream s n c f).ckpt = s.ckpt := rfl
@[simp] theorem modStream_sync (s : State) (n : Nat) (c : Ctx) (f : Stream → Stream) : (modStream s n c f).sync = s.sync := rfl
@[simp] theorem modStream_fab (s : State) (n : Nat) (c : Ctx) (f : Stream → Stream) : (modStream s n c f).fab = s.fab := rfl
@[simp] theorem modStream_cmd (s : State) (n : Nat) (c : Ctx) (f : Stream → Stream) : (modStream s n c f).cmd = s.cmd := rfl
@[simp] theorem modStream_twin (s : State) (n : Nat) (c : Ctx) (f : Stream → Stream) : (modStream s n c f).twin = s.twin := rfl
@[simp] theorem modStream_cob (s : State) (n : Nat) (c : Ctx) (f : Stream → Stream) : (modStream s n c f).cob = s.cob := rfl
@[simp] theorem modStream_power (s : State) (n : Nat) (c : Ctx) (f : Stream → Stream) : (modStream s n c f).power = s.power := rfl
@[simp] theorem modStream_boot (s : State) (n : Nat) (c : Ctx) (f : Stream → Stream) : (modStream s n c f).boot = s.boot := rfl
@[simp] theorem modStream_i3c (s : State) (n : Nat) (c : Ctx) (f : Stream → Stream) : (modStream s n c f).i3c = s.i3c := rfl
@[simp] theorem modStream_tap (s : State) (n : Nat) (c : Ctx) (f : Stream → Stream) : (modStream s n c f).tap = s.tap := rfl
@[simp] theorem modStream_savedGens (s : State) (n : Nat) (c : Ctx) (f : Stream → Stream) : (modStream s n c f).savedGens = s.savedGens := rfl
@[simp] theorem modStream_lastStatus (s : State) (n : Nat) (c : Ctx) (f : Stream → Stream) : (modStream s n c f).lastStatus = s.lastStatus := rfl

/-! ### modArray -/

@[simp] theorem modArray_pending (s : State) (n : Nat) (a : Fin 4) (f : ArrayUnit → ArrayUnit) : (modArray s n a f).pending = s.pending := rfl
@[simp] theorem modArray_fresh (s : State) (n : Nat) (a : Fin 4) (f : ArrayUnit → ArrayUnit) : (modArray s n a f).fresh = s.fresh := rfl
@[simp] theorem modArray_mem (s : State) (n : Nat) (a : Fin 4) (f : ArrayUnit → ArrayUnit) : (modArray s n a f).mem = s.mem := rfl
@[simp] theorem modArray_poison (s : State) (n : Nat) (a : Fin 4) (f : ArrayUnit → ArrayUnit) : (modArray s n a f).poison = s.poison := rfl
@[simp] theorem modArray_pkgId (s : State) (n : Nat) (a : Fin 4) (f : ArrayUnit → ArrayUnit) : (modArray s n a f).pkgId = s.pkgId := rfl
@[simp] theorem modArray_inv (s : State) (n : Nat) (a : Fin 4) (f : ArrayUnit → ArrayUnit) : (modArray s n a f).inv = s.inv := rfl
@[simp] theorem modArray_dies (s : State) (n : Nat) (a : Fin 4) (f : ArrayUnit → ArrayUnit) : (modArray s n a f).dies = s.dies := rfl
@[simp] theorem modArray_stk (s : State) (n : Nat) (a : Fin 4) (f : ArrayUnit → ArrayUnit) : (modArray s n a f).stk = s.stk := rfl
@[simp] theorem modArray_links (s : State) (n : Nat) (a : Fin 4) (f : ArrayUnit → ArrayUnit) : (modArray s n a f).links = s.links := rfl
@[simp] theorem modArray_waitingReqs (s : State) (n : Nat) (a : Fin 4) (f : ArrayUnit → ArrayUnit) : (modArray s n a f).waitingReqs = s.waitingReqs := rfl
@[simp] theorem modArray_openReqs (s : State) (n : Nat) (a : Fin 4) (f : ArrayUnit → ArrayUnit) : (modArray s n a f).openReqs = s.openReqs := rfl
@[simp] theorem modArray_meshLost (s : State) (n : Nat) (a : Fin 4) (f : ArrayUnit → ArrayUnit) : (modArray s n a f).meshLost = s.meshLost := rfl
@[simp] theorem modArray_meshLate (s : State) (n : Nat) (a : Fin 4) (f : ArrayUnit → ArrayUnit) : (modArray s n a f).meshLate = s.meshLate := rfl
@[simp] theorem modArray_iodSeen (s : State) (n : Nat) (a : Fin 4) (f : ArrayUnit → ArrayUnit) : (modArray s n a f).iodSeen = s.iodSeen := rfl
@[simp] theorem modArray_guard (s : State) (n : Nat) (a : Fin 4) (f : ArrayUnit → ArrayUnit) : (modArray s n a f).guard = s.guard := rfl
@[simp] theorem modArray_upd (s : State) (n : Nat) (a : Fin 4) (f : ArrayUnit → ArrayUnit) : (modArray s n a f).upd = s.upd := rfl
@[simp] theorem modArray_exch (s : State) (n : Nat) (a : Fin 4) (f : ArrayUnit → ArrayUnit) : (modArray s n a f).exch = s.exch := rfl
@[simp] theorem modArray_memblk (s : State) (n : Nat) (a : Fin 4) (f : ArrayUnit → ArrayUnit) : (modArray s n a f).memblk = s.memblk := rfl
@[simp] theorem modArray_ckpt (s : State) (n : Nat) (a : Fin 4) (f : ArrayUnit → ArrayUnit) : (modArray s n a f).ckpt = s.ckpt := rfl
@[simp] theorem modArray_sync (s : State) (n : Nat) (a : Fin 4) (f : ArrayUnit → ArrayUnit) : (modArray s n a f).sync = s.sync := rfl
@[simp] theorem modArray_fab (s : State) (n : Nat) (a : Fin 4) (f : ArrayUnit → ArrayUnit) : (modArray s n a f).fab = s.fab := rfl
@[simp] theorem modArray_cmd (s : State) (n : Nat) (a : Fin 4) (f : ArrayUnit → ArrayUnit) : (modArray s n a f).cmd = s.cmd := rfl
@[simp] theorem modArray_twin (s : State) (n : Nat) (a : Fin 4) (f : ArrayUnit → ArrayUnit) : (modArray s n a f).twin = s.twin := rfl
@[simp] theorem modArray_cob (s : State) (n : Nat) (a : Fin 4) (f : ArrayUnit → ArrayUnit) : (modArray s n a f).cob = s.cob := rfl
@[simp] theorem modArray_power (s : State) (n : Nat) (a : Fin 4) (f : ArrayUnit → ArrayUnit) : (modArray s n a f).power = s.power := rfl
@[simp] theorem modArray_boot (s : State) (n : Nat) (a : Fin 4) (f : ArrayUnit → ArrayUnit) : (modArray s n a f).boot = s.boot := rfl
@[simp] theorem modArray_i3c (s : State) (n : Nat) (a : Fin 4) (f : ArrayUnit → ArrayUnit) : (modArray s n a f).i3c = s.i3c := rfl
@[simp] theorem modArray_tap (s : State) (n : Nat) (a : Fin 4) (f : ArrayUnit → ArrayUnit) : (modArray s n a f).tap = s.tap := rfl
@[simp] theorem modArray_savedGens (s : State) (n : Nat) (a : Fin 4) (f : ArrayUnit → ArrayUnit) : (modArray s n a f).savedGens = s.savedGens := rfl
@[simp] theorem modArray_lastStatus (s : State) (n : Nat) (a : Fin 4) (f : ArrayUnit → ArrayUnit) : (modArray s n a f).lastStatus = s.lastStatus := rfl

/-! ### modDie -/

@[simp] theorem modDie_pending (s : State) (d : Nat) (f : Die → Die) : (modDie s d f).pending = s.pending := rfl
@[simp] theorem modDie_fresh (s : State) (d : Nat) (f : Die → Die) : (modDie s d f).fresh = s.fresh := rfl
@[simp] theorem modDie_mem (s : State) (d : Nat) (f : Die → Die) : (modDie s d f).mem = s.mem := rfl
@[simp] theorem modDie_poison (s : State) (d : Nat) (f : Die → Die) : (modDie s d f).poison = s.poison := rfl
@[simp] theorem modDie_pkgId (s : State) (d : Nat) (f : Die → Die) : (modDie s d f).pkgId = s.pkgId := rfl
@[simp] theorem modDie_inv (s : State) (d : Nat) (f : Die → Die) : (modDie s d f).inv = s.inv := rfl
@[simp] theorem modDie_clusters (s : State) (d : Nat) (f : Die → Die) : (modDie s d f).clusters = s.clusters := rfl
@[simp] theorem modDie_dies (s : State) (d : Nat) (f : Die → Die) : (modDie s d f).dies = vmod s.dies d f := rfl
@[simp] theorem modDie_stk (s : State) (d : Nat) (f : Die → Die) : (modDie s d f).stk = s.stk := rfl
@[simp] theorem modDie_links (s : State) (d : Nat) (f : Die → Die) : (modDie s d f).links = s.links := rfl
@[simp] theorem modDie_waitingReqs (s : State) (d : Nat) (f : Die → Die) : (modDie s d f).waitingReqs = s.waitingReqs := rfl
@[simp] theorem modDie_openReqs (s : State) (d : Nat) (f : Die → Die) : (modDie s d f).openReqs = s.openReqs := rfl
@[simp] theorem modDie_meshLost (s : State) (d : Nat) (f : Die → Die) : (modDie s d f).meshLost = s.meshLost := rfl
@[simp] theorem modDie_meshLate (s : State) (d : Nat) (f : Die → Die) : (modDie s d f).meshLate = s.meshLate := rfl
@[simp] theorem modDie_iodSeen (s : State) (d : Nat) (f : Die → Die) : (modDie s d f).iodSeen = s.iodSeen := rfl
@[simp] theorem modDie_guard (s : State) (d : Nat) (f : Die → Die) : (modDie s d f).guard = s.guard := rfl
@[simp] theorem modDie_upd (s : State) (d : Nat) (f : Die → Die) : (modDie s d f).upd = s.upd := rfl
@[simp] theorem modDie_exch (s : State) (d : Nat) (f : Die → Die) : (modDie s d f).exch = s.exch := rfl
@[simp] theorem modDie_memblk (s : State) (d : Nat) (f : Die → Die) : (modDie s d f).memblk = s.memblk := rfl
@[simp] theorem modDie_ckpt (s : State) (d : Nat) (f : Die → Die) : (modDie s d f).ckpt = s.ckpt := rfl
@[simp] theorem modDie_sync (s : State) (d : Nat) (f : Die → Die) : (modDie s d f).sync = s.sync := rfl
@[simp] theorem modDie_fab (s : State) (d : Nat) (f : Die → Die) : (modDie s d f).fab = s.fab := rfl
@[simp] theorem modDie_cmd (s : State) (d : Nat) (f : Die → Die) : (modDie s d f).cmd = s.cmd := rfl
@[simp] theorem modDie_twin (s : State) (d : Nat) (f : Die → Die) : (modDie s d f).twin = s.twin := rfl
@[simp] theorem modDie_cob (s : State) (d : Nat) (f : Die → Die) : (modDie s d f).cob = s.cob := rfl
@[simp] theorem modDie_power (s : State) (d : Nat) (f : Die → Die) : (modDie s d f).power = s.power := rfl
@[simp] theorem modDie_boot (s : State) (d : Nat) (f : Die → Die) : (modDie s d f).boot = s.boot := rfl
@[simp] theorem modDie_i3c (s : State) (d : Nat) (f : Die → Die) : (modDie s d f).i3c = s.i3c := rfl
@[simp] theorem modDie_tap (s : State) (d : Nat) (f : Die → Die) : (modDie s d f).tap = s.tap := rfl
@[simp] theorem modDie_savedGens (s : State) (d : Nat) (f : Die → Die) : (modDie s d f).savedGens = s.savedGens := rfl
@[simp] theorem modDie_lastStatus (s : State) (d : Nat) (f : Die → Die) : (modDie s d f).lastStatus = s.lastStatus := rfl

/-! ### modStack -/

@[simp] theorem modStack_pending (s : State) (k : Nat) (f : StackUnit → StackUnit) : (modStack s k f).pending = s.pending := rfl
@[simp] theorem modStack_fresh (s : State) (k : Nat) (f : StackUnit → StackUnit) : (modStack s k f).fresh = s.fresh := rfl
@[simp] theorem modStack_mem (s : State) (k : Nat) (f : StackUnit → StackUnit) : (modStack s k f).mem = s.mem := rfl
@[simp] theorem modStack_poison (s : State) (k : Nat) (f : StackUnit → StackUnit) : (modStack s k f).poison = s.poison := rfl
@[simp] theorem modStack_pkgId (s : State) (k : Nat) (f : StackUnit → StackUnit) : (modStack s k f).pkgId = s.pkgId := rfl
@[simp] theorem modStack_inv (s : State) (k : Nat) (f : StackUnit → StackUnit) : (modStack s k f).inv = s.inv := rfl
@[simp] theorem modStack_clusters (s : State) (k : Nat) (f : StackUnit → StackUnit) : (modStack s k f).clusters = s.clusters := rfl
@[simp] theorem modStack_dies (s : State) (k : Nat) (f : StackUnit → StackUnit) : (modStack s k f).dies = s.dies := rfl
@[simp] theorem modStack_stk (s : State) (k : Nat) (f : StackUnit → StackUnit) : (modStack s k f).stk = vmod s.stk k f := rfl
@[simp] theorem modStack_links (s : State) (k : Nat) (f : StackUnit → StackUnit) : (modStack s k f).links = s.links := rfl
@[simp] theorem modStack_waitingReqs (s : State) (k : Nat) (f : StackUnit → StackUnit) : (modStack s k f).waitingReqs = s.waitingReqs := rfl
@[simp] theorem modStack_openReqs (s : State) (k : Nat) (f : StackUnit → StackUnit) : (modStack s k f).openReqs = s.openReqs := rfl
@[simp] theorem modStack_meshLost (s : State) (k : Nat) (f : StackUnit → StackUnit) : (modStack s k f).meshLost = s.meshLost := rfl
@[simp] theorem modStack_meshLate (s : State) (k : Nat) (f : StackUnit → StackUnit) : (modStack s k f).meshLate = s.meshLate := rfl
@[simp] theorem modStack_iodSeen (s : State) (k : Nat) (f : StackUnit → StackUnit) : (modStack s k f).iodSeen = s.iodSeen := rfl
@[simp] theorem modStack_guard (s : State) (k : Nat) (f : StackUnit → StackUnit) : (modStack s k f).guard = s.guard := rfl
@[simp] theorem modStack_upd (s : State) (k : Nat) (f : StackUnit → StackUnit) : (modStack s k f).upd = s.upd := rfl
@[simp] theorem modStack_exch (s : State) (k : Nat) (f : StackUnit → StackUnit) : (modStack s k f).exch = s.exch := rfl
@[simp] theorem modStack_memblk (s : State) (k : Nat) (f : StackUnit → StackUnit) : (modStack s k f).memblk = s.memblk := rfl
@[simp] theorem modStack_ckpt (s : State) (k : Nat) (f : StackUnit → StackUnit) : (modStack s k f).ckpt = s.ckpt := rfl
@[simp] theorem modStack_sync (s : State) (k : Nat) (f : StackUnit → StackUnit) : (modStack s k f).sync = s.sync := rfl
@[simp] theorem modStack_fab (s : State) (k : Nat) (f : StackUnit → StackUnit) : (modStack s k f).fab = s.fab := rfl
@[simp] theorem modStack_cmd (s : State) (k : Nat) (f : StackUnit → StackUnit) : (modStack s k f).cmd = s.cmd := rfl
@[simp] theorem modStack_twin (s : State) (k : Nat) (f : StackUnit → StackUnit) : (modStack s k f).twin = s.twin := rfl
@[simp] theorem modStack_cob (s : State) (k : Nat) (f : StackUnit → StackUnit) : (modStack s k f).cob = s.cob := rfl
@[simp] theorem modStack_power (s : State) (k : Nat) (f : StackUnit → StackUnit) : (modStack s k f).power = s.power := rfl
@[simp] theorem modStack_boot (s : State) (k : Nat) (f : StackUnit → StackUnit) : (modStack s k f).boot = s.boot := rfl
@[simp] theorem modStack_i3c (s : State) (k : Nat) (f : StackUnit → StackUnit) : (modStack s k f).i3c = s.i3c := rfl
@[simp] theorem modStack_tap (s : State) (k : Nat) (f : StackUnit → StackUnit) : (modStack s k f).tap = s.tap := rfl
@[simp] theorem modStack_savedGens (s : State) (k : Nat) (f : StackUnit → StackUnit) : (modStack s k f).savedGens = s.savedGens := rfl
@[simp] theorem modStack_lastStatus (s : State) (k : Nat) (f : StackUnit → StackUnit) : (modStack s k f).lastStatus = s.lastStatus := rfl

/-! ### modPort -/

@[simp] theorem modPort_pending (s : State) (p : Nat) (f : Port → Port) : (modPort s p f).pending = s.pending := rfl
@[simp] theorem modPort_fresh (s : State) (p : Nat) (f : Port → Port) : (modPort s p f).fresh = s.fresh := rfl
@[simp] theorem modPort_mem (s : State) (p : Nat) (f : Port → Port) : (modPort s p f).mem = s.mem := rfl
@[simp] theorem modPort_poison (s : State) (p : Nat) (f : Port → Port) : (modPort s p f).poison = s.poison := rfl
@[simp] theorem modPort_pkgId (s : State) (p : Nat) (f : Port → Port) : (modPort s p f).pkgId = s.pkgId := rfl
@[simp] theorem modPort_inv (s : State) (p : Nat) (f : Port → Port) : (modPort s p f).inv = s.inv := rfl
@[simp] theorem modPort_clusters (s : State) (p : Nat) (f : Port → Port) : (modPort s p f).clusters = s.clusters := rfl
@[simp] theorem modPort_dies (s : State) (p : Nat) (f : Port → Port) : (modPort s p f).dies = s.dies := rfl
@[simp] theorem modPort_stk (s : State) (p : Nat) (f : Port → Port) : (modPort s p f).stk = s.stk := rfl
@[simp] theorem modPort_links (s : State) (p : Nat) (f : Port → Port) : (modPort s p f).links = s.links := rfl
@[simp] theorem modPort_waitingReqs (s : State) (p : Nat) (f : Port → Port) : (modPort s p f).waitingReqs = s.waitingReqs := rfl
@[simp] theorem modPort_openReqs (s : State) (p : Nat) (f : Port → Port) : (modPort s p f).openReqs = s.openReqs := rfl
@[simp] theorem modPort_meshLost (s : State) (p : Nat) (f : Port → Port) : (modPort s p f).meshLost = s.meshLost := rfl
@[simp] theorem modPort_meshLate (s : State) (p : Nat) (f : Port → Port) : (modPort s p f).meshLate = s.meshLate := rfl
@[simp] theorem modPort_iodSeen (s : State) (p : Nat) (f : Port → Port) : (modPort s p f).iodSeen = s.iodSeen := rfl
@[simp] theorem modPort_guard (s : State) (p : Nat) (f : Port → Port) : (modPort s p f).guard = s.guard := rfl
@[simp] theorem modPort_upd (s : State) (p : Nat) (f : Port → Port) : (modPort s p f).upd = s.upd := rfl
@[simp] theorem modPort_exch (s : State) (p : Nat) (f : Port → Port) : (modPort s p f).exch = s.exch := rfl
@[simp] theorem modPort_memblk (s : State) (p : Nat) (f : Port → Port) : (modPort s p f).memblk = s.memblk := rfl
@[simp] theorem modPort_ckpt (s : State) (p : Nat) (f : Port → Port) : (modPort s p f).ckpt = s.ckpt := rfl
@[simp] theorem modPort_sync (s : State) (p : Nat) (f : Port → Port) : (modPort s p f).sync = s.sync := rfl
@[simp] theorem modPort_fab (s : State) (p : Nat) (f : Port → Port) : (modPort s p f).fab = { s.fab with ports := vmod s.fab.ports p f } := rfl
@[simp] theorem modPort_cmd (s : State) (p : Nat) (f : Port → Port) : (modPort s p f).cmd = s.cmd := rfl
@[simp] theorem modPort_twin (s : State) (p : Nat) (f : Port → Port) : (modPort s p f).twin = s.twin := rfl
@[simp] theorem modPort_cob (s : State) (p : Nat) (f : Port → Port) : (modPort s p f).cob = s.cob := rfl
@[simp] theorem modPort_power (s : State) (p : Nat) (f : Port → Port) : (modPort s p f).power = s.power := rfl
@[simp] theorem modPort_boot (s : State) (p : Nat) (f : Port → Port) : (modPort s p f).boot = s.boot := rfl
@[simp] theorem modPort_i3c (s : State) (p : Nat) (f : Port → Port) : (modPort s p f).i3c = s.i3c := rfl
@[simp] theorem modPort_tap (s : State) (p : Nat) (f : Port → Port) : (modPort s p f).tap = s.tap := rfl
@[simp] theorem modPort_savedGens (s : State) (p : Nat) (f : Port → Port) : (modPort s p f).savedGens = s.savedGens := rfl
@[simp] theorem modPort_lastStatus (s : State) (p : Nat) (f : Port → Port) : (modPort s p f).lastStatus = s.lastStatus := rfl

/-! ### modEnd -/

@[simp] theorem modEnd_pending (s : State) (e : EdgeEnd) (f : LinkEnd → LinkEnd) : (modEnd s e f).pending = s.pending := rfl
@[simp] theorem modEnd_fresh (s : State) (e : EdgeEnd) (f : LinkEnd → LinkEnd) : (modEnd s e f).fresh = s.fresh := rfl
@[simp] theorem modEnd_mem (s : State) (e : EdgeEnd) (f : LinkEnd → LinkEnd) : (modEnd s e f).mem = s.mem := rfl
@[simp] theorem modEnd_poison (s : State) (e : EdgeEnd) (f : LinkEnd → LinkEnd) : (modEnd s e f).poison = s.poison := rfl
@[simp] theorem modEnd_pkgId (s : State) (e : EdgeEnd) (f : LinkEnd → LinkEnd) : (modEnd s e f).pkgId = s.pkgId := rfl
@[simp] theorem modEnd_inv (s : State) (e : EdgeEnd) (f : LinkEnd → LinkEnd) : (modEnd s e f).inv = s.inv := rfl
@[simp] theorem modEnd_clusters (s : State) (e : EdgeEnd) (f : LinkEnd → LinkEnd) : (modEnd s e f).clusters = s.clusters := rfl
@[simp] theorem modEnd_dies (s : State) (e : EdgeEnd) (f : LinkEnd → LinkEnd) : (modEnd s e f).dies = s.dies := rfl
@[simp] theorem modEnd_stk (s : State) (e : EdgeEnd) (f : LinkEnd → LinkEnd) : (modEnd s e f).stk = s.stk := rfl
@[simp] theorem modEnd_waitingReqs (s : State) (e : EdgeEnd) (f : LinkEnd → LinkEnd) : (modEnd s e f).waitingReqs = s.waitingReqs := rfl
@[simp] theorem modEnd_openReqs (s : State) (e : EdgeEnd) (f : LinkEnd → LinkEnd) : (modEnd s e f).openReqs = s.openReqs := rfl
@[simp] theorem modEnd_meshLost (s : State) (e : EdgeEnd) (f : LinkEnd → LinkEnd) : (modEnd s e f).meshLost = s.meshLost := rfl
@[simp] theorem modEnd_meshLate (s : State) (e : EdgeEnd) (f : LinkEnd → LinkEnd) : (modEnd s e f).meshLate = s.meshLate := rfl
@[simp] theorem modEnd_iodSeen (s : State) (e : EdgeEnd) (f : LinkEnd → LinkEnd) : (modEnd s e f).iodSeen = s.iodSeen := rfl
@[simp] theorem modEnd_guard (s : State) (e : EdgeEnd) (f : LinkEnd → LinkEnd) : (modEnd s e f).guard = s.guard := rfl
@[simp] theorem modEnd_upd (s : State) (e : EdgeEnd) (f : LinkEnd → LinkEnd) : (modEnd s e f).upd = s.upd := rfl
@[simp] theorem modEnd_exch (s : State) (e : EdgeEnd) (f : LinkEnd → LinkEnd) : (modEnd s e f).exch = s.exch := rfl
@[simp] theorem modEnd_memblk (s : State) (e : EdgeEnd) (f : LinkEnd → LinkEnd) : (modEnd s e f).memblk = s.memblk := rfl
@[simp] theorem modEnd_ckpt (s : State) (e : EdgeEnd) (f : LinkEnd → LinkEnd) : (modEnd s e f).ckpt = s.ckpt := rfl
@[simp] theorem modEnd_sync (s : State) (e : EdgeEnd) (f : LinkEnd → LinkEnd) : (modEnd s e f).sync = s.sync := rfl
@[simp] theorem modEnd_fab (s : State) (e : EdgeEnd) (f : LinkEnd → LinkEnd) : (modEnd s e f).fab = s.fab := rfl
@[simp] theorem modEnd_cmd (s : State) (e : EdgeEnd) (f : LinkEnd → LinkEnd) : (modEnd s e f).cmd = s.cmd := rfl
@[simp] theorem modEnd_twin (s : State) (e : EdgeEnd) (f : LinkEnd → LinkEnd) : (modEnd s e f).twin = s.twin := rfl
@[simp] theorem modEnd_cob (s : State) (e : EdgeEnd) (f : LinkEnd → LinkEnd) : (modEnd s e f).cob = s.cob := rfl
@[simp] theorem modEnd_power (s : State) (e : EdgeEnd) (f : LinkEnd → LinkEnd) : (modEnd s e f).power = s.power := rfl
@[simp] theorem modEnd_boot (s : State) (e : EdgeEnd) (f : LinkEnd → LinkEnd) : (modEnd s e f).boot = s.boot := rfl
@[simp] theorem modEnd_i3c (s : State) (e : EdgeEnd) (f : LinkEnd → LinkEnd) : (modEnd s e f).i3c = s.i3c := rfl
@[simp] theorem modEnd_tap (s : State) (e : EdgeEnd) (f : LinkEnd → LinkEnd) : (modEnd s e f).tap = s.tap := rfl
@[simp] theorem modEnd_savedGens (s : State) (e : EdgeEnd) (f : LinkEnd → LinkEnd) : (modEnd s e f).savedGens = s.savedGens := rfl
@[simp] theorem modEnd_lastStatus (s : State) (e : EdgeEnd) (f : LinkEnd → LinkEnd) : (modEnd s e f).lastStatus = s.lastStatus := rfl

/-! ### modEdge -/

@[simp] theorem modEdge_pending (s : State) (e : Nat) (f : LinkEnd → LinkEnd) : (modEdge s e f).pending = s.pending := rfl
@[simp] theorem modEdge_fresh (s : State) (e : Nat) (f : LinkEnd → LinkEnd) : (modEdge s e f).fresh = s.fresh := rfl
@[simp] theorem modEdge_mem (s : State) (e : Nat) (f : LinkEnd → LinkEnd) : (modEdge s e f).mem = s.mem := rfl
@[simp] theorem modEdge_poison (s : State) (e : Nat) (f : LinkEnd → LinkEnd) : (modEdge s e f).poison = s.poison := rfl
@[simp] theorem modEdge_pkgId (s : State) (e : Nat) (f : LinkEnd → LinkEnd) : (modEdge s e f).pkgId = s.pkgId := rfl
@[simp] theorem modEdge_inv (s : State) (e : Nat) (f : LinkEnd → LinkEnd) : (modEdge s e f).inv = s.inv := rfl
@[simp] theorem modEdge_clusters (s : State) (e : Nat) (f : LinkEnd → LinkEnd) : (modEdge s e f).clusters = s.clusters := rfl
@[simp] theorem modEdge_dies (s : State) (e : Nat) (f : LinkEnd → LinkEnd) : (modEdge s e f).dies = s.dies := rfl
@[simp] theorem modEdge_stk (s : State) (e : Nat) (f : LinkEnd → LinkEnd) : (modEdge s e f).stk = s.stk := rfl
@[simp] theorem modEdge_links (s : State) (e : Nat) (f : LinkEnd → LinkEnd) : (modEdge s e f).links = vmod s.links e (fun p => (f p.1, f p.2)) := rfl
@[simp] theorem modEdge_waitingReqs (s : State) (e : Nat) (f : LinkEnd → LinkEnd) : (modEdge s e f).waitingReqs = s.waitingReqs := rfl
@[simp] theorem modEdge_openReqs (s : State) (e : Nat) (f : LinkEnd → LinkEnd) : (modEdge s e f).openReqs = s.openReqs := rfl
@[simp] theorem modEdge_meshLost (s : State) (e : Nat) (f : LinkEnd → LinkEnd) : (modEdge s e f).meshLost = s.meshLost := rfl
@[simp] theorem modEdge_meshLate (s : State) (e : Nat) (f : LinkEnd → LinkEnd) : (modEdge s e f).meshLate = s.meshLate := rfl
@[simp] theorem modEdge_iodSeen (s : State) (e : Nat) (f : LinkEnd → LinkEnd) : (modEdge s e f).iodSeen = s.iodSeen := rfl
@[simp] theorem modEdge_guard (s : State) (e : Nat) (f : LinkEnd → LinkEnd) : (modEdge s e f).guard = s.guard := rfl
@[simp] theorem modEdge_upd (s : State) (e : Nat) (f : LinkEnd → LinkEnd) : (modEdge s e f).upd = s.upd := rfl
@[simp] theorem modEdge_exch (s : State) (e : Nat) (f : LinkEnd → LinkEnd) : (modEdge s e f).exch = s.exch := rfl
@[simp] theorem modEdge_memblk (s : State) (e : Nat) (f : LinkEnd → LinkEnd) : (modEdge s e f).memblk = s.memblk := rfl
@[simp] theorem modEdge_ckpt (s : State) (e : Nat) (f : LinkEnd → LinkEnd) : (modEdge s e f).ckpt = s.ckpt := rfl
@[simp] theorem modEdge_sync (s : State) (e : Nat) (f : LinkEnd → LinkEnd) : (modEdge s e f).sync = s.sync := rfl
@[simp] theorem modEdge_fab (s : State) (e : Nat) (f : LinkEnd → LinkEnd) : (modEdge s e f).fab = s.fab := rfl
@[simp] theorem modEdge_cmd (s : State) (e : Nat) (f : LinkEnd → LinkEnd) : (modEdge s e f).cmd = s.cmd := rfl
@[simp] theorem modEdge_twin (s : State) (e : Nat) (f : LinkEnd → LinkEnd) : (modEdge s e f).twin = s.twin := rfl
@[simp] theorem modEdge_cob (s : State) (e : Nat) (f : LinkEnd → LinkEnd) : (modEdge s e f).cob = s.cob := rfl
@[simp] theorem modEdge_power (s : State) (e : Nat) (f : LinkEnd → LinkEnd) : (modEdge s e f).power = s.power := rfl
@[simp] theorem modEdge_boot (s : State) (e : Nat) (f : LinkEnd → LinkEnd) : (modEdge s e f).boot = s.boot := rfl
@[simp] theorem modEdge_i3c (s : State) (e : Nat) (f : LinkEnd → LinkEnd) : (modEdge s e f).i3c = s.i3c := rfl
@[simp] theorem modEdge_tap (s : State) (e : Nat) (f : LinkEnd → LinkEnd) : (modEdge s e f).tap = s.tap := rfl
@[simp] theorem modEdge_savedGens (s : State) (e : Nat) (f : LinkEnd → LinkEnd) : (modEdge s e f).savedGens = s.savedGens := rfl
@[simp] theorem modEdge_lastStatus (s : State) (e : Nat) (f : LinkEnd → LinkEnd) : (modEdge s e f).lastStatus = s.lastStatus := rfl

/-! ### modBoot -/

@[simp] theorem modBoot_pending (s : State) (f : Boot → Boot) : (modBoot s f).pending = s.pending := rfl
@[simp] theorem modBoot_fresh (s : State) (f : Boot → Boot) : (modBoot s f).fresh = s.fresh := rfl
@[simp] theorem modBoot_mem (s : State) (f : Boot → Boot) : (modBoot s f).mem = s.mem := rfl
@[simp] theorem modBoot_poison (s : State) (f : Boot → Boot) : (modBoot s f).poison = s.poison := rfl
@[simp] theorem modBoot_pkgId (s : State) (f : Boot → Boot) : (modBoot s f).pkgId = s.pkgId := rfl
@[simp] theorem modBoot_inv (s : State) (f : Boot → Boot) : (modBoot s f).inv = s.inv := rfl
@[simp] theorem modBoot_clusters (s : State) (f : Boot → Boot) : (modBoot s f).clusters = s.clusters := rfl
@[simp] theorem modBoot_dies (s : State) (f : Boot → Boot) : (modBoot s f).dies = s.dies := rfl
@[simp] theorem modBoot_stk (s : State) (f : Boot → Boot) : (modBoot s f).stk = s.stk := rfl
@[simp] theorem modBoot_links (s : State) (f : Boot → Boot) : (modBoot s f).links = s.links := rfl
@[simp] theorem modBoot_waitingReqs (s : State) (f : Boot → Boot) : (modBoot s f).waitingReqs = s.waitingReqs := rfl
@[simp] theorem modBoot_openReqs (s : State) (f : Boot → Boot) : (modBoot s f).openReqs = s.openReqs := rfl
@[simp] theorem modBoot_meshLost (s : State) (f : Boot → Boot) : (modBoot s f).meshLost = s.meshLost := rfl
@[simp] theorem modBoot_meshLate (s : State) (f : Boot → Boot) : (modBoot s f).meshLate = s.meshLate := rfl
@[simp] theorem modBoot_iodSeen (s : State) (f : Boot → Boot) : (modBoot s f).iodSeen = s.iodSeen := rfl
@[simp] theorem modBoot_guard (s : State) (f : Boot → Boot) : (modBoot s f).guard = s.guard := rfl
@[simp] theorem modBoot_upd (s : State) (f : Boot → Boot) : (modBoot s f).upd = s.upd := rfl
@[simp] theorem modBoot_exch (s : State) (f : Boot → Boot) : (modBoot s f).exch = s.exch := rfl
@[simp] theorem modBoot_memblk (s : State) (f : Boot → Boot) : (modBoot s f).memblk = s.memblk := rfl
@[simp] theorem modBoot_ckpt (s : State) (f : Boot → Boot) : (modBoot s f).ckpt = s.ckpt := rfl
@[simp] theorem modBoot_sync (s : State) (f : Boot → Boot) : (modBoot s f).sync = s.sync := rfl
@[simp] theorem modBoot_fab (s : State) (f : Boot → Boot) : (modBoot s f).fab = s.fab := rfl
@[simp] theorem modBoot_cmd (s : State) (f : Boot → Boot) : (modBoot s f).cmd = s.cmd := rfl
@[simp] theorem modBoot_twin (s : State) (f : Boot → Boot) : (modBoot s f).twin = s.twin := rfl
@[simp] theorem modBoot_cob (s : State) (f : Boot → Boot) : (modBoot s f).cob = s.cob := rfl
@[simp] theorem modBoot_power (s : State) (f : Boot → Boot) : (modBoot s f).power = s.power := rfl
@[simp] theorem modBoot_boot (s : State) (f : Boot → Boot) : (modBoot s f).boot = f s.boot := rfl
@[simp] theorem modBoot_i3c (s : State) (f : Boot → Boot) : (modBoot s f).i3c = s.i3c := rfl
@[simp] theorem modBoot_tap (s : State) (f : Boot → Boot) : (modBoot s f).tap = s.tap := rfl
@[simp] theorem modBoot_savedGens (s : State) (f : Boot → Boot) : (modBoot s f).savedGens = s.savedGens := rfl
@[simp] theorem modBoot_lastStatus (s : State) (f : Boot → Boot) : (modBoot s f).lastStatus = s.lastStatus := rfl

/-! ### modPower -/

@[simp] theorem modPower_pending (s : State) (f : Power → Power) : (modPower s f).pending = s.pending := rfl
@[simp] theorem modPower_fresh (s : State) (f : Power → Power) : (modPower s f).fresh = s.fresh := rfl
@[simp] theorem modPower_mem (s : State) (f : Power → Power) : (modPower s f).mem = s.mem := rfl
@[simp] theorem modPower_poison (s : State) (f : Power → Power) : (modPower s f).poison = s.poison := rfl
@[simp] theorem modPower_pkgId (s : State) (f : Power → Power) : (modPower s f).pkgId = s.pkgId := rfl
@[simp] theorem modPower_inv (s : State) (f : Power → Power) : (modPower s f).inv = s.inv := rfl
@[simp] theorem modPower_clusters (s : State) (f : Power → Power) : (modPower s f).clusters = s.clusters := rfl
@[simp] theorem modPower_dies (s : State) (f : Power → Power) : (modPower s f).dies = s.dies := rfl
@[simp] theorem modPower_stk (s : State) (f : Power → Power) : (modPower s f).stk = s.stk := rfl
@[simp] theorem modPower_links (s : State) (f : Power → Power) : (modPower s f).links = s.links := rfl
@[simp] theorem modPower_waitingReqs (s : State) (f : Power → Power) : (modPower s f).waitingReqs = s.waitingReqs := rfl
@[simp] theorem modPower_openReqs (s : State) (f : Power → Power) : (modPower s f).openReqs = s.openReqs := rfl
@[simp] theorem modPower_meshLost (s : State) (f : Power → Power) : (modPower s f).meshLost = s.meshLost := rfl
@[simp] theorem modPower_meshLate (s : State) (f : Power → Power) : (modPower s f).meshLate = s.meshLate := rfl
@[simp] theorem modPower_iodSeen (s : State) (f : Power → Power) : (modPower s f).iodSeen = s.iodSeen := rfl
@[simp] theorem modPower_guard (s : State) (f : Power → Power) : (modPower s f).guard = s.guard := rfl
@[simp] theorem modPower_upd (s : State) (f : Power → Power) : (modPower s f).upd = s.upd := rfl
@[simp] theorem modPower_exch (s : State) (f : Power → Power) : (modPower s f).exch = s.exch := rfl
@[simp] theorem modPower_memblk (s : State) (f : Power → Power) : (modPower s f).memblk = s.memblk := rfl
@[simp] theorem modPower_ckpt (s : State) (f : Power → Power) : (modPower s f).ckpt = s.ckpt := rfl
@[simp] theorem modPower_sync (s : State) (f : Power → Power) : (modPower s f).sync = s.sync := rfl
@[simp] theorem modPower_fab (s : State) (f : Power → Power) : (modPower s f).fab = s.fab := rfl
@[simp] theorem modPower_cmd (s : State) (f : Power → Power) : (modPower s f).cmd = s.cmd := rfl
@[simp] theorem modPower_twin (s : State) (f : Power → Power) : (modPower s f).twin = s.twin := rfl
@[simp] theorem modPower_cob (s : State) (f : Power → Power) : (modPower s f).cob = s.cob := rfl
@[simp] theorem modPower_power (s : State) (f : Power → Power) : (modPower s f).power = f s.power := rfl
@[simp] theorem modPower_boot (s : State) (f : Power → Power) : (modPower s f).boot = s.boot := rfl
@[simp] theorem modPower_i3c (s : State) (f : Power → Power) : (modPower s f).i3c = s.i3c := rfl
@[simp] theorem modPower_tap (s : State) (f : Power → Power) : (modPower s f).tap = s.tap := rfl
@[simp] theorem modPower_savedGens (s : State) (f : Power → Power) : (modPower s f).savedGens = s.savedGens := rfl
@[simp] theorem modPower_lastStatus (s : State) (f : Power → Power) : (modPower s f).lastStatus = s.lastStatus := rfl

/-! ### modInvar -/

@[simp] theorem modInvar_pending (s : State) (f : Invar → Invar) : (modInvar s f).pending = s.pending := rfl
@[simp] theorem modInvar_fresh (s : State) (f : Invar → Invar) : (modInvar s f).fresh = s.fresh := rfl
@[simp] theorem modInvar_mem (s : State) (f : Invar → Invar) : (modInvar s f).mem = s.mem := rfl
@[simp] theorem modInvar_poison (s : State) (f : Invar → Invar) : (modInvar s f).poison = s.poison := rfl
@[simp] theorem modInvar_pkgId (s : State) (f : Invar → Invar) : (modInvar s f).pkgId = s.pkgId := rfl
@[simp] theorem modInvar_inv (s : State) (f : Invar → Invar) : (modInvar s f).inv = f s.inv := rfl
@[simp] theorem modInvar_clusters (s : State) (f : Invar → Invar) : (modInvar s f).clusters = s.clusters := rfl
@[simp] theorem modInvar_dies (s : State) (f : Invar → Invar) : (modInvar s f).dies = s.dies := rfl
@[simp] theorem modInvar_stk (s : State) (f : Invar → Invar) : (modInvar s f).stk = s.stk := rfl
@[simp] theorem modInvar_links (s : State) (f : Invar → Invar) : (modInvar s f).links = s.links := rfl
@[simp] theorem modInvar_waitingReqs (s : State) (f : Invar → Invar) : (modInvar s f).waitingReqs = s.waitingReqs := rfl
@[simp] theorem modInvar_openReqs (s : State) (f : Invar → Invar) : (modInvar s f).openReqs = s.openReqs := rfl
@[simp] theorem modInvar_meshLost (s : State) (f : Invar → Invar) : (modInvar s f).meshLost = s.meshLost := rfl
@[simp] theorem modInvar_meshLate (s : State) (f : Invar → Invar) : (modInvar s f).meshLate = s.meshLate := rfl
@[simp] theorem modInvar_iodSeen (s : State) (f : Invar → Invar) : (modInvar s f).iodSeen = s.iodSeen := rfl
@[simp] theorem modInvar_guard (s : State) (f : Invar → Invar) : (modInvar s f).guard = s.guard := rfl
@[simp] theorem modInvar_upd (s : State) (f : Invar → Invar) : (modInvar s f).upd = s.upd := rfl
@[simp] theorem modInvar_exch (s : State) (f : Invar → Invar) : (modInvar s f).exch = s.exch := rfl
@[simp] theorem modInvar_memblk (s : State) (f : Invar → Invar) : (modInvar s f).memblk = s.memblk := rfl
@[simp] theorem modInvar_ckpt (s : State) (f : Invar → Invar) : (modInvar s f).ckpt = s.ckpt := rfl
@[simp] theorem modInvar_sync (s : State) (f : Invar → Invar) : (modInvar s f).sync = s.sync := rfl
@[simp] theorem modInvar_fab (s : State) (f : Invar → Invar) : (modInvar s f).fab = s.fab := rfl
@[simp] theorem modInvar_cmd (s : State) (f : Invar → Invar) : (modInvar s f).cmd = s.cmd := rfl
@[simp] theorem modInvar_twin (s : State) (f : Invar → Invar) : (modInvar s f).twin = s.twin := rfl
@[simp] theorem modInvar_cob (s : State) (f : Invar → Invar) : (modInvar s f).cob = s.cob := rfl
@[simp] theorem modInvar_power (s : State) (f : Invar → Invar) : (modInvar s f).power = s.power := rfl
@[simp] theorem modInvar_boot (s : State) (f : Invar → Invar) : (modInvar s f).boot = s.boot := rfl
@[simp] theorem modInvar_i3c (s : State) (f : Invar → Invar) : (modInvar s f).i3c = s.i3c := rfl
@[simp] theorem modInvar_tap (s : State) (f : Invar → Invar) : (modInvar s f).tap = s.tap := rfl
@[simp] theorem modInvar_savedGens (s : State) (f : Invar → Invar) : (modInvar s f).savedGens = s.savedGens := rfl
@[simp] theorem modInvar_lastStatus (s : State) (f : Invar → Invar) : (modInvar s f).lastStatus = s.lastStatus := rfl

/-! ### modCmd -/

@[simp] theorem modCmd_pending (s : State) (f : Cmd → Cmd) : (modCmd s f).pending = s.pending := rfl
@[simp] theorem modCmd_fresh (s : State) (f : Cmd → Cmd) : (modCmd s f).fresh = s.fresh := rfl
@[simp] theorem modCmd_mem (s : State) (f : Cmd → Cmd) : (modCmd s f).mem = s.mem := rfl
@[simp] theorem modCmd_poison (s : State) (f : Cmd → Cmd) : (modCmd s f).poison = s.poison := rfl
@[simp] theorem modCmd_pkgId (s : State) (f : Cmd → Cmd) : (modCmd s f).pkgId = s.pkgId := rfl
@[simp] theorem modCmd_inv (s : State) (f : Cmd → Cmd) : (modCmd s f).inv = s.inv := rfl
@[simp] theorem modCmd_clusters (s : State) (f : Cmd → Cmd) : (modCmd s f).clusters = s.clusters := rfl
@[simp] theorem modCmd_dies (s : State) (f : Cmd → Cmd) : (modCmd s f).dies = s.dies := rfl
@[simp] theorem modCmd_stk (s : State) (f : Cmd → Cmd) : (modCmd s f).stk = s.stk := rfl
@[simp] theorem modCmd_links (s : State) (f : Cmd → Cmd) : (modCmd s f).links = s.links := rfl
@[simp] theorem modCmd_waitingReqs (s : State) (f : Cmd → Cmd) : (modCmd s f).waitingReqs = s.waitingReqs := rfl
@[simp] theorem modCmd_openReqs (s : State) (f : Cmd → Cmd) : (modCmd s f).openReqs = s.openReqs := rfl
@[simp] theorem modCmd_meshLost (s : State) (f : Cmd → Cmd) : (modCmd s f).meshLost = s.meshLost := rfl
@[simp] theorem modCmd_meshLate (s : State) (f : Cmd → Cmd) : (modCmd s f).meshLate = s.meshLate := rfl
@[simp] theorem modCmd_iodSeen (s : State) (f : Cmd → Cmd) : (modCmd s f).iodSeen = s.iodSeen := rfl
@[simp] theorem modCmd_guard (s : State) (f : Cmd → Cmd) : (modCmd s f).guard = s.guard := rfl
@[simp] theorem modCmd_upd (s : State) (f : Cmd → Cmd) : (modCmd s f).upd = s.upd := rfl
@[simp] theorem modCmd_exch (s : State) (f : Cmd → Cmd) : (modCmd s f).exch = s.exch := rfl
@[simp] theorem modCmd_memblk (s : State) (f : Cmd → Cmd) : (modCmd s f).memblk = s.memblk := rfl
@[simp] theorem modCmd_ckpt (s : State) (f : Cmd → Cmd) : (modCmd s f).ckpt = s.ckpt := rfl
@[simp] theorem modCmd_sync (s : State) (f : Cmd → Cmd) : (modCmd s f).sync = s.sync := rfl
@[simp] theorem modCmd_fab (s : State) (f : Cmd → Cmd) : (modCmd s f).fab = s.fab := rfl
@[simp] theorem modCmd_cmd (s : State) (f : Cmd → Cmd) : (modCmd s f).cmd = f s.cmd := rfl
@[simp] theorem modCmd_twin (s : State) (f : Cmd → Cmd) : (modCmd s f).twin = s.twin := rfl
@[simp] theorem modCmd_cob (s : State) (f : Cmd → Cmd) : (modCmd s f).cob = s.cob := rfl
@[simp] theorem modCmd_power (s : State) (f : Cmd → Cmd) : (modCmd s f).power = s.power := rfl
@[simp] theorem modCmd_boot (s : State) (f : Cmd → Cmd) : (modCmd s f).boot = s.boot := rfl
@[simp] theorem modCmd_i3c (s : State) (f : Cmd → Cmd) : (modCmd s f).i3c = s.i3c := rfl
@[simp] theorem modCmd_tap (s : State) (f : Cmd → Cmd) : (modCmd s f).tap = s.tap := rfl
@[simp] theorem modCmd_savedGens (s : State) (f : Cmd → Cmd) : (modCmd s f).savedGens = s.savedGens := rfl
@[simp] theorem modCmd_lastStatus (s : State) (f : Cmd → Cmd) : (modCmd s f).lastStatus = s.lastStatus := rfl

/-! ### modCob -/

@[simp] theorem modCob_pending (s : State) (f : Cob → Cob) : (modCob s f).pending = s.pending := rfl
@[simp] theorem modCob_fresh (s : State) (f : Cob → Cob) : (modCob s f).fresh = s.fresh := rfl
@[simp] theorem modCob_mem (s : State) (f : Cob → Cob) : (modCob s f).mem = s.mem := rfl
@[simp] theorem modCob_poison (s : State) (f : Cob → Cob) : (modCob s f).poison = s.poison := rfl
@[simp] theorem modCob_pkgId (s : State) (f : Cob → Cob) : (modCob s f).pkgId = s.pkgId := rfl
@[simp] theorem modCob_inv (s : State) (f : Cob → Cob) : (modCob s f).inv = s.inv := rfl
@[simp] theorem modCob_clusters (s : State) (f : Cob → Cob) : (modCob s f).clusters = s.clusters := rfl
@[simp] theorem modCob_dies (s : State) (f : Cob → Cob) : (modCob s f).dies = s.dies := rfl
@[simp] theorem modCob_stk (s : State) (f : Cob → Cob) : (modCob s f).stk = s.stk := rfl
@[simp] theorem modCob_links (s : State) (f : Cob → Cob) : (modCob s f).links = s.links := rfl
@[simp] theorem modCob_waitingReqs (s : State) (f : Cob → Cob) : (modCob s f).waitingReqs = s.waitingReqs := rfl
@[simp] theorem modCob_openReqs (s : State) (f : Cob → Cob) : (modCob s f).openReqs = s.openReqs := rfl
@[simp] theorem modCob_meshLost (s : State) (f : Cob → Cob) : (modCob s f).meshLost = s.meshLost := rfl
@[simp] theorem modCob_meshLate (s : State) (f : Cob → Cob) : (modCob s f).meshLate = s.meshLate := rfl
@[simp] theorem modCob_iodSeen (s : State) (f : Cob → Cob) : (modCob s f).iodSeen = s.iodSeen := rfl
@[simp] theorem modCob_guard (s : State) (f : Cob → Cob) : (modCob s f).guard = s.guard := rfl
@[simp] theorem modCob_upd (s : State) (f : Cob → Cob) : (modCob s f).upd = s.upd := rfl
@[simp] theorem modCob_exch (s : State) (f : Cob → Cob) : (modCob s f).exch = s.exch := rfl
@[simp] theorem modCob_memblk (s : State) (f : Cob → Cob) : (modCob s f).memblk = s.memblk := rfl
@[simp] theorem modCob_ckpt (s : State) (f : Cob → Cob) : (modCob s f).ckpt = s.ckpt := rfl
@[simp] theorem modCob_sync (s : State) (f : Cob → Cob) : (modCob s f).sync = s.sync := rfl
@[simp] theorem modCob_fab (s : State) (f : Cob → Cob) : (modCob s f).fab = s.fab := rfl
@[simp] theorem modCob_cmd (s : State) (f : Cob → Cob) : (modCob s f).cmd = s.cmd := rfl
@[simp] theorem modCob_twin (s : State) (f : Cob → Cob) : (modCob s f).twin = s.twin := rfl
@[simp] theorem modCob_cob (s : State) (f : Cob → Cob) : (modCob s f).cob = f s.cob := rfl
@[simp] theorem modCob_power (s : State) (f : Cob → Cob) : (modCob s f).power = s.power := rfl
@[simp] theorem modCob_boot (s : State) (f : Cob → Cob) : (modCob s f).boot = s.boot := rfl
@[simp] theorem modCob_i3c (s : State) (f : Cob → Cob) : (modCob s f).i3c = s.i3c := rfl
@[simp] theorem modCob_tap (s : State) (f : Cob → Cob) : (modCob s f).tap = s.tap := rfl
@[simp] theorem modCob_savedGens (s : State) (f : Cob → Cob) : (modCob s f).savedGens = s.savedGens := rfl
@[simp] theorem modCob_lastStatus (s : State) (f : Cob → Cob) : (modCob s f).lastStatus = s.lastStatus := rfl

/-! ### modUpd -/

@[simp] theorem modUpd_pending (s : State) (f : Upd → Upd) : (modUpd s f).pending = s.pending := rfl
@[simp] theorem modUpd_fresh (s : State) (f : Upd → Upd) : (modUpd s f).fresh = s.fresh := rfl
@[simp] theorem modUpd_mem (s : State) (f : Upd → Upd) : (modUpd s f).mem = s.mem := rfl
@[simp] theorem modUpd_poison (s : State) (f : Upd → Upd) : (modUpd s f).poison = s.poison := rfl
@[simp] theorem modUpd_pkgId (s : State) (f : Upd → Upd) : (modUpd s f).pkgId = s.pkgId := rfl
@[simp] theorem modUpd_inv (s : State) (f : Upd → Upd) : (modUpd s f).inv = s.inv := rfl
@[simp] theorem modUpd_clusters (s : State) (f : Upd → Upd) : (modUpd s f).clusters = s.clusters := rfl
@[simp] theorem modUpd_dies (s : State) (f : Upd → Upd) : (modUpd s f).dies = s.dies := rfl
@[simp] theorem modUpd_stk (s : State) (f : Upd → Upd) : (modUpd s f).stk = s.stk := rfl
@[simp] theorem modUpd_links (s : State) (f : Upd → Upd) : (modUpd s f).links = s.links := rfl
@[simp] theorem modUpd_waitingReqs (s : State) (f : Upd → Upd) : (modUpd s f).waitingReqs = s.waitingReqs := rfl
@[simp] theorem modUpd_openReqs (s : State) (f : Upd → Upd) : (modUpd s f).openReqs = s.openReqs := rfl
@[simp] theorem modUpd_meshLost (s : State) (f : Upd → Upd) : (modUpd s f).meshLost = s.meshLost := rfl
@[simp] theorem modUpd_meshLate (s : State) (f : Upd → Upd) : (modUpd s f).meshLate = s.meshLate := rfl
@[simp] theorem modUpd_iodSeen (s : State) (f : Upd → Upd) : (modUpd s f).iodSeen = s.iodSeen := rfl
@[simp] theorem modUpd_guard (s : State) (f : Upd → Upd) : (modUpd s f).guard = s.guard := rfl
@[simp] theorem modUpd_upd (s : State) (f : Upd → Upd) : (modUpd s f).upd = f s.upd := rfl
@[simp] theorem modUpd_exch (s : State) (f : Upd → Upd) : (modUpd s f).exch = s.exch := rfl
@[simp] theorem modUpd_memblk (s : State) (f : Upd → Upd) : (modUpd s f).memblk = s.memblk := rfl
@[simp] theorem modUpd_ckpt (s : State) (f : Upd → Upd) : (modUpd s f).ckpt = s.ckpt := rfl
@[simp] theorem modUpd_sync (s : State) (f : Upd → Upd) : (modUpd s f).sync = s.sync := rfl
@[simp] theorem modUpd_fab (s : State) (f : Upd → Upd) : (modUpd s f).fab = s.fab := rfl
@[simp] theorem modUpd_cmd (s : State) (f : Upd → Upd) : (modUpd s f).cmd = s.cmd := rfl
@[simp] theorem modUpd_twin (s : State) (f : Upd → Upd) : (modUpd s f).twin = s.twin := rfl
@[simp] theorem modUpd_cob (s : State) (f : Upd → Upd) : (modUpd s f).cob = s.cob := rfl
@[simp] theorem modUpd_power (s : State) (f : Upd → Upd) : (modUpd s f).power = s.power := rfl
@[simp] theorem modUpd_boot (s : State) (f : Upd → Upd) : (modUpd s f).boot = s.boot := rfl
@[simp] theorem modUpd_i3c (s : State) (f : Upd → Upd) : (modUpd s f).i3c = s.i3c := rfl
@[simp] theorem modUpd_tap (s : State) (f : Upd → Upd) : (modUpd s f).tap = s.tap := rfl
@[simp] theorem modUpd_savedGens (s : State) (f : Upd → Upd) : (modUpd s f).savedGens = s.savedGens := rfl
@[simp] theorem modUpd_lastStatus (s : State) (f : Upd → Upd) : (modUpd s f).lastStatus = s.lastStatus := rfl

/-! ### modMem -/

@[simp] theorem modMem_pending (s : State) (f : MemBlk → MemBlk) : (modMem s f).pending = s.pending := rfl
@[simp] theorem modMem_fresh (s : State) (f : MemBlk → MemBlk) : (modMem s f).fresh = s.fresh := rfl
@[simp] theorem modMem_mem (s : State) (f : MemBlk → MemBlk) : (modMem s f).mem = s.mem := rfl
@[simp] theorem modMem_poison (s : State) (f : MemBlk → MemBlk) : (modMem s f).poison = s.poison := rfl
@[simp] theorem modMem_pkgId (s : State) (f : MemBlk → MemBlk) : (modMem s f).pkgId = s.pkgId := rfl
@[simp] theorem modMem_inv (s : State) (f : MemBlk → MemBlk) : (modMem s f).inv = s.inv := rfl
@[simp] theorem modMem_clusters (s : State) (f : MemBlk → MemBlk) : (modMem s f).clusters = s.clusters := rfl
@[simp] theorem modMem_dies (s : State) (f : MemBlk → MemBlk) : (modMem s f).dies = s.dies := rfl
@[simp] theorem modMem_stk (s : State) (f : MemBlk → MemBlk) : (modMem s f).stk = s.stk := rfl
@[simp] theorem modMem_links (s : State) (f : MemBlk → MemBlk) : (modMem s f).links = s.links := rfl
@[simp] theorem modMem_waitingReqs (s : State) (f : MemBlk → MemBlk) : (modMem s f).waitingReqs = s.waitingReqs := rfl
@[simp] theorem modMem_openReqs (s : State) (f : MemBlk → MemBlk) : (modMem s f).openReqs = s.openReqs := rfl
@[simp] theorem modMem_meshLost (s : State) (f : MemBlk → MemBlk) : (modMem s f).meshLost = s.meshLost := rfl
@[simp] theorem modMem_meshLate (s : State) (f : MemBlk → MemBlk) : (modMem s f).meshLate = s.meshLate := rfl
@[simp] theorem modMem_iodSeen (s : State) (f : MemBlk → MemBlk) : (modMem s f).iodSeen = s.iodSeen := rfl
@[simp] theorem modMem_guard (s : State) (f : MemBlk → MemBlk) : (modMem s f).guard = s.guard := rfl
@[simp] theorem modMem_upd (s : State) (f : MemBlk → MemBlk) : (modMem s f).upd = s.upd := rfl
@[simp] theorem modMem_exch (s : State) (f : MemBlk → MemBlk) : (modMem s f).exch = s.exch := rfl
@[simp] theorem modMem_memblk (s : State) (f : MemBlk → MemBlk) : (modMem s f).memblk = f s.memblk := rfl
@[simp] theorem modMem_ckpt (s : State) (f : MemBlk → MemBlk) : (modMem s f).ckpt = s.ckpt := rfl
@[simp] theorem modMem_sync (s : State) (f : MemBlk → MemBlk) : (modMem s f).sync = s.sync := rfl
@[simp] theorem modMem_fab (s : State) (f : MemBlk → MemBlk) : (modMem s f).fab = s.fab := rfl
@[simp] theorem modMem_cmd (s : State) (f : MemBlk → MemBlk) : (modMem s f).cmd = s.cmd := rfl
@[simp] theorem modMem_twin (s : State) (f : MemBlk → MemBlk) : (modMem s f).twin = s.twin := rfl
@[simp] theorem modMem_cob (s : State) (f : MemBlk → MemBlk) : (modMem s f).cob = s.cob := rfl
@[simp] theorem modMem_power (s : State) (f : MemBlk → MemBlk) : (modMem s f).power = s.power := rfl
@[simp] theorem modMem_boot (s : State) (f : MemBlk → MemBlk) : (modMem s f).boot = s.boot := rfl
@[simp] theorem modMem_i3c (s : State) (f : MemBlk → MemBlk) : (modMem s f).i3c = s.i3c := rfl
@[simp] theorem modMem_tap (s : State) (f : MemBlk → MemBlk) : (modMem s f).tap = s.tap := rfl
@[simp] theorem modMem_savedGens (s : State) (f : MemBlk → MemBlk) : (modMem s f).savedGens = s.savedGens := rfl
@[simp] theorem modMem_lastStatus (s : State) (f : MemBlk → MemBlk) : (modMem s f).lastStatus = s.lastStatus := rfl

/-! ### modExch -/

@[simp] theorem modExch_pending (s : State) (f : Exch → Exch) : (modExch s f).pending = s.pending := rfl
@[simp] theorem modExch_fresh (s : State) (f : Exch → Exch) : (modExch s f).fresh = s.fresh := rfl
@[simp] theorem modExch_mem (s : State) (f : Exch → Exch) : (modExch s f).mem = s.mem := rfl
@[simp] theorem modExch_poison (s : State) (f : Exch → Exch) : (modExch s f).poison = s.poison := rfl
@[simp] theorem modExch_pkgId (s : State) (f : Exch → Exch) : (modExch s f).pkgId = s.pkgId := rfl
@[simp] theorem modExch_inv (s : State) (f : Exch → Exch) : (modExch s f).inv = s.inv := rfl
@[simp] theorem modExch_clusters (s : State) (f : Exch → Exch) : (modExch s f).clusters = s.clusters := rfl
@[simp] theorem modExch_dies (s : State) (f : Exch → Exch) : (modExch s f).dies = s.dies := rfl
@[simp] theorem modExch_stk (s : State) (f : Exch → Exch) : (modExch s f).stk = s.stk := rfl
@[simp] theorem modExch_links (s : State) (f : Exch → Exch) : (modExch s f).links = s.links := rfl
@[simp] theorem modExch_waitingReqs (s : State) (f : Exch → Exch) : (modExch s f).waitingReqs = s.waitingReqs := rfl
@[simp] theorem modExch_openReqs (s : State) (f : Exch → Exch) : (modExch s f).openReqs = s.openReqs := rfl
@[simp] theorem modExch_meshLost (s : State) (f : Exch → Exch) : (modExch s f).meshLost = s.meshLost := rfl
@[simp] theorem modExch_meshLate (s : State) (f : Exch → Exch) : (modExch s f).meshLate = s.meshLate := rfl
@[simp] theorem modExch_iodSeen (s : State) (f : Exch → Exch) : (modExch s f).iodSeen = s.iodSeen := rfl
@[simp] theorem modExch_guard (s : State) (f : Exch → Exch) : (modExch s f).guard = s.guard := rfl
@[simp] theorem modExch_upd (s : State) (f : Exch → Exch) : (modExch s f).upd = s.upd := rfl
@[simp] theorem modExch_exch (s : State) (f : Exch → Exch) : (modExch s f).exch = f s.exch := rfl
@[simp] theorem modExch_memblk (s : State) (f : Exch → Exch) : (modExch s f).memblk = s.memblk := rfl
@[simp] theorem modExch_ckpt (s : State) (f : Exch → Exch) : (modExch s f).ckpt = s.ckpt := rfl
@[simp] theorem modExch_sync (s : State) (f : Exch → Exch) : (modExch s f).sync = s.sync := rfl
@[simp] theorem modExch_fab (s : State) (f : Exch → Exch) : (modExch s f).fab = s.fab := rfl
@[simp] theorem modExch_cmd (s : State) (f : Exch → Exch) : (modExch s f).cmd = s.cmd := rfl
@[simp] theorem modExch_twin (s : State) (f : Exch → Exch) : (modExch s f).twin = s.twin := rfl
@[simp] theorem modExch_cob (s : State) (f : Exch → Exch) : (modExch s f).cob = s.cob := rfl
@[simp] theorem modExch_power (s : State) (f : Exch → Exch) : (modExch s f).power = s.power := rfl
@[simp] theorem modExch_boot (s : State) (f : Exch → Exch) : (modExch s f).boot = s.boot := rfl
@[simp] theorem modExch_i3c (s : State) (f : Exch → Exch) : (modExch s f).i3c = s.i3c := rfl
@[simp] theorem modExch_tap (s : State) (f : Exch → Exch) : (modExch s f).tap = s.tap := rfl
@[simp] theorem modExch_savedGens (s : State) (f : Exch → Exch) : (modExch s f).savedGens = s.savedGens := rfl
@[simp] theorem modExch_lastStatus (s : State) (f : Exch → Exch) : (modExch s f).lastStatus = s.lastStatus := rfl

/-! ### modTwin -/

@[simp] theorem modTwin_pending (s : State) (f : Twin → Twin) : (modTwin s f).pending = s.pending := rfl
@[simp] theorem modTwin_fresh (s : State) (f : Twin → Twin) : (modTwin s f).fresh = s.fresh := rfl
@[simp] theorem modTwin_mem (s : State) (f : Twin → Twin) : (modTwin s f).mem = s.mem := rfl
@[simp] theorem modTwin_poison (s : State) (f : Twin → Twin) : (modTwin s f).poison = s.poison := rfl
@[simp] theorem modTwin_pkgId (s : State) (f : Twin → Twin) : (modTwin s f).pkgId = s.pkgId := rfl
@[simp] theorem modTwin_inv (s : State) (f : Twin → Twin) : (modTwin s f).inv = s.inv := rfl
@[simp] theorem modTwin_clusters (s : State) (f : Twin → Twin) : (modTwin s f).clusters = s.clusters := rfl
@[simp] theorem modTwin_dies (s : State) (f : Twin → Twin) : (modTwin s f).dies = s.dies := rfl
@[simp] theorem modTwin_stk (s : State) (f : Twin → Twin) : (modTwin s f).stk = s.stk := rfl
@[simp] theorem modTwin_links (s : State) (f : Twin → Twin) : (modTwin s f).links = s.links := rfl
@[simp] theorem modTwin_waitingReqs (s : State) (f : Twin → Twin) : (modTwin s f).waitingReqs = s.waitingReqs := rfl
@[simp] theorem modTwin_openReqs (s : State) (f : Twin → Twin) : (modTwin s f).openReqs = s.openReqs := rfl
@[simp] theorem modTwin_meshLost (s : State) (f : Twin → Twin) : (modTwin s f).meshLost = s.meshLost := rfl
@[simp] theorem modTwin_meshLate (s : State) (f : Twin → Twin) : (modTwin s f).meshLate = s.meshLate := rfl
@[simp] theorem modTwin_iodSeen (s : State) (f : Twin → Twin) : (modTwin s f).iodSeen = s.iodSeen := rfl
@[simp] theorem modTwin_guard (s : State) (f : Twin → Twin) : (modTwin s f).guard = s.guard := rfl
@[simp] theorem modTwin_upd (s : State) (f : Twin → Twin) : (modTwin s f).upd = s.upd := rfl
@[simp] theorem modTwin_exch (s : State) (f : Twin → Twin) : (modTwin s f).exch = s.exch := rfl
@[simp] theorem modTwin_memblk (s : State) (f : Twin → Twin) : (modTwin s f).memblk = s.memblk := rfl
@[simp] theorem modTwin_ckpt (s : State) (f : Twin → Twin) : (modTwin s f).ckpt = s.ckpt := rfl
@[simp] theorem modTwin_sync (s : State) (f : Twin → Twin) : (modTwin s f).sync = s.sync := rfl
@[simp] theorem modTwin_fab (s : State) (f : Twin → Twin) : (modTwin s f).fab = s.fab := rfl
@[simp] theorem modTwin_cmd (s : State) (f : Twin → Twin) : (modTwin s f).cmd = s.cmd := rfl
@[simp] theorem modTwin_twin (s : State) (f : Twin → Twin) : (modTwin s f).twin = f s.twin := rfl
@[simp] theorem modTwin_cob (s : State) (f : Twin → Twin) : (modTwin s f).cob = s.cob := rfl
@[simp] theorem modTwin_power (s : State) (f : Twin → Twin) : (modTwin s f).power = s.power := rfl
@[simp] theorem modTwin_boot (s : State) (f : Twin → Twin) : (modTwin s f).boot = s.boot := rfl
@[simp] theorem modTwin_i3c (s : State) (f : Twin → Twin) : (modTwin s f).i3c = s.i3c := rfl
@[simp] theorem modTwin_tap (s : State) (f : Twin → Twin) : (modTwin s f).tap = s.tap := rfl
@[simp] theorem modTwin_savedGens (s : State) (f : Twin → Twin) : (modTwin s f).savedGens = s.savedGens := rfl
@[simp] theorem modTwin_lastStatus (s : State) (f : Twin → Twin) : (modTwin s f).lastStatus = s.lastStatus := rfl

/-! ### modCkpt -/

@[simp] theorem modCkpt_pending (s : State) (f : Ckpt → Ckpt) : (modCkpt s f).pending = s.pending := rfl
@[simp] theorem modCkpt_fresh (s : State) (f : Ckpt → Ckpt) : (modCkpt s f).fresh = s.fresh := rfl
@[simp] theorem modCkpt_mem (s : State) (f : Ckpt → Ckpt) : (modCkpt s f).mem = s.mem := rfl
@[simp] theorem modCkpt_poison (s : State) (f : Ckpt → Ckpt) : (modCkpt s f).poison = s.poison := rfl
@[simp] theorem modCkpt_pkgId (s : State) (f : Ckpt → Ckpt) : (modCkpt s f).pkgId = s.pkgId := rfl
@[simp] theorem modCkpt_inv (s : State) (f : Ckpt → Ckpt) : (modCkpt s f).inv = s.inv := rfl
@[simp] theorem modCkpt_clusters (s : State) (f : Ckpt → Ckpt) : (modCkpt s f).clusters = s.clusters := rfl
@[simp] theorem modCkpt_dies (s : State) (f : Ckpt → Ckpt) : (modCkpt s f).dies = s.dies := rfl
@[simp] theorem modCkpt_stk (s : State) (f : Ckpt → Ckpt) : (modCkpt s f).stk = s.stk := rfl
@[simp] theorem modCkpt_links (s : State) (f : Ckpt → Ckpt) : (modCkpt s f).links = s.links := rfl
@[simp] theorem modCkpt_waitingReqs (s : State) (f : Ckpt → Ckpt) : (modCkpt s f).waitingReqs = s.waitingReqs := rfl
@[simp] theorem modCkpt_openReqs (s : State) (f : Ckpt → Ckpt) : (modCkpt s f).openReqs = s.openReqs := rfl
@[simp] theorem modCkpt_meshLost (s : State) (f : Ckpt → Ckpt) : (modCkpt s f).meshLost = s.meshLost := rfl
@[simp] theorem modCkpt_meshLate (s : State) (f : Ckpt → Ckpt) : (modCkpt s f).meshLate = s.meshLate := rfl
@[simp] theorem modCkpt_iodSeen (s : State) (f : Ckpt → Ckpt) : (modCkpt s f).iodSeen = s.iodSeen := rfl
@[simp] theorem modCkpt_guard (s : State) (f : Ckpt → Ckpt) : (modCkpt s f).guard = s.guard := rfl
@[simp] theorem modCkpt_upd (s : State) (f : Ckpt → Ckpt) : (modCkpt s f).upd = s.upd := rfl
@[simp] theorem modCkpt_exch (s : State) (f : Ckpt → Ckpt) : (modCkpt s f).exch = s.exch := rfl
@[simp] theorem modCkpt_memblk (s : State) (f : Ckpt → Ckpt) : (modCkpt s f).memblk = s.memblk := rfl
@[simp] theorem modCkpt_ckpt (s : State) (f : Ckpt → Ckpt) : (modCkpt s f).ckpt = f s.ckpt := rfl
@[simp] theorem modCkpt_sync (s : State) (f : Ckpt → Ckpt) : (modCkpt s f).sync = s.sync := rfl
@[simp] theorem modCkpt_fab (s : State) (f : Ckpt → Ckpt) : (modCkpt s f).fab = s.fab := rfl
@[simp] theorem modCkpt_cmd (s : State) (f : Ckpt → Ckpt) : (modCkpt s f).cmd = s.cmd := rfl
@[simp] theorem modCkpt_twin (s : State) (f : Ckpt → Ckpt) : (modCkpt s f).twin = s.twin := rfl
@[simp] theorem modCkpt_cob (s : State) (f : Ckpt → Ckpt) : (modCkpt s f).cob = s.cob := rfl
@[simp] theorem modCkpt_power (s : State) (f : Ckpt → Ckpt) : (modCkpt s f).power = s.power := rfl
@[simp] theorem modCkpt_boot (s : State) (f : Ckpt → Ckpt) : (modCkpt s f).boot = s.boot := rfl
@[simp] theorem modCkpt_i3c (s : State) (f : Ckpt → Ckpt) : (modCkpt s f).i3c = s.i3c := rfl
@[simp] theorem modCkpt_tap (s : State) (f : Ckpt → Ckpt) : (modCkpt s f).tap = s.tap := rfl
@[simp] theorem modCkpt_savedGens (s : State) (f : Ckpt → Ckpt) : (modCkpt s f).savedGens = s.savedGens := rfl
@[simp] theorem modCkpt_lastStatus (s : State) (f : Ckpt → Ckpt) : (modCkpt s f).lastStatus = s.lastStatus := rfl

/-! ### modTap -/

@[simp] theorem modTap_pending (s : State) (f : Tap → Tap) : (modTap s f).pending = s.pending := rfl
@[simp] theorem modTap_fresh (s : State) (f : Tap → Tap) : (modTap s f).fresh = s.fresh := rfl
@[simp] theorem modTap_mem (s : State) (f : Tap → Tap) : (modTap s f).mem = s.mem := rfl
@[simp] theorem modTap_poison (s : State) (f : Tap → Tap) : (modTap s f).poison = s.poison := rfl
@[simp] theorem modTap_pkgId (s : State) (f : Tap → Tap) : (modTap s f).pkgId = s.pkgId := rfl
@[simp] theorem modTap_inv (s : State) (f : Tap → Tap) : (modTap s f).inv = s.inv := rfl
@[simp] theorem modTap_clusters (s : State) (f : Tap → Tap) : (modTap s f).clusters = s.clusters := rfl
@[simp] theorem modTap_dies (s : State) (f : Tap → Tap) : (modTap s f).dies = s.dies := rfl
@[simp] theorem modTap_stk (s : State) (f : Tap → Tap) : (modTap s f).stk = s.stk := rfl
@[simp] theorem modTap_links (s : State) (f : Tap → Tap) : (modTap s f).links = s.links := rfl
@[simp] theorem modTap_waitingReqs (s : State) (f : Tap → Tap) : (modTap s f).waitingReqs = s.waitingReqs := rfl
@[simp] theorem modTap_openReqs (s : State) (f : Tap → Tap) : (modTap s f).openReqs = s.openReqs := rfl
@[simp] theorem modTap_meshLost (s : State) (f : Tap → Tap) : (modTap s f).meshLost = s.meshLost := rfl
@[simp] theorem modTap_meshLate (s : State) (f : Tap → Tap) : (modTap s f).meshLate = s.meshLate := rfl
@[simp] theorem modTap_iodSeen (s : State) (f : Tap → Tap) : (modTap s f).iodSeen = s.iodSeen := rfl
@[simp] theorem modTap_guard (s : State) (f : Tap → Tap) : (modTap s f).guard = s.guard := rfl
@[simp] theorem modTap_upd (s : State) (f : Tap → Tap) : (modTap s f).upd = s.upd := rfl
@[simp] theorem modTap_exch (s : State) (f : Tap → Tap) : (modTap s f).exch = s.exch := rfl
@[simp] theorem modTap_memblk (s : State) (f : Tap → Tap) : (modTap s f).memblk = s.memblk := rfl
@[simp] theorem modTap_ckpt (s : State) (f : Tap → Tap) : (modTap s f).ckpt = s.ckpt := rfl
@[simp] theorem modTap_sync (s : State) (f : Tap → Tap) : (modTap s f).sync = s.sync := rfl
@[simp] theorem modTap_fab (s : State) (f : Tap → Tap) : (modTap s f).fab = s.fab := rfl
@[simp] theorem modTap_cmd (s : State) (f : Tap → Tap) : (modTap s f).cmd = s.cmd := rfl
@[simp] theorem modTap_twin (s : State) (f : Tap → Tap) : (modTap s f).twin = s.twin := rfl
@[simp] theorem modTap_cob (s : State) (f : Tap → Tap) : (modTap s f).cob = s.cob := rfl
@[simp] theorem modTap_power (s : State) (f : Tap → Tap) : (modTap s f).power = s.power := rfl
@[simp] theorem modTap_boot (s : State) (f : Tap → Tap) : (modTap s f).boot = s.boot := rfl
@[simp] theorem modTap_i3c (s : State) (f : Tap → Tap) : (modTap s f).i3c = s.i3c := rfl
@[simp] theorem modTap_tap (s : State) (f : Tap → Tap) : (modTap s f).tap = f s.tap := rfl
@[simp] theorem modTap_savedGens (s : State) (f : Tap → Tap) : (modTap s f).savedGens = s.savedGens := rfl
@[simp] theorem modTap_lastStatus (s : State) (f : Tap → Tap) : (modTap s f).lastStatus = s.lastStatus := rfl

/-! ### modI3c -/

@[simp] theorem modI3c_pending (s : State) (f : I3c → I3c) : (modI3c s f).pending = s.pending := rfl
@[simp] theorem modI3c_fresh (s : State) (f : I3c → I3c) : (modI3c s f).fresh = s.fresh := rfl
@[simp] theorem modI3c_mem (s : State) (f : I3c → I3c) : (modI3c s f).mem = s.mem := rfl
@[simp] theorem modI3c_poison (s : State) (f : I3c → I3c) : (modI3c s f).poison = s.poison := rfl
@[simp] theorem modI3c_pkgId (s : State) (f : I3c → I3c) : (modI3c s f).pkgId = s.pkgId := rfl
@[simp] theorem modI3c_inv (s : State) (f : I3c → I3c) : (modI3c s f).inv = s.inv := rfl
@[simp] theorem modI3c_clusters (s : State) (f : I3c → I3c) : (modI3c s f).clusters = s.clusters := rfl
@[simp] theorem modI3c_dies (s : State) (f : I3c → I3c) : (modI3c s f).dies = s.dies := rfl
@[simp] theorem modI3c_stk (s : State) (f : I3c → I3c) : (modI3c s f).stk = s.stk := rfl
@[simp] theorem modI3c_links (s : State) (f : I3c → I3c) : (modI3c s f).links = s.links := rfl
@[simp] theorem modI3c_waitingReqs (s : State) (f : I3c → I3c) : (modI3c s f).waitingReqs = s.waitingReqs := rfl
@[simp] theorem modI3c_openReqs (s : State) (f : I3c → I3c) : (modI3c s f).openReqs = s.openReqs := rfl
@[simp] theorem modI3c_meshLost (s : State) (f : I3c → I3c) : (modI3c s f).meshLost = s.meshLost := rfl
@[simp] theorem modI3c_meshLate (s : State) (f : I3c → I3c) : (modI3c s f).meshLate = s.meshLate := rfl
@[simp] theorem modI3c_iodSeen (s : State) (f : I3c → I3c) : (modI3c s f).iodSeen = s.iodSeen := rfl
@[simp] theorem modI3c_guard (s : State) (f : I3c → I3c) : (modI3c s f).guard = s.guard := rfl
@[simp] theorem modI3c_upd (s : State) (f : I3c → I3c) : (modI3c s f).upd = s.upd := rfl
@[simp] theorem modI3c_exch (s : State) (f : I3c → I3c) : (modI3c s f).exch = s.exch := rfl
@[simp] theorem modI3c_memblk (s : State) (f : I3c → I3c) : (modI3c s f).memblk = s.memblk := rfl
@[simp] theorem modI3c_ckpt (s : State) (f : I3c → I3c) : (modI3c s f).ckpt = s.ckpt := rfl
@[simp] theorem modI3c_sync (s : State) (f : I3c → I3c) : (modI3c s f).sync = s.sync := rfl
@[simp] theorem modI3c_fab (s : State) (f : I3c → I3c) : (modI3c s f).fab = s.fab := rfl
@[simp] theorem modI3c_cmd (s : State) (f : I3c → I3c) : (modI3c s f).cmd = s.cmd := rfl
@[simp] theorem modI3c_twin (s : State) (f : I3c → I3c) : (modI3c s f).twin = s.twin := rfl
@[simp] theorem modI3c_cob (s : State) (f : I3c → I3c) : (modI3c s f).cob = s.cob := rfl
@[simp] theorem modI3c_power (s : State) (f : I3c → I3c) : (modI3c s f).power = s.power := rfl
@[simp] theorem modI3c_boot (s : State) (f : I3c → I3c) : (modI3c s f).boot = s.boot := rfl
@[simp] theorem modI3c_i3c (s : State) (f : I3c → I3c) : (modI3c s f).i3c = f s.i3c := rfl
@[simp] theorem modI3c_tap (s : State) (f : I3c → I3c) : (modI3c s f).tap = s.tap := rfl
@[simp] theorem modI3c_savedGens (s : State) (f : I3c → I3c) : (modI3c s f).savedGens = s.savedGens := rfl
@[simp] theorem modI3c_lastStatus (s : State) (f : I3c → I3c) : (modI3c s f).lastStatus = s.lastStatus := rfl

/-! ### useFresh -/

@[simp] theorem useFresh_pending (s : State) (k : Nat) : (useFresh s k).pending = s.pending := rfl
@[simp] theorem useFresh_fresh (s : State) (k : Nat) : (useFresh s k).fresh = s.fresh + k := rfl
@[simp] theorem useFresh_mem (s : State) (k : Nat) : (useFresh s k).mem = s.mem := rfl
@[simp] theorem useFresh_poison (s : State) (k : Nat) : (useFresh s k).poison = s.poison := rfl
@[simp] theorem useFresh_pkgId (s : State) (k : Nat) : (useFresh s k).pkgId = s.pkgId := rfl
@[simp] theorem useFresh_inv (s : State) (k : Nat) : (useFresh s k).inv = s.inv := rfl
@[simp] theorem useFresh_clusters (s : State) (k : Nat) : (useFresh s k).clusters = s.clusters := rfl
@[simp] theorem useFresh_dies (s : State) (k : Nat) : (useFresh s k).dies = s.dies := rfl
@[simp] theorem useFresh_stk (s : State) (k : Nat) : (useFresh s k).stk = s.stk := rfl
@[simp] theorem useFresh_links (s : State) (k : Nat) : (useFresh s k).links = s.links := rfl
@[simp] theorem useFresh_waitingReqs (s : State) (k : Nat) : (useFresh s k).waitingReqs = s.waitingReqs := rfl
@[simp] theorem useFresh_openReqs (s : State) (k : Nat) : (useFresh s k).openReqs = s.openReqs := rfl
@[simp] theorem useFresh_meshLost (s : State) (k : Nat) : (useFresh s k).meshLost = s.meshLost := rfl
@[simp] theorem useFresh_meshLate (s : State) (k : Nat) : (useFresh s k).meshLate = s.meshLate := rfl
@[simp] theorem useFresh_iodSeen (s : State) (k : Nat) : (useFresh s k).iodSeen = s.iodSeen := rfl
@[simp] theorem useFresh_guard (s : State) (k : Nat) : (useFresh s k).guard = s.guard := rfl
@[simp] theorem useFresh_upd (s : State) (k : Nat) : (useFresh s k).upd = s.upd := rfl
@[simp] theorem useFresh_exch (s : State) (k : Nat) : (useFresh s k).exch = s.exch := rfl
@[simp] theorem useFresh_memblk (s : State) (k : Nat) : (useFresh s k).memblk = s.memblk := rfl
@[simp] theorem useFresh_ckpt (s : State) (k : Nat) : (useFresh s k).ckpt = s.ckpt := rfl
@[simp] theorem useFresh_sync (s : State) (k : Nat) : (useFresh s k).sync = s.sync := rfl
@[simp] theorem useFresh_fab (s : State) (k : Nat) : (useFresh s k).fab = s.fab := rfl
@[simp] theorem useFresh_cmd (s : State) (k : Nat) : (useFresh s k).cmd = s.cmd := rfl
@[simp] theorem useFresh_twin (s : State) (k : Nat) : (useFresh s k).twin = s.twin := rfl
@[simp] theorem useFresh_cob (s : State) (k : Nat) : (useFresh s k).cob = s.cob := rfl
@[simp] theorem useFresh_power (s : State) (k : Nat) : (useFresh s k).power = s.power := rfl
@[simp] theorem useFresh_boot (s : State) (k : Nat) : (useFresh s k).boot = s.boot := rfl
@[simp] theorem useFresh_i3c (s : State) (k : Nat) : (useFresh s k).i3c = s.i3c := rfl
@[simp] theorem useFresh_tap (s : State) (k : Nat) : (useFresh s k).tap = s.tap := rfl
@[simp] theorem useFresh_savedGens (s : State) (k : Nat) : (useFresh s k).savedGens = s.savedGens := rfl
@[simp] theorem useFresh_lastStatus (s : State) (k : Nat) : (useFresh s k).lastStatus = s.lastStatus := rfl

/-! ### modLong -/

@[simp] theorem modLong_pending (s : State) (id : Nat) (f : LongOp → LongOp) : (modLong s id f).pending = s.pending := rfl
@[simp] theorem modLong_fresh (s : State) (id : Nat) (f : LongOp → LongOp) : (modLong s id f).fresh = s.fresh := rfl
@[simp] theorem modLong_mem (s : State) (id : Nat) (f : LongOp → LongOp) : (modLong s id f).mem = s.mem := rfl
@[simp] theorem modLong_poison (s : State) (id : Nat) (f : LongOp → LongOp) : (modLong s id f).poison = s.poison := rfl
@[simp] theorem modLong_pkgId (s : State) (id : Nat) (f : LongOp → LongOp) : (modLong s id f).pkgId = s.pkgId := rfl
@[simp] theorem modLong_inv (s : State) (id : Nat) (f : LongOp → LongOp) : (modLong s id f).inv = s.inv := rfl
@[simp] theorem modLong_clusters (s : State) (id : Nat) (f : LongOp → LongOp) : (modLong s id f).clusters = s.clusters := rfl
@[simp] theorem modLong_dies (s : State) (id : Nat) (f : LongOp → LongOp) : (modLong s id f).dies = s.dies := rfl
@[simp] theorem modLong_stk (s : State) (id : Nat) (f : LongOp → LongOp) : (modLong s id f).stk = s.stk := rfl
@[simp] theorem modLong_links (s : State) (id : Nat) (f : LongOp → LongOp) : (modLong s id f).links = s.links := rfl
@[simp] theorem modLong_waitingReqs (s : State) (id : Nat) (f : LongOp → LongOp) : (modLong s id f).waitingReqs = s.waitingReqs := rfl
@[simp] theorem modLong_openReqs (s : State) (id : Nat) (f : LongOp → LongOp) : (modLong s id f).openReqs = s.openReqs := rfl
@[simp] theorem modLong_meshLost (s : State) (id : Nat) (f : LongOp → LongOp) : (modLong s id f).meshLost = s.meshLost := rfl
@[simp] theorem modLong_meshLate (s : State) (id : Nat) (f : LongOp → LongOp) : (modLong s id f).meshLate = s.meshLate := rfl
@[simp] theorem modLong_iodSeen (s : State) (id : Nat) (f : LongOp → LongOp) : (modLong s id f).iodSeen = s.iodSeen := rfl
@[simp] theorem modLong_guard (s : State) (id : Nat) (f : LongOp → LongOp) : (modLong s id f).guard = s.guard := rfl
@[simp] theorem modLong_upd (s : State) (id : Nat) (f : LongOp → LongOp) : (modLong s id f).upd = s.upd := rfl
@[simp] theorem modLong_exch (s : State) (id : Nat) (f : LongOp → LongOp) : (modLong s id f).exch = s.exch := rfl
@[simp] theorem modLong_memblk (s : State) (id : Nat) (f : LongOp → LongOp) : (modLong s id f).memblk = s.memblk := rfl
@[simp] theorem modLong_ckpt (s : State) (id : Nat) (f : LongOp → LongOp) : (modLong s id f).ckpt = s.ckpt := rfl
@[simp] theorem modLong_sync (s : State) (id : Nat) (f : LongOp → LongOp) : (modLong s id f).sync = s.sync := rfl
@[simp] theorem modLong_fab (s : State) (id : Nat) (f : LongOp → LongOp) : (modLong s id f).fab = s.fab := rfl
@[simp] theorem modLong_twin (s : State) (id : Nat) (f : LongOp → LongOp) : (modLong s id f).twin = s.twin := rfl
@[simp] theorem modLong_cob (s : State) (id : Nat) (f : LongOp → LongOp) : (modLong s id f).cob = s.cob := rfl
@[simp] theorem modLong_power (s : State) (id : Nat) (f : LongOp → LongOp) : (modLong s id f).power = s.power := rfl
@[simp] theorem modLong_boot (s : State) (id : Nat) (f : LongOp → LongOp) : (modLong s id f).boot = s.boot := rfl
@[simp] theorem modLong_i3c (s : State) (id : Nat) (f : LongOp → LongOp) : (modLong s id f).i3c = s.i3c := rfl
@[simp] theorem modLong_tap (s : State) (id : Nat) (f : LongOp → LongOp) : (modLong s id f).tap = s.tap := rfl
@[simp] theorem modLong_savedGens (s : State) (id : Nat) (f : LongOp → LongOp) : (modLong s id f).savedGens = s.savedGens := rfl
@[simp] theorem modLong_lastStatus (s : State) (id : Nat) (f : LongOp → LongOp) : (modLong s id f).lastStatus = s.lastStatus := rfl

/-! ### pokeBytes -/

@[simp] theorem pokeBytes_pending (s : State) (a : Nat) (bs : List Byte) : (pokeBytes s a bs).pending = s.pending := rfl
@[simp] theorem pokeBytes_fresh (s : State) (a : Nat) (bs : List Byte) : (pokeBytes s a bs).fresh = s.fresh := rfl
@[simp] theorem pokeBytes_poison (s : State) (a : Nat) (bs : List Byte) : (pokeBytes s a bs).poison = s.poison := rfl
@[simp] theorem pokeBytes_pkgId (s : State) (a : Nat) (bs : List Byte) : (pokeBytes s a bs).pkgId = s.pkgId := rfl
@[simp] theorem pokeBytes_inv (s : State) (a : Nat) (bs : List Byte) : (pokeBytes s a bs).inv = s.inv := rfl
@[simp] theorem pokeBytes_clusters (s : State) (a : Nat) (bs : List Byte) : (pokeBytes s a bs).clusters = s.clusters := rfl
@[simp] theorem pokeBytes_dies (s : State) (a : Nat) (bs : List Byte) : (pokeBytes s a bs).dies = s.dies := rfl
@[simp] theorem pokeBytes_stk (s : State) (a : Nat) (bs : List Byte) : (pokeBytes s a bs).stk = s.stk := rfl
@[simp] theorem pokeBytes_links (s : State) (a : Nat) (bs : List Byte) : (pokeBytes s a bs).links = s.links := rfl
@[simp] theorem pokeBytes_waitingReqs (s : State) (a : Nat) (bs : List Byte) : (pokeBytes s a bs).waitingReqs = s.waitingReqs := rfl
@[simp] theorem pokeBytes_openReqs (s : State) (a : Nat) (bs : List Byte) : (pokeBytes s a bs).openReqs = s.openReqs := rfl
@[simp] theorem pokeBytes_meshLost (s : State) (a : Nat) (bs : List Byte) : (pokeBytes s a bs).meshLost = s.meshLost := rfl
@[simp] theorem pokeBytes_meshLate (s : State) (a : Nat) (bs : List Byte) : (pokeBytes s a bs).meshLate = s.meshLate := rfl
@[simp] theorem pokeBytes_iodSeen (s : State) (a : Nat) (bs : List Byte) : (pokeBytes s a bs).iodSeen = s.iodSeen := rfl
@[simp] theorem pokeBytes_guard (s : State) (a : Nat) (bs : List Byte) : (pokeBytes s a bs).guard = s.guard := rfl
@[simp] theorem pokeBytes_upd (s : State) (a : Nat) (bs : List Byte) : (pokeBytes s a bs).upd = s.upd := rfl
@[simp] theorem pokeBytes_exch (s : State) (a : Nat) (bs : List Byte) : (pokeBytes s a bs).exch = s.exch := rfl
@[simp] theorem pokeBytes_memblk (s : State) (a : Nat) (bs : List Byte) : (pokeBytes s a bs).memblk = s.memblk := rfl
@[simp] theorem pokeBytes_ckpt (s : State) (a : Nat) (bs : List Byte) : (pokeBytes s a bs).ckpt = s.ckpt := rfl
@[simp] theorem pokeBytes_sync (s : State) (a : Nat) (bs : List Byte) : (pokeBytes s a bs).sync = s.sync := rfl
@[simp] theorem pokeBytes_fab (s : State) (a : Nat) (bs : List Byte) : (pokeBytes s a bs).fab = s.fab := rfl
@[simp] theorem pokeBytes_cmd (s : State) (a : Nat) (bs : List Byte) : (pokeBytes s a bs).cmd = s.cmd := rfl
@[simp] theorem pokeBytes_twin (s : State) (a : Nat) (bs : List Byte) : (pokeBytes s a bs).twin = s.twin := rfl
@[simp] theorem pokeBytes_cob (s : State) (a : Nat) (bs : List Byte) : (pokeBytes s a bs).cob = s.cob := rfl
@[simp] theorem pokeBytes_power (s : State) (a : Nat) (bs : List Byte) : (pokeBytes s a bs).power = s.power := rfl
@[simp] theorem pokeBytes_boot (s : State) (a : Nat) (bs : List Byte) : (pokeBytes s a bs).boot = s.boot := rfl
@[simp] theorem pokeBytes_i3c (s : State) (a : Nat) (bs : List Byte) : (pokeBytes s a bs).i3c = s.i3c := rfl
@[simp] theorem pokeBytes_tap (s : State) (a : Nat) (bs : List Byte) : (pokeBytes s a bs).tap = s.tap := rfl
@[simp] theorem pokeBytes_savedGens (s : State) (a : Nat) (bs : List Byte) : (pokeBytes s a bs).savedGens = s.savedGens := rfl
@[simp] theorem pokeBytes_lastStatus (s : State) (a : Nat) (bs : List Byte) : (pokeBytes s a bs).lastStatus = s.lastStatus := rfl

end Sys2Proof.Machine
end

