-- ==== Sys2Proof/Laws/Frames.lean ====
section
/-! SUPPORT. What the shared operations can change: a packet or a request changes the fabric block alone, a message sent the
fabric and command blocks, and an event no more than a message; and how a command starts in a package in service. -/

namespace Sys2Proof.Machine

/-! ### The fabric -/

theorem sendPkt_frame (s : State) (k : Pkt) : sendPkt s k = { s with fab := (sendPkt s k).fab } := by
  unfold sendPkt
  split
  · rfl
  · split
    · rfl
    · split
      · dsimp only [queueAt, modPort]; split <;> rfl
      · rfl

/-- A transaction opened changes the fabric alone. -/
theorem openTxn_frame {s : State} {k : Pkt} {w : TxnFor} {m : List W16} {r : State × Pkt} (h : openTxn s k w m = some r) :
    r.1 = { s with fab := r.1.fab } := by
  unfold openTxn at h
  extract_lets f at h
  split at h
  · cases h
  · split at h
    · cases h
    · injection h with h
      subst h
      rfl

/-- A fold whose every step changes the fabric alone changes the fabric alone. -/
theorem foldl_fab {β : Type} (f : State → β → State) (hf : ∀ s b, f s b = { s with fab := (f s b).fab }) (l : List β)
    (s : State) : l.foldl f s = { s with fab := (l.foldl f s).fab } := by
  induction l generalizing s with
  | nil => rfl
  | cons b t ih => rw [List.foldl_cons, ih, hf s b]

theorem queueAt_frame (s : State) (p : Nat) (q : OutPkt) : queueAt s p q = { s with fab := (queueAt s p q).fab } := rfl

/-- A request of the package sent, by one port or both twin ports, changes the fabric alone. -/
theorem sendOwn_frame (s : State) (k : Pkt) : sendOwn s k = { s with fab := (sendOwn s k).fab } := by
  unfold sendOwn
  split
  · split
    · rfl
    · rw [foldl_fab _ (fun t p => queueAt_frame t p _)]
  · exact sendPkt_frame s k

theorem sendAlong_frame (s : State) (p : Nat) (k : Pkt) : sendAlong s p k = { s with fab := (sendAlong s p k).fab } := by
  unfold sendAlong
  split
  · rfl
  · split
    · rfl
    · split
      · exact queueAt_frame s p _
      · rfl

theorem startTxn_frame {s t : State} {w : WaitReq} (h : startTxn s w = some t) :
    t = { s with fab := t.fab } := by
  unfold startTxn at h
  split at h
  · obtain ⟨r, hr, rfl⟩ := Option.map_eq_some_iff.mp h
    rw [sendOwn_frame, openTxn_frame hr]
  · obtain ⟨r, hr, rfl⟩ := Option.map_eq_some_iff.mp h
    rw [sendAlong_frame, openTxn_frame hr]

theorem launch_frame (s : State) (w : WaitReq) : launch s w = { s with fab := (launch s w).fab } := by
  unfold launch
  split
  · rename_i t h; exact startTxn_frame h
  · rfl

theorem sendReq_frame (s : State) (k : Pkt) (w : TxnFor) : sendReq s k w = { s with fab := (sendReq s k w).fab } :=
  launch_frame s _

/-- Changes of the fabric alone, one after another. -/
theorem fab_trans {s t u : State} (h : t = { s with fab := t.fab }) (h' : u = { t with fab := u.fab }) :
    u = { s with fab := u.fab } := by rw [h', h]

theorem launchWaiting_frame (s : State) : launchWaiting s = { s with fab := (launchWaiting s).fab } := by
  unfold launchWaiting
  rw [foldl_fab _ launch_frame]

/-! ### Messages and events -/

/-- Requests of the package one after another change the fabric alone. -/
theorem foldl_sendReq (g : List Byte → Pkt) (w : TxnFor) (l : List (List Byte)) (s : State) :
    l.foldl (fun u q => sendReq u (g q) w) s = { s with fab := (l.foldl (fun u q => sendReq u (g q) w) s).fab } :=
  foldl_fab _ (fun s _ => sendReq_frame s _ _) l s

/-- What a message sent changes: it stands in front of those sent before, and a management port or the fabric carries it. -/
theorem emit_frame (s : State) (r : Reply) :
    emit s r = { s with
      cmd := { s.cmd with sent := r :: s.cmd.sent, mgtOut := (emit s r).cmd.mgtOut }
      fab := (emit s r).fab } := by
  unfold emit
  dsimp only
  split
  · rfl
  · split
    · rw [foldl_sendReq, sendPkt_frame]
    · rw [foldl_sendReq]

theorem emit_cmd (s : State) (r : Reply) :
    (emit s r).cmd = { s.cmd with sent := r :: s.cmd.sent, mgtOut := (emit s r).cmd.mgtOut } := by
  rw [emit_frame]

/-- A fold whose every step changes the command and fabric blocks alone changes them alone. -/
theorem foldl_cmdFab {β : Type} (f : State → β → State)
    (hf : ∀ s b, f s b = { s with cmd := (f s b).cmd, fab := (f s b).fab }) (l : List β) (s : State) :
    l.foldl f s = { s with cmd := (l.foldl f s).cmd, fab := (l.foldl f s).fab } := by
  induction l generalizing s with
  | nil => rfl
  | cons b t ih => rw [List.foldl_cons, ih, hf s b]

theorem raise_frame (s : State) (cls : Nat) (code : Byte) (detail : List Byte) :
    raise s cls code detail = { s with cmd := (raise s cls code detail).cmd, fab := (raise s cls code detail).fab } := by
  unfold raise
  extract_lets e s1
  rw [foldl_cmdFab _ (fun s b => by rw [emit_frame])]

theorem raiseOpen_frame (s : State) (cls cause : Nat) (detail : List Byte) : raiseOpen s cls cause detail =
    { s with cmd := (raiseOpen s cls cause detail).cmd, fab := (raiseOpen s cls cause detail).fab } := raise_frame s cls _ detail

theorem keepReply_frame (s : State) (r : Reply) :
    keepReply s r = { s with cmd := { s.cmd with sessions := (keepReply s r).cmd.sessions } } := by
  unfold keepReply
  split <;> rfl

/-! ### The start of a command -/

/-- With every edge settled no path crosses an edge that trains (R276). -/
theorem pathTrains_settled {s : State} (hs : EdgesSettled s) (a b : Option Nat) : pathTrains s a b = false := by
  have h : ∀ e, e < 8 → edgeTrains s e = false := by simpa [EdgesSettled] using hs
  simp only [pathTrains, List.any_eq_false]
  intro e _
  simp [h e.edge.val e.edge.isLt]

theorem trainHolds_settled {s : State} (hs : EdgesSettled s) (m a n : Nat) : trainHolds s m a n = false := by
  simp [trainHolds, pathTrains_settled hs]

/-- In a package in service no command waits for an edge (R276). -/
theorem edgeHeld_settled {s : State} (hs : EdgesSettled s) (i : Instr) : edgeHeld s i = false := by
  have hx : ∀ h x n, xTrains s h x n = false := by
    intro h x n
    unfold xTrains
    split
    · exact trainHolds_settled hs _ _ _
    · rfl
  cases i <;> simp [edgeHeld, trainHolds_settled hs, hx, clustersTrain, pathTrains_settled hs]

/-- In a package in service a command runs: no stage, no power state and no training edge turns it away. -/
theorem cmdStart_inService {s : State} (hs : InService s) (i : Instr) (h : CmdHdr) (op : Nat) (act : State → State) :
    cmdStart i h op act s = act s := by
  obtain ⟨h1, h2, h3, h4⟩ := hs
  simp [cmdStart, served, powerAdmits, stageAdmits, h1, h2, h3, edgeHeld_settled h4]

end Sys2Proof.Machine
end

