-- ==== Sys2Proof/Laws/Tables.lean ====
section
/-! SUPPORT. Sparse tables, vectors with a default and bytes: what one entry holds after a change, and that every other stays. -/

namespace Sys2Proof.Machine

variable {α : Type}

theorem look_put_self (l : Assoc α) (k : Nat) (v : α) : look (put l k v) k = some v := by
  induction l with
  | nil => simp [put, look]
  | cons e t ih =>
    obtain ⟨j, w⟩ := e
    by_cases hj : j = k
    · simp [put, look, hj]
    · by_cases hk : k < j <;> simp [put, look, hj, hk, ih]

theorem look_put_other (l : Assoc α) {k j : Nat} (v : α) (h : j ≠ k) : look (put l k v) j = look l j := by
  have h' : k ≠ j := fun e => h e.symm
  induction l with
  | nil => simp [put, look, h']
  | cons e t ih =>
    obtain ⟨i, w⟩ := e
    by_cases hi : i = k
    · subst hi; simp [put, look, h']
    · by_cases hk : k < i
      · simp [put, look, hi, hk, h']
      · simp only [put, look, hi, hk, if_false]; rw [ih]

theorem look_put (l : Assoc α) (k j : Nat) (v : α) : look (put l k v) j = if j = k then some v else look l j := by
  by_cases h : j = k
  · subst h; simp [look_put_self]
  · simp [h, look_put_other]

theorem look_del_self (l : Assoc α) (k : Nat) : look (del l k) k = none := by
  induction l with
  | nil => rfl
  | cons e t ih =>
    obtain ⟨j, w⟩ := e
    unfold del at ih ⊢
    by_cases hj : j = k <;> simp [look, hj, ih]

theorem look_del_other (l : Assoc α) {k j : Nat} (h : j ≠ k) : look (del l k) j = look l j := by
  have h' : k ≠ j := fun e => h e.symm
  induction l with
  | nil => rfl
  | cons e t ih =>
    obtain ⟨i, w⟩ := e
    unfold del at ih ⊢
    by_cases hi : i = k
    · subst hi; simp [look, h', ih]
    · simp [look, hi, ih]

theorem lookD_put_self (l : Assoc α) (k : Nat) (v d : α) : lookD (put l k v) k d = v := by simp [lookD, look_put_self]

theorem lookD_put_other (l : Assoc α) {k j : Nat} (v d : α) (h : j ≠ k) : lookD (put l k v) j d = lookD l j d := by
  simp [lookD, look_put_other l v h]

theorem vgetD_lt {n : Nat} (v : Vector α n) (i : Nat) (d : α) (h : i < n) : vgetD v i d = v[i] := by
  simp [vgetD, h]

theorem vmod_get_self {n : Nat} (v : Vector α n) (i : Nat) (f : α → α) (h : i < n) : (vmod v i f)[i] = f v[i] := by
  simp [vmod, h]

theorem vmod_get_other {n : Nat} (v : Vector α n) (i j : Nat) (f : α → α) (hj : j < n) (h : j ≠ i) :
    (vmod v i f)[j] = v[j] := by
  unfold vmod
  split
  · rw [Vector.getElem_set_ne]; omega
  · rfl

end Sys2Proof.Machine
end

