-- ==== Sys2Proof/Laws/Memory.lean ====
section
/-! SUPPORT. The list of bytes: what a key reads after a write, and that every memory operation keeps the canonical form. -/

namespace Sys2Proof.Machine

/-! ### Reading after writing -/

theorem Memory.read_erase_self (d : Nat → Byte) (m : List Host.Cell) (k : Nat) : Memory.read (Memory.erase m k) k d = d k := by
  induction m with
  | nil => rfl
  | cons e t ih =>
    obtain ⟨j, b⟩ := e
    unfold Memory.erase at ih ⊢
    by_cases hj : j = k
    · simpa [hj] using ih
    · simpa [hj, Memory.read] using ih

theorem Memory.read_erase_other (d : Nat → Byte) (m : List Host.Cell) {k j : Nat} (h : j ≠ k) :
    Memory.read (Memory.erase m k) j d = Memory.read m j d := by
  have h' : k ≠ j := fun e => h e.symm
  induction m with
  | nil => rfl
  | cons e t ih =>
    obtain ⟨i, b⟩ := e
    unfold Memory.erase at ih ⊢
    by_cases hi : i = k
    · subst hi; simpa [Memory.read, h'] using ih
    · by_cases hij : i = j
      · subst hij; simp [hi, Memory.read]
      · simpa [hi, hij, Memory.read] using ih

theorem Memory.read_insert_self (d : Nat → Byte) (m : List Host.Cell) (k : Nat) (v : Byte) :
    Memory.read (Memory.insert m k v) k d = v := by
  induction m with
  | nil => simp [Memory.insert, Memory.read]
  | cons e t ih =>
    obtain ⟨j, b⟩ := e
    by_cases hj : j = k
    · simp [Memory.insert, Memory.read, hj]
    · by_cases hk : k < j <;> simp [Memory.insert, Memory.read, hj, hk, ih]

theorem Memory.read_insert_other (d : Nat → Byte) (m : List Host.Cell) {k j : Nat} (v : Byte) (h : j ≠ k) :
    Memory.read (Memory.insert m k v) j d = Memory.read m j d := by
  have h' : k ≠ j := fun e => h e.symm
  induction m with
  | nil => simp [Memory.insert, Memory.read, h']
  | cons e t ih =>
    obtain ⟨i, b⟩ := e
    by_cases hi : i = k
    · subst hi; simp [Memory.insert, Memory.read, h']
    · by_cases hk : k < i
      · simp [Memory.insert, Memory.read, hi, hk, h']
      · simp only [Memory.insert, Memory.read, hi, hk, if_false]; rw [ih]

theorem Memory.read_write_self (d : Nat → Byte) (m : List Host.Cell) (k : Nat) (v : Byte) :
    Memory.read (Memory.write m k v d) k d = v := by
  unfold Memory.write
  split
  · simp_all [Memory.read_erase_self]
  · exact Memory.read_insert_self d m k v

theorem Memory.read_write_other (d : Nat → Byte) (m : List Host.Cell) {k j : Nat} (v : Byte) (h : j ≠ k) :
    Memory.read (Memory.write m k v d) j d = Memory.read m j d := by
  unfold Memory.write
  split
  · exact Memory.read_erase_other d m h
  · exact Memory.read_insert_other d m v h

theorem Memory.read_writeRange_below (l : List Byte) (m : List Host.Cell) {k j : Nat} (h : j < k) :
    Memory.read (Memory.writeRange m k l) j = Memory.read m j := by
  induction l generalizing m k with
  | nil => rfl
  | cons b t ih => rw [Memory.writeRange, ih _ (by omega), Memory.read_write_other _ _ _ (by omega)]

theorem Memory.read_writeRange_above (l : List Byte) (m : List Host.Cell) {k j : Nat} (h : k + l.length ≤ j) :
    Memory.read (Memory.writeRange m k l) j = Memory.read m j := by
  induction l generalizing m k with
  | nil => rfl
  | cons b t ih =>
    simp only [List.length_cons] at h
    rw [Memory.writeRange, ih _ (by omega), Memory.read_write_other _ _ _ (by omega)]

theorem Memory.read_writeRange (l : List Byte) (m : List Host.Cell) (k i : Nat) (h : i < l.length) :
    Memory.read (Memory.writeRange m k l) (k + i) = l.getD i 0 := by
  induction l generalizing m k i with
  | nil => simp at h
  | cons b t ih =>
    cases i with
    | zero => rw [Memory.writeRange, Memory.read_writeRange_below _ _ (by omega)]; simp [Memory.read_write_self]
    | succ i =>
      simp only [List.length_cons] at h
      have := ih (Memory.write m k b) (k + 1) i (by omega)
      rw [Memory.writeRange, show k + (i + 1) = k + 1 + i by omega, this]; simp

theorem Memory.read_clear_inside (d : Nat → Byte) (m : List Host.Cell) {lo hi k : Nat} (h1 : lo ≤ k) (h2 : k < hi) :
    Memory.read (Memory.clear m lo hi) k d = d k := by
  induction m with
  | nil => rfl
  | cons e t ih =>
    obtain ⟨j, b⟩ := e
    unfold Memory.clear at ih ⊢
    by_cases hj : j < lo ∨ hi ≤ j
    · have hk : j ≠ k := by omega
      rw [List.filter_cons_of_pos (by simpa using hj), Memory.read, if_neg hk]; exact ih
    · rw [List.filter_cons_of_neg (by simpa using hj)]; exact ih

theorem Memory.read_clear_outside (d : Nat → Byte) (m : List Host.Cell) {lo hi k : Nat} (h : k < lo ∨ hi ≤ k) :
    Memory.read (Memory.clear m lo hi) k d = Memory.read m k d := by
  induction m with
  | nil => rfl
  | cons e t ih =>
    obtain ⟨j, b⟩ := e
    unfold Memory.clear at ih ⊢
    by_cases hj : j < lo ∨ hi ≤ j
    · rw [List.filter_cons_of_pos (by simpa using hj), Memory.read, Memory.read, ih]
    · have hk : j ≠ k := by omega
      rw [List.filter_cons_of_neg (by simpa using hj), Memory.read, if_neg hk]; exact ih

/-! ### The canonical form -/

theorem Memory.wfFrom_mono {d : Nat → Byte} {m : List Host.Cell} {a b : Nat} (hab : a ≤ b) (h : Memory.wfFrom d b m = true) :
    Memory.wfFrom d a m = true := by
  cases m with
  | nil => rfl
  | cons e t =>
    obtain ⟨k, v⟩ := e
    simp only [Memory.wfFrom, Bool.and_eq_true, decide_eq_true_eq] at h ⊢
    exact ⟨⟨by omega, h.1.2⟩, h.2⟩

theorem Memory.wfFrom_filter {d : Nat → Byte} (p : Host.Cell → Bool) {m : List Host.Cell} {a : Nat}
    (h : Memory.wfFrom d a m = true) : Memory.wfFrom d a (m.filter p) = true := by
  induction m generalizing a with
  | nil => rfl
  | cons e t ih =>
    obtain ⟨k, v⟩ := e
    simp only [Memory.wfFrom, Bool.and_eq_true, decide_eq_true_eq] at h
    by_cases hp : p (k, v) = true
    · rw [List.filter_cons_of_pos hp]
      simp only [Memory.wfFrom, Bool.and_eq_true, decide_eq_true_eq]
      exact ⟨h.1, ih h.2⟩
    · rw [List.filter_cons_of_neg hp]
      exact ih (Memory.wfFrom_mono (by omega) h.2)

theorem Memory.wfFrom_insert {d : Nat → Byte} {m : List Host.Cell} {a k : Nat} {v : Byte} (hv : v ≠ d k) (ha : a ≤ k)
    (h : Memory.wfFrom d a m = true) : Memory.wfFrom d a (Memory.insert m k v) = true := by
  induction m generalizing a with
  | nil => simp [Memory.insert, Memory.wfFrom, ha]; exact hv
  | cons e t ih =>
    obtain ⟨j, b⟩ := e
    simp only [Memory.wfFrom, Bool.and_eq_true, decide_eq_true_eq] at h
    unfold Memory.insert
    split
    · rename_i hj; subst hj; simp [Memory.wfFrom, ha, h.2]; exact hv
    · split
      · simp only [Memory.wfFrom, Bool.and_eq_true, decide_eq_true_eq]
        exact ⟨⟨ha, hv⟩, ⟨by omega, h.1.2⟩, h.2⟩
      · simp only [Memory.wfFrom, Bool.and_eq_true, decide_eq_true_eq]
        exact ⟨h.1, ih (by omega) h.2⟩

/-- The canonical form depends on what unlisted keys read as at the listed keys alone. -/
theorem Memory.wfFrom_congr {d e : Nat → Byte} {m : List Host.Cell} {a : Nat} (h : ∀ c ∈ m, d c.1 = e c.1) :
    Memory.wfFrom d a m = Memory.wfFrom e a m := by
  induction m generalizing a with
  | nil => rfl
  | cons c t ih =>
    obtain ⟨k, v⟩ := c
    have hk : d k = e k := h (k, v) (List.mem_cons_self ..)
    have ht : Memory.wfFrom d (k + 1) t = Memory.wfFrom e (k + 1) t := ih (fun c hc => h c (List.mem_cons_of_mem _ hc))
    simp only [Memory.wfFrom]
    rw [hk, ht]

theorem Memory.wf_erase {d : Nat → Byte} {m : List Host.Cell} (k : Nat) (h : Memory.wf m d = true) :
    Memory.wf (Memory.erase m k) d = true :=
  Memory.wfFrom_filter _ h

theorem Memory.wf_clear {d : Nat → Byte} {m : List Host.Cell} (lo hi : Nat) (h : Memory.wf m d = true) :
    Memory.wf (Memory.clear m lo hi) d = true :=
  Memory.wfFrom_filter _ h

/-- A range cleared and what its unlisted keys read as changed there alone: the canonical form stays. -/
theorem Memory.wf_clear_change {d e : Nat → Byte} {m : List Host.Cell} (lo hi : Nat)
    (hd : ∀ k, k < lo ∨ hi ≤ k → d k = e k) (h : Memory.wf m d = true) : Memory.wf (Memory.clear m lo hi) e = true := by
  have h1 := Memory.wf_clear lo hi h
  unfold Memory.wf at h1 ⊢
  rw [← Memory.wfFrom_congr (d := d)]
  · exact h1
  · intro c hc
    have := (List.mem_filter.mp hc).2
    exact hd c.1 (by simpa using this)

theorem Memory.wf_write {d : Nat → Byte} {m : List Host.Cell} (k : Nat) (v : Byte) (h : Memory.wf m d = true) :
    Memory.wf (Memory.write m k v d) d = true := by
  unfold Memory.write
  split
  · exact Memory.wf_erase k h
  · rename_i hv; exact Memory.wfFrom_insert hv (Nat.zero_le k) h

theorem Memory.wf_writeRange (l : List Byte) {m : List Host.Cell} (k : Nat) (h : Memory.wf m = true) :
    Memory.wf (Memory.writeRange m k l) = true := by
  induction l generalizing m k with
  | nil => exact h
  | cons b t ih => exact ih (k + 1) (Memory.wf_write k b h)

/-! ### The package's memory -/

theorem Mem.read_write_self (m : Mem) (k : Nat) (v : Byte) : (m.write k v).read k = v := Memory.read_write_self _ _ _ _

theorem Mem.read_write_other (m : Mem) {k j : Nat} (v : Byte) (h : j ≠ k) : (m.write k v).read j = m.read j :=
  Memory.read_write_other _ _ _ h

theorem Mem.wf_write {m : Mem} (k : Nat) (v : Byte) (h : m.wf = true) : (m.write k v).wf = true := Memory.wf_write k v h

/-- A run of a list cut at a range: outside the range it is found as before. -/
theorem find_cutVague (l : List Vague) {lo stop k : Nat} (h : k < lo ∨ stop ≤ k) :
    ((cutVague l lo stop).find? (fun v => decide (v.lo ≤ k) && decide (k < v.stop))).map Vague.f =
      (l.find? (fun v => decide (v.lo ≤ k) && decide (k < v.stop))).map Vague.f := by
  induction l with
  | nil => rfl
  | cons v t ih =>
    unfold cutVague at ih ⊢
    simp only [List.flatMap_cons, List.filter_append, List.find?_append, List.find?_cons]
    by_cases hv : v.lo ≤ k ∧ k < v.stop
    · rcases h with h | h
      · have h1 : v.lo < min v.stop lo := by omega
        have h2 : k < min v.stop lo := by omega
        simp [h1, h2, hv.1, hv.2]
      · have h2 : max v.lo stop < v.stop := by omega
        have h3 : max v.lo stop ≤ k := by omega
        by_cases h1 : k < min v.stop lo
        · have h4 : v.lo < min v.stop lo := by omega
          simp [h1, h4, hv.1, hv.2]
        · by_cases h4 : v.lo < min v.stop lo <;> simp [h1, h2, h3, h4, hv.1, hv.2]
    · have h1 : ¬ (v.lo ≤ k ∧ k < min v.stop lo) := by omega
      have h2 : ¬ (max v.lo stop ≤ k ∧ k < v.stop) := by omega
      have e0 : (decide (v.lo ≤ k) && decide (k < v.stop)) = false := by simpa using hv
      rw [e0, ← ih]
      have e1 : ([{ v with stop := min v.stop lo }, { v with lo := max v.lo stop }].filter (fun v => decide (v.lo < v.stop))).find?
          (fun v => decide (v.lo ≤ k) && decide (k < v.stop)) = none := by
        rw [List.find?_eq_none]
        intro x hx
        have hm := (List.mem_filter.mp hx).1
        simp only [List.mem_cons, List.mem_nil_iff, or_false] at hm
        rcases hm with rfl | rfl
        · simpa using h1
        · simpa using h2
      rw [e1]
      rfl

theorem Mem.unlisted_clearStack (m : Mem) {lo stop k : Nat} (h : k < lo ∨ stop ≤ k ∨ storeBase ≤ k) :
    (m.clearStack lo stop).unlisted k = m.unlisted k := by
  unfold Mem.unlisted
  by_cases hs : storeBase ≤ k
  · simp [hs, Mem.clearStack]
  · have h' : k < lo ∨ stop ≤ k := by omega
    have e := find_cutVague m.vague h'
    simp only [hs, if_false, Mem.clearStack]
    cases h1 : (cutVague m.vague lo stop).find? (fun v => decide (v.lo ≤ k) && decide (k < v.stop)) <;>
      cases h2 : m.vague.find? (fun v => decide (v.lo ≤ k) && decide (k < v.stop)) <;>
      rw [h1, h2] at e <;> simp_all

theorem Mem.wf_clearStack {m : Mem} (lo stop : Nat) (h : m.wf = true) : (m.clearStack lo stop).wf = true :=
  Memory.wf_clear_change _ _ (fun k hk => (Mem.unlisted_clearStack m (by omega)).symm) h

theorem Mem.wf_spoilStack {m : Mem} (lo stop f : Nat) (h : m.wf = true) : (m.spoilStack lo stop f).wf = true := by
  refine Memory.wf_clear_change (d := m.unlisted) lo (min stop storeBase) (fun k hk => ?_) h
  rw [← Mem.unlisted_clearStack m (lo := lo) (stop := stop) (k := k) (by omega)]
  unfold Mem.unlisted
  by_cases hs : storeBase ≤ k
  · simp [hs, Mem.spoilStack]
  · have h' : ¬ (lo ≤ k ∧ k < stop) := by omega
    have e0 : (decide (lo ≤ k) && decide (k < stop)) = false := by simpa using h'
    simp only [hs, if_false, Mem.spoilStack, List.find?_cons, e0]

theorem Mem.wf_spoilStore {m : Mem} (n f : Nat) (h : m.wf = true) : (m.spoilStore n f).wf = true := by
  refine Memory.wf_clear_change (d := m.unlisted) _ _ (fun k hk => ?_) h
  unfold Mem.unlisted
  by_cases hs : storeBase ≤ k
  · simp only [hs, if_true, Mem.spoilStore]
    by_cases ho : 0x200000 ≤ (k - storeBase) % storeStride ∧ (k - storeBase) % storeStride < storeEnd
    · have hn : (k - storeBase) / storeStride ≠ n := by
        intro e
        have := Nat.div_add_mod (k - storeBase) storeStride
        rw [e] at this
        have : storeStride * n = n * storeStride := Nat.mul_comm _ _
        omega
      simp only [ho, and_self, if_true, look_put_other _ _ hn]
    · simp only [ho, if_false]
  · simp only [hs, if_false, Mem.spoilStore]

theorem look_filter_key {α : Type} (l : Assoc α) (p : Nat → Bool) {j : Nat} (h : p j = true) :
    look (l.filter (fun e => p e.1)) j = look l j := by
  induction l with
  | nil => rfl
  | cons e t ih =>
    obtain ⟨a, w⟩ := e
    by_cases h1 : a = j
    · subst h1; rw [List.filter_cons_of_pos (by simpa using h)]; simp [look]
    · by_cases h2 : p a = true
      · rw [List.filter_cons_of_pos (by simpa using h2)]; simp [look, h1, ih]
      · rw [List.filter_cons_of_neg (by simpa using h2)]; simp [look, h1, ih]

theorem Mem.wf_clearStores {m : Mem} (lo stop : Nat) (h : m.wf = true) : (m.clearStores lo stop).wf = true := by
  refine Memory.wf_clear_change (d := m.unlisted) _ _ (fun k hk => ?_) h
  unfold Mem.unlisted
  by_cases hs : storeBase ≤ k
  · simp only [hs, if_true, Mem.clearStores]
    have hn : (decide ((k - storeBase) / storeStride < lo) || decide (stop ≤ (k - storeBase) / storeStride)) = true := by
      have h0 : 0 < storeStride := by decide
      rcases hk with hk | hk
      · have : (k - storeBase) / storeStride < lo := (Nat.div_lt_iff_lt_mul h0).mpr (by omega)
        simp [this]
      · have : stop ≤ (k - storeBase) / storeStride := (Nat.le_div_iff_mul_le h0).mpr (by omega)
        simp [this]
    rw [look_filter_key m.spoiled (fun i => decide (i < lo) || decide (stop ≤ i)) hn]
  · simp only [hs, if_false, Mem.clearStores]

/-- A fold whose every step keeps the canonical form keeps it. -/
theorem Mem.wf_foldl {β : Type} (f : Mem → β → Mem) (hf : ∀ m b, m.wf = true → (f m b).wf = true) (l : List β) (m : Mem)
    (h : m.wf = true) : (l.foldl f m).wf = true := by
  induction l generalizing m with
  | nil => exact h
  | cons b t ih => exact ih _ (hf m b h)

/-! ### Writes of the package's memory -/

theorem pokeBytes_wf (s : State) (a : Nat) (bs : List Byte) (h : s.mem.wf = true) :
    (pokeBytes s a bs).mem.wf = true :=
  Mem.wf_foldl _ (fun _ _ hm => Mem.wf_write _ _ hm) _ _ h

theorem carryPoison_mem (s : State) (src dst n : Nat) : (carryPoison s src dst n).mem = s.mem := rfl

theorem captureBlock_mem (s : State) (key : Nat) (st : BlockState) : (captureBlock s key st).mem = s.mem := by
  unfold captureBlock
  cases s.ckpt.capture with
  | none => rfl
  | some c =>
    dsimp only
    cases lookD c.blocks key .uncaptured <;> rfl

theorem cowBlock_wf (s : State) (key : Nat) (h : s.mem.wf = true) : (cowBlock s key).mem.wf = true := by
  unfold cowBlock
  split
  · exact h
  · split
    · exact h
    · extract_lets d size s1
      have e : s1.mem = s.mem := by
        dsimp only [s1]
        split
        · rfl
        · split
          · exact captureBlock_mem _ _ _
          · rfl
      clear_value s1
      split
      · rw [e]; exact h
      · split
        · rw [e]; exact h
        · rename_i p _
          generalize rdBytes s1 (blockAddr d (key % 2 ^ 32)) 0x10000 = bs
          exact pokeBytes_wf s1 (poolAddr s1 d p) bs (by rw [e]; exact h)

theorem cowRange_wf (s : State) (a n : Nat) (h : s.mem.wf = true) : (cowRange s a n).mem.wf = true := by
  unfold cowRange
  split
  · exact h
  · generalize blocksOf a n = l
    clear * - h
    induction l generalizing s with
    | nil => exact h
    | cons b t ih => exact ih _ (cowBlock_wf s b h)

/-- A write of memory keeps the canonical form, whatever a capture or poison makes of it. -/
theorem wrBytes_wf (s : State) (a : Nat) (bs : List Byte) (h : s.mem.wf = true) :
    (wrBytes s a bs).mem.wf = true := by
  unfold wrBytes
  have hc := cowRange_wf s a bs.length h
  extract_lets s1 keys full stay
  split
  · exact pokeBytes_wf _ _ _ hc
  · refine Mem.wf_foldl _ (fun m i hm => ?_) _ _ hc
    dsimp only
    split
    · exact hm
    · exact Mem.wf_write _ _ hm

theorem wrNat_wf (s : State) (a n v : Nat) (h : s.mem.wf = true) : (wrNat s a n v).mem.wf = true :=
  wrBytes_wf s a _ h

/-- With no capture active and no line poisoned, a write changes memory alone. -/
theorem wrBytes_plain (s : State) (a : Nat) (bs : List Byte) (hc : s.ckpt.capture = none) (hp : s.poison = []) :
    wrBytes s a bs = pokeBytes s a bs := by
  simp [wrBytes, cowRange, hc, hp]

end Sys2Proof.Machine
end

