-- ==== Sys2Proof/Tests/Slice0.lean ====
section
/-! SUPPORT. Tests: ill-formed commands that the check refuses, effects on fixed values, and for every statement with hypotheses
a witness, a concrete state and operands that meet them, clause by clause. -/

open Sys2Proof Sys2Proof.Machine

namespace Sys2Proof.Tests

set_option Elab.async false

/-! ### States and operands for the tests -/

/-- A header of a command from management port 0, without a session. -/
def h0 : CmdHdr where
  session := 0
  master := 0x2000
  stream := 0
  seq := 0
  stamp := 0
  wake := false
  port := .mgt 0 0 0
  posted := none
  occurrence := none

/-- A header of slot 0's session, generation 1. -/
def h1 : CmdHdr := { h0 with session := 64, seq := 5 }

/-- An end of an edge that is UP on all its bundles. -/
def linkUp (e : Fin 8) : LinkEnd := { LinkEnd.reset with
  tstate := 5
  mask := fullMask e.val
  peerMask := fullMask e.val
  crReq := 128
  crRsp := 128 }

/-- A package in service: RUNNING, registered, in Run, every die, stack and edge up, nothing running. -/
def up : State := { State.reset with
  boot := { State.reset.boot with
    stage := 9
    complete := true }
  tap := { State.reset.tap with
    pwrEn := true
    resetN := true }
  dies := State.reset.dies.map (fun d => { d with
    st := .up
    on := true })
  stk := State.reset.stk.map (fun k => { k with st := .up })
  links := Vector.ofFn (fun e => (linkUp e, linkUp e))
  pkgId := 1 }

/-- `up` with an edge that trains. -/
def training (e : Nat) : State := modEdge up e (trainEnd e 1)

/-- No slot of `up` has entered a drain queue. -/
theorem drains_up : DrainsEmpty up := fun _ a => match a with
  | 0 => rfl
  | 1 => rfl
  | 2 => rfl
  | 3 => rfl

/-- An open session in slot 0. -/
def sess : Session where
  gen := 1
  cred := 0
  keys := { kc := [], kr := [] }
  old := []
  rotating := []
  h := 10
  seen := []
  last := 0
  classes := 0
  port := .mgt 0 0 0

/-- `up` with that session open. -/
def upS : State := { up with cmd := { up.cmd with sessions := [(0, sess)] } }

/-- `up` at a Fabric Time. -/
def at_ (ft : W64) : State := { up with inv := { up.inv with ft := ft, clk := ft } }

/-- A power state of `up`. -/
def pow (f : Power → Power) : State := { up with power := f up.power }

/-- A boot block of `up`. -/
def boot (f : Boot → Boot) : State := { up with boot := f up.boot }

/-- The words of an instruction. -/
def word (w0 w1 w2 w3 : Nat) : Nat := w0 + w1 * 2 ^ 32 + w2 * 2 ^ 64 + w3 * 2 ^ 96

/-- CLS and OP of word 0 (R116). -/
def clsOp (cls op : Nat) : Nat := cls * 2 ^ 29 + op * 2 ^ 24

/-- `up` with an instruction at 0x1000 of cluster 0's store, and FWD running there with the context `b`. -/
def seat (b : Stream) (w : Nat) : State :=
  modStream (wrNat up (storeAddr 0 0x1000) 16 w) 0 .fwd (fun _ => { b with
    st := .running
    pc := 0x1000 })

/-- That instruction as issued. -/
def insOf (b : Stream) (w : Nat) : Issued := { n := b.issued, pc := 0x1000, w := BitVec.ofNat 128 w, x := b.x, win := b.win }

/-- A context in which every scalar holds `v`. -/
def scal (v : W64) : Stream := { Stream.reset with x := Vector.replicate 16 v }

/-- The instruction at 0x1000 is the one that FWD issues next, and nothing waits in the vector unit or before a sync word. -/
abbrev Seated (b : Stream) (w cls op : Nat) : Prop := Issues (seat b w) 0 .fwd (insOf b w) none cls op ∧
  (cluster (seat b w) 0).vecq = [] ∧ (stream (seat b w) 0 .fwd).synq = [] ∧ (stream (seat b w) 0 .fwd).block = .none

/-! ### Well-formed and ill-formed commands -/

theorem test_wellFormed_accepts : WellFormed (.ctlNop 4095 .fwd) = true ∧ WellFormed (.timeQuery h0) = true := by
  decide +kernel

theorem test_wellFormed_cluster : WellFormed (.ctlNop 4096 .fwd) = false := by decide +kernel

theorem test_wellFormed_lengths : WellFormed (.attest h0 [0] 0) = false ∧ WellFormed (.keyRotate h0 []) = false ∧
    WellFormed (.regWrite h0 0 2 [0]) = false ∧ WellFormed (.seedSet h0 [] 0 1 3 1) = false ∧
    WellFormed (.memWrite h0 ⟨0, 0, 0, 0⟩ 1 []) = false ∧ WellFormed (.streamStart h0 0 0 0 0 0 []) = false ∧
    WellFormed (.accessTableSet h0 0 0 1 []) = false := by decide +kernel

theorem test_wellFormed_sessions : WellFormed (.sessionInactivityExpiry 64) = false ∧
    WellFormed (.sessionOpen h0 0 [] [] 0 [] [] []) = false ∧ WellFormed (.streamStopped 16384) = false := by decide +kernel

/-- The table gives no row any bits. -/
theorem test_no_word_is_a_command : decodeTableWord 32 0x12345678 = none ∧
    (State.reset.withFetchWord 32 1).pending = [] := by decide +kernel

/-! ### Effects that the manual states on fixed values -/

/-- 02_fabric_time.md: after reset FT_TICK is 1,000 ns, the parent 0xFF, FT_STATE FREE. -/
theorem test_reset_invar : State.reset.inv.tickNs = 1000 ∧ State.reset.inv.parent = 0xFF ∧ State.reset.inv.state = 0 := by
  decide +kernel

/-- A register access of another size than 8 bytes is BAD_PARAM. -/
theorem test_register_write_size : ∃ t, exec (.registerWrite 0x2000 (BitVec.ofNat 64 (ctrlAddr 0x04 0x18)) 4 0) up = .next t ∧
    t.lastStatus = .badParam := ⟨_, rfl, by decide +kernel⟩

/-- R42: a tick of 999 ns does not divide a second, one of 500 ns does. -/
theorem test_ft_tick : (∃ t, exec (.ftTickWrite 0x2000 999) up = .next t ∧ t.lastStatus = .badParam) ∧
    (∃ t, exec (.ftTickWrite 0x2000 500) up = .next t ∧ t.inv.tickNs = 500) :=
  ⟨⟨_, rfl, by decide +kernel⟩, ⟨_, rfl, by decide +kernel⟩⟩

/-- R133: SETI writes IMM to X[XD], and PC moves on by 16. -/
theorem test_seti : ∃ t, exec (.ctlSeti 0 .fwd) (seat Stream.reset (word (clsOp 4 1 + 3 * 2 ^ 12) 7 0 0)) = .next t ∧
    (stream t 0 .fwd).pc = 0x1010 ∧ vgetD (stream t 0 .fwd).x 3 0 = 7 := ⟨_, rfl, by decide +kernel⟩


/-- R451: with PWR_EN low ALERT_N is released and the fabric lanes float; in Run they are driven. -/
theorem test_outputs : pinDrive State.reset .alertN = .released ∧ pinDrive State.reset (.port 0) = .floating ∧
    pinDrive up (.port 0) = .driven ∧ pinDrive up .i3cSda = .target := by decide +kernel

/-- R371: the header of a logged STEP_BEGIN of session 0x00C5 (OPCODE 0x0401, STREAM 0xFFFF, SEQUENCE 40,001, 8 B of parameters). -/
theorem test_logRecordHeader : recordHeader ⟨0x0401, 0xFFFF, 40001, 0x2005, 0, 0, 0, 0, List.replicate 8 0⟩ (recordLen 8) =
    [0xFF, 0xFF, 0x01, 0x04, 0x41, 0x9C, 0, 0, 0, 0, 0x05, 0x20, 64, 0, 0, 0] ++ List.replicate 16 0 := by decide +kernel

/-! ### Witnesses: states and operands that meet the hypotheses of each statement, clause by clause -/

theorem witness_StepTakesTheFrontCommand : ({ up with pending := [.timeOutPulse, .recovery] } : State).pending =
    .timeOutPulse :: [.recovery] := rfl

theorem witness_IdleStepLetsANanosecondPass : State.reset.pending = [] ∧ State.reset.tap.pwrEn = false ∧ up.pending = [] ∧
    up.tap.pwrEn = true ∧ up.inv.slew = 0 ∧ (∀ p, p < 4 → (port up p).ethWait = []) ∧
    (let s := modPort up 3 (fun q => { q with ethWait := [([0], 0)] })
     s.pending = [] ∧ s.tap.pwrEn = true ∧ (port s 3).ethPause.toNat ≤ (s.inv.clk + 1).toNat) := by decide +kernel

theorem witness_CommandsAreGatedByStageAndPowerState :
    cmdOf (.timeQuery h0) = some (h0, 0x0505) ∧ served State.reset = false ∧
    (served (pow (fun p => { p with st := 2 })) = true ∧ powerAdmits (pow (fun p => { p with st := 2 })) (.stepBegin h0 0) = false) ∧
    (let s := boot (fun b => { b with stage := 7, complete := false })
     served s = true ∧ powerAdmits s (.stepBegin h0 0) = true ∧ stageAdmits s (.stepBegin h0 0) = false) ∧
    (let s := training 4
     served s = true ∧ powerAdmits s (.memRead h0 ⟨0x1000, 0, 0, 0⟩ 8) = true ∧
     stageAdmits s (.memRead h0 ⟨0x1000, 0, 0, 0⟩ 8) = true ∧ edgeHeld s (.memRead h0 ⟨0x1000, 0, 0, 0⟩ 8) = true) := by
  decide +kernel

theorem witness_StepKeepsMemoryCanonical : (wrNat up 0x1000 8 5).mem.cells.length = 1 ∧ MemoryCanonical (wrNat up 0x1000 8 5) ∧ (wrNat up 0x1000 8 5).mem ≠ Mem.reset ∧
    ∃ t, step (wrNat up 0x1000 8 5) = .next t := ⟨by decide +kernel, (by decide +kernel : (wrNat up 0x1000 8 5).mem.wf = true), by decide +kernel, ⟨_, rfl⟩⟩

theorem witness_MemoryReadsWhatWasWritten : up.ckpt.capture = none ∧ up.poison = [] ∧ mapped 0x17FFFFFFFFE 2 = true ∧
    mapped (storeAddr 4095 0) 8 = true ∧ keyOf 0 ≠ keyOf 0x17FFFFFFFFE := by decide +kernel

theorem witness_AReplyChangesOnlyWhatReplyingChanges : h0.occurrence = none ∧ (∃ m ip udp, h0.port = .mgt m ip udp) :=
  ⟨rfl, 0, 0, 0, rfl⟩

/-- A credential of the session role in slot 0. -/
def upC : State := { upS with cob := { up.cob with creds := [(0, { role := 1, ordinal := 1, pubkey := [] })] } }

/-- ML-DSA is opaque (log entry 4), so that a signature verifies is a hypothesis. -/
theorem witness_SessionCommandsDoWhatTheyName
    (hv : Config.mldsaVerify [] (slice [] 0 64 ++ openParams 0 [] []) (ascii "APUNE OPEN") [] = true) :
    Config.mldsaVerify [] (slice [] 0 64 ++ openParams 0 [] []) (ascii "APUNE OPEN") [] = true ∧
    (InService upC ∧ h0.session = 0 ∧ h0.master.toNat = 0x2000 ∧ h0.seq = 0 ∧ (1 : W64) ≠ 0 ∧
      (1 : W64).toNat ≤ h0.stamp.toNat + 10000000000 ∧ lifecycle upC < 2 ∧
      look upC.cob.creds 0 = some { role := 1, ordinal := 1, pubkey := [] } ∧ (1 : Byte).getLsbD 0 = true ∧
      (liveNonces upC 0).all (fun e => e.1 != slice [] 0 32) = true ∧ (liveNonces upC 0).length < 1024 ∧
      freeSlot upC 0 = some 1) ∧
    sessionOf upS h1.session = some (0, sess) ∧ sessionOf up h1.session = none ∧
    (let s := { upS with inv := { upS.inv with clk := 600000000000 } }
     look s.cmd.sessions 0 = some sess ∧ sess.last.toNat + 600000000000 ≤ clk s) ∧ (511 : W32).toNat < 512 :=
  ⟨hv, by decide +kernel⟩

theorem witness_SessionCommandsDoWhatTheyName_end : look upS.cmd.sessions 0 = some sess ∧
    (let s := { upS with cmd := { upS.cmd with sessions := [(63, sess)] }, sync := { up.sync with index := [(0x1000, 0x483F)] } }
     look s.cmd.sessions 63 = some sess ∧ (0x483F : W16).toNat = 0x4800 + 63) := by decide +kernel

/-- An XADDR of local memory. -/
def loc (a : W64) : XAddr := { addr := a, kind := 0, port := 0, qp := 0 }

theorem witness_RegisterAndMemoryCommandsMoveTheirBytes : InService up ∧
    (let a := ctrlAddr 0x04 0
     aligned a 8 = true ∧ ctrlRange a (8 * 2) = true ∧ cmdAccess up h0.master.toNat a (8 * 2) .r = .done) ∧
    (xPlace up (loc 0x1000) 0 = .here 0x1000 ∧ memStatus up h0.master.toNat (loc 0x1000) 61440 .r = .done ∧
      meetsCtrl 0x1000 61440 = false ∧ readMeets up 0x1000 61440 = .done) ∧
    (memStatus up h0.master.toNat (loc 0x1000) 2 .w = .done ∧ meetsCtrl 0x1000 2 = false) := by decide +kernel

theorem witness_CopyAndFillMoveOneSliceAtATime : InService up ∧ up.poison = [] ∧
    up.cmd.longs.all (fun o => o.id != up.cmd.nextLong) = true ∧
    (memStatus up h0.master.toNat (loc 0x1000) 16 .w = .done ∧ meetsCtrl 0x1000 16 = false ∧ (9 : Nat) < 16) ∧
    (memStatus up h0.master.toNat (loc 0x2000) 16 .r = .done ∧ observerStatus up 0x2000 16 = .done ∧
      meetsCtrl 0x2000 16 = false ∧ (∀ i, i < 16 → keyIn 0x1000 16 (keyOf (0x2000 + i)) = false) ∧
      cmdPending up up.cmd.nextLong = false) ∧ DrainsEmpty up :=
  ⟨by decide +kernel, by decide +kernel, by decide +kernel, by decide +kernel, by decide +kernel, drains_up⟩

theorem witness_ProgramLoadAndSeedSetReachEveryNamedCluster :
    loadRefused up h0.master.toNat 0x1000 64 0 0 1 = .done ∧ poisoned up 0x1000 64 = false ∧
    namedLost up 0 4096 = false ∧ namedOff up 0 4096 = false ∧ namedRuns up 0 4096 = false := by decide +kernel

/-- FWD of cluster 0 in a given state. -/
def fwd (f : Stream → Stream) : State := modStream up 0 .fwd f

theorem witness_StreamCommandsStartStopAndReport : h0.stream.toNat = streamNo 0 .fwd ∧
    ((die up 0).on = true ∧ dieFenced up 0 = false ∧ namedServes up 0 1 = false) ∧
    freshOk up 0 .fwd { hdr := h0, form := 0, banks := 1, entLo := 0, entHi := 1, pc := 0, xs := [] } = true ∧
    (stream up 0 .fwd).st = .idle ∧
    (stream (fwd (fun t => { t with st := .stopped })) 0 .fwd).st = .stopped ∧
    (let s := fwd (fun t => { t with st := .stopping })
     (stream s 0 .fwd).st = .stopping ∧ (stream s 0 .fwd).deferred = none ∧ streamQuiet s 0 .fwd = true) ∧
    (stream (fwd (fun t => { t with st := .running })) 0 .fwd).st = .running ∧ streamNo 0 .fwd + 1024 ≤ 16384 := by
  decide +kernel

theorem witness_SequencerMovesOn :
    (let l : Loop := { count := 2, index := 0, start := 0, stop := 0x1000, xd := 1 }
     let s := fwd (fun t => { t with loops := [l] })
     (stream s 0 .fwd).loops = l :: [] ∧ l.stop = (insOf Stream.reset 0).pc ∧ l.index.toNat + 1 < l.count.toNat) ∧
    (let l : Loop := { count := 2, index := 1, start := 0, stop := 0x1000, xd := 1 }
     let s := fwd (fun t => { t with loops := [l] })
     (stream s 0 .fwd).loops = l :: [] ∧ l.stop = (insOf Stream.reset 0).pc ∧ l.count.toNat ≤ l.index.toNat + 1) ∧
    (stream up 0 .fwd).loops.head? = none := by decide +kernel

theorem witness_ScalarControlInstructionsSetRegisters :
    (∀ o ∈ [0x0, 0x1, 0x5, 0x6, 0x8, 0xA, 0xB], Seated (scal 8) (word (clsOp 4 o) 0 0 0) 4 o ∧
      (insOf (scal 8) (word (clsOp 4 o) 0 0 0)).fn = 0) ∧
    (let i := insOf (scal 8) (word (clsOp 4 2) 0 0 0)
     Seated (scal 8) (word (clsOp 4 2) 0 0 0) 4 2 ∧ (aluOp i.fn (i.xr i.cxa) i.opnd).isSome = true) ∧
    (let i := insOf (scal 8) (word (clsOp 4 5 + 2 ^ 8) (0x2FFFF0) 0 0)
     aligned i.sum 8 = true ∧ inStore i.sum 8 = true) ∧
    (∀ fn, fn ≤ 5 → (specialReg up 0 .fwd fn).isSome = true) := by decide +kernel

/-- `seat` with a LOAD of FWD waiting in the queue of array 0. -/
def busySeat (w : Nat) : State := modArray (seat (scal 8) w) 0 0 (fun a => { a with
  queue := [{ c := .fwd, ins := { insOf (scal 8) 0 with n := 7 }, isLoad := true, slots := 0 }] })

theorem witness_FlowControlInstructionsMovePc :
    (let w := word (clsOp 4 3) 0 0 4
     let i := insOf (scal 8) w
     Seated (scal 8) w 4 3 ∧ brCond i.fn (i.xr i.cxa) i.opnd (stream (seat (scal 8) w) 0 .fwd).c = some true) ∧
    (let w := word (clsOp 4 3 + 2 * 2 ^ 18) 0 0 4
     let i := insOf (scal 8) w
     Seated (scal 8) w 4 3 ∧ brCond i.fn (i.xr i.cxa) i.opnd (stream (seat (scal 8) w) 0 .fwd).c = some false) ∧
    (let w := word (clsOp 4 4 + 1 * 2 ^ 8) 0 0 4
     let i := insOf (scal 8) w
     Seated (scal 8) w 4 4 ∧ i.fn = 0 ∧ 0 < i.off ∧ (stream (seat (scal 8) w) 0 .fwd).loops.length < 4 ∧ i.xr i.cxa ≠ 0 ∧
     (insOf (scal 8) (word (clsOp 4 4) 0 0 4)).xr 0 = 0) ∧
    (let w := word (clsOp 4 7 + 1 * 2 ^ 18) 0 0 0
     let i := insOf (scal 8) w
     Seated (scal 8) w 4 7 ∧ (outstanding (seat (scal 8) w) 0 .fwd).all (fun o => !bit i.fn o.2.2) = true ∧
     Issues (busySeat w) 0 .fwd i none 4 7 ∧ (outstanding (busySeat w) 0 .fwd).any (fun o => bit i.fn o.2.2) = true) ∧
    (let w := word (clsOp 4 9) 0 0 0
     let i := insOf (scal 8) w
     Seated (scal 8) w 4 9 ∧ i.fn = 0 ∧ streamQuiet (seat (scal 8) w) 0 .fwd = true ∧
     Issues (busySeat w) 0 .fwd i none 4 9 ∧ streamQuiet (busySeat w) 0 .fwd = false) ∧
    (let f : FaultInfo := { cause := .badParam, cls := 1, pc := 0, isMov := false, movFresh := false, units := 0 }
     let s := fwd (fun t => { t with
       st := .running
       fault := some f })
     (stream s 0 .fwd).st = .running ∧ (stream s 0 .fwd).fault ≠ none) := by decide +kernel

theorem witness_ReservedFormsFault :
    (∀ o ∈ [0x0, 0x1, 0x4, 0x5, 0x6, 0x8, 0x9], Seated (scal 8) (word (clsOp 4 o + 15 * 2 ^ 18) 0 0 0) 4 o ∧
      (insOf (scal 8) (word (clsOp 4 o + 15 * 2 ^ 18) 0 0 0)).fn ≠ 0) ∧
    (∀ o ∈ [0x2, 0x3, 0xA, 0xB], Seated (scal 8) (word (clsOp 4 o + 15 * 2 ^ 18) 0 0 0) 4 o ∧
      (insOf (scal 8) (word (clsOp 4 o + 15 * 2 ^ 18) 0 0 0)).fn = 15) ∧
    (∀ o ∈ [0x5, 0x6], Seated (scal 8) (word (clsOp 4 o) 1 0 0) 4 o ∧
      aligned (insOf (scal 8) (word (clsOp 4 o) 1 0 0)).sum 8 = false) ∧
    (Seated (scal 8) (word (clsOp 4 4) 0 0 0) 4 4 ∧ (insOf (scal 8) (word (clsOp 4 4) 0 0 0)).off ≤ 0) ∧
    (∀ o ∈ [0x00, 0x01, 0x02, 0x03, 0x04, 0x05, 0x06, 0x07, 0x08, 0x09, 0x0A, 0x0B, 0x0C, 0x0D, 0x0E, 0x11, 0x12, 0x13, 0x14,
        0x15, 0x16], Seated (scal 8) (word (clsOp 1 o + 3 * 2 ^ 20) 0 0 0) 1 o ∧
      vtypOf ((insOf (scal 8) (word (clsOp 1 o + 3 * 2 ^ 20) 0 0 0)).f 0 21 20) = none) ∧
    (Seated (scal 8) (word (clsOp 1 0x0C) 0x300000 0 0) 1 0x0C ∧
      lanesInStore (insOf (scal 8) (word (clsOp 1 0x0C) 0x300000 0 0)) .fp32 = false) := by decide +kernel

theorem witness_VectorResultsFillTheDestination : (insOf Stream.reset (word (15 * 2 ^ 16) 0 0 0)).vd = 15 ∧
    (insOf Stream.reset (word (15 * 2 ^ 16) 0 0 0)).vd + (insOf Stream.reset (word (15 * 2 ^ 16) 0 0 0)).regs ≤ 16 := by
  decide +kernel

theorem witness_VectorBinaryArithmetic :
    (∀ o ∈ [0x00, 0x01, 0x02, 0x03, 0x04, 0x05, 0x06], Seated Stream.reset (word (clsOp 1 o) 0 0 0) 1 o ∧
      (cluster (seat Stream.reset (word (clsOp 1 o) 0 0 0)) 0).vecq = [] ∧
      VecForm (insOf Stream.reset (word (clsOp 1 o) 0 0 0)) .fp32 [.fp32, .bf16] ∧
      VecForm (insOf Stream.reset (word (clsOp 1 o + 2 ^ 20) 0 0 0)) .bf16 [.fp32, .bf16]) ∧
    (∀ o ∈ [0x00, 0x01, 0x02, 0x03, 0x04, 0x05], Seated Stream.reset (word (clsOp 1 o + 2 * 2 ^ 20 + 15) 0 0 0) 1 o ∧
      VecForm (insOf Stream.reset (word (clsOp 1 o + 2 * 2 ^ 20 + 15) 0 0 0)) .int32 [.int32]) := by
  decide +kernel

theorem witness_VectorUnaryAndTransferOperations :
    (∀ o ∈ [0x07, 0x08, 0x09, 0x0A, 0x0B, 0x15, 0x16], Seated Stream.reset (word (clsOp 1 o) 0 0 0) 1 o ∧
      VecForm (insOf Stream.reset (word (clsOp 1 o) 0 0 0)) .fp32 [.fp32, .bf16]) := by decide +kernel

/-- A context with X1 = 0x40 and X2 = 0x80. -/
def ptrs : Stream := (Stream.reset.setX 1 0x40).setX 2 0x80

/-- `seat` with tensor descriptors at 0x40 and 0x80 of the store (R123): 64 columns of 2 rows, of FMT `f` and `g`. -/
def tensorSeat (w f g : Nat) : State :=
  let d := fun fmt base => leBytes 4 (fmt * 2 ^ 22 + base) ++ leBytes 4 0x8000 ++ leBytes 4 0x100 ++ leBytes 4 8 ++ leBytes 4 64 ++
    leBytes 4 2 ++ leBytes 4 0 ++ leBytes 4 0
  wrBytes (wrBytes (seat ptrs w) (storeAddr 0 0x40) (d f 0x4000)) (storeAddr 0 0x80) (d g 0x6000)

theorem witness_VectorLoadsStoresAndConversions :
    (∀ o ∈ [0x0C, 0x0D], Seated Stream.reset (word (clsOp 1 o) 0 (2 ^ 18) 0) 1 o ∧
      VecForm (insOf Stream.reset (word (clsOp 1 o) 0 (2 ^ 18) 0)) .fp32 [.fp32, .bf16] ∧
      lanesInStore (insOf Stream.reset (word (clsOp 1 o) 0 (2 ^ 18) 0)) .fp32 = true) ∧
    (Seated Stream.reset (word (clsOp 1 0x0E + 2 ^ 20) 0 0 0) 1 0x0E ∧
      VecForm (insOf Stream.reset (word (clsOp 1 0x0E + 2 ^ 20) 0 0 0)) .bf16 [.bf16]) ∧
    (Seated Stream.reset (word (clsOp 1 0x0E) 0 0 0) 1 0x0E ∧
      VecForm (insOf Stream.reset (word (clsOp 1 0x0E) 0 0 0)) .fp32 [.fp32] ∧
      (insOf Stream.reset (word (clsOp 1 0x0E) 0 0 0)).sr = false) ∧
    (let w := word (clsOp 1 0x0F) 0 1 0
     let s := tensorSeat w 3 3
     Issues s 0 .fwd (insOf ptrs w) none 1 0x0F ∧ VecForm (insOf ptrs w) .fp32 [.fp32] ∧
      (cluster s 0).vecq = [] ∧ vecHeld s 0 (insOf ptrs w) = false ∧ (readTD s 0 0x40).any (cvtbOk s (insOf ptrs w)) = true) ∧
    (let w := word (clsOp 1 0x10) 0 (1 + 2 * 2 ^ 4) 0
     let s := tensorSeat w 6 3
     Issues s 0 .fwd (insOf ptrs w) none 1 0x10 ∧ VecForm (insOf ptrs w) .fp32 [.fp32] ∧
      (cluster s 0).vecq = [] ∧ vecHeld s 0 (insOf ptrs w) = false ∧
      (readTD s 0 0x40).any (fun a => (readTD s 0 0x80).any (cvt8Ok s (insOf ptrs w) a)) = true) := by decide +kernel

/-- CVT under SR. -/
theorem witness_VectorLoadsStoresAndConversions_sr : Seated Stream.reset (word (clsOp 1 0x0E) 0 (2 ^ 12) 0) 1 0x0E ∧
    VecForm (insOf Stream.reset (word (clsOp 1 0x0E) 0 (2 ^ 12) 0)) .fp32 [.fp32] ∧
    (insOf Stream.reset (word (clsOp 1 0x0E) 0 (2 ^ 12) 0)).sr = true := by decide +kernel

/-- CVTB into a tensor of FP8, CVT8 from one of F4: neither is a pairing of R126. A SYN operand of 2^48, and a READ of no entry. -/
theorem witness_ReservedFormsFault_checks :
    (let w := word (clsOp 1 0x0F) 0 1 0
     let s := tensorSeat w 6 3
     Issues s 0 .fwd (insOf ptrs w) none 1 0x0F ∧ vecHeld s 0 (insOf ptrs w) = false ∧
     (readTD s 0 0x40).all (fun d => !cvtbOk s (insOf ptrs w) d) = true) ∧
    (let w := word (clsOp 1 0x10) 0 (1 + 2 * 2 ^ 4) 0
     let s := tensorSeat w 3 3
     Issues s 0 .fwd (insOf ptrs w) none 1 0x10 ∧ vecHeld s 0 (insOf ptrs w) = false ∧
     (readTD s 0 0x40).all (fun a => (readTD s 0 0x80).all (fun d => !cvt8Ok s (insOf ptrs w) a d)) = true) ∧
    (∀ o ∈ [0, 1, 3, 4], let w := word (clsOp 3 o + 2 ^ 4) 0 0 0
      let i := insOf (scal (2 ^ 48)) w
      Seated (scal (2 ^ 48)) w 3 o ∧ 2 ^ 48 ≤ i.synOp ∧ synHeld (seat (scal (2 ^ 48)) w) 0 i = false ∧
      (stream (seat (scal (2 ^ 48)) w) 0 .fwd).fault = none) ∧
    roOk up 0 (insOf ptrs (word (clsOp 0 2) 0 0 0)) = false := by decide +kernel

theorem witness_VectorReductionsWriteTheirScalar :
    (∀ o ∈ [0x11, 0x12, 0x13, 0x14], Seated Stream.reset (word (clsOp 1 o) 0 0 0) 1 o ∧
      VecForm (insOf Stream.reset (word (clsOp 1 o) 0 0 0)) .fp32 [.fp32]) := by decide +kernel

theorem witness_VectorReductionsWriteTheirScalar_winners : [[0x3F800000], [0x80000000]].flatten ≠ [] ∧
    (∀ x ∈ [[0x3F800000], [0x80000000]].flatten, x < 2 ^ 32 ∧ f32 x ≠ .nan) := by decide +kernel

/-- A package whose guard tracks TID 0 and whose STEP_COMMIT waits. -/
def commitWaits (s : State) : State := { s with
  guard := { s.guard with
    en := true
    cfg := [(0, [])] }
  cmd := { s.cmd with longs := [{ id := 0, hdr := h0, opcode := 0x0402, kind := .stepCommit 0, cursor := 0, lastReply := 0 }] } }

/-- `s` whose vector unit holds `m` conversions of FWD. -/
def vecWaits (s : State) (m : Nat) (w : Nat) : State := modCluster s 0 (fun k => { k with
  vecq := List.replicate m (.fwd, insOf ptrs w) })

/-- The vector unit empty, with a conversion at its head that the commit holds, and full. -/
theorem witness_ConversionsWaitForTheCommit :
    (let w := word (clsOp 1 0x0F) 0 1 0
     let s := commitWaits (tensorSeat w 3 3)
     (cluster s 0).vecq = [] ∧ Issues s 0 .fwd (insOf ptrs w) none 1 0x0F ∧ vecHeld s 0 (insOf ptrs w) = true) ∧
    (let w := word (clsOp 1 0x10) 0 (1 + 2 * 2 ^ 4) 0
     let s := commitWaits (tensorSeat w 6 3)
     (cluster s 0).vecq = [] ∧ Issues s 0 .fwd (insOf ptrs w) none 1 0x10 ∧ vecHeld s 0 (insOf ptrs w) = true) ∧
    (let w := word (clsOp 1 0) 0 0 0
     let cvt := word (clsOp 1 0x0F) 0 1 0
     let s := commitWaits (tensorSeat w 3 3)
     Issues (vecWaits s 1 cvt) 0 .fwd (insOf ptrs w) none 1 0 ∧ (cluster (vecWaits s 1 cvt) 0).vecq = [(.fwd, insOf ptrs cvt)] ∧
     (stream (vecWaits s 1 cvt) 0 .fwd).fault = none ∧ vecHeld (vecWaits s 1 cvt) 0 (insOf ptrs cvt) = true ∧
     Issues (vecWaits s 8 cvt) 0 .fwd (insOf ptrs w) none 1 0 ∧ 8 ≤ (cluster (vecWaits s 8 cvt) 0).vecq.length) := by
  decide +kernel

/-- Words of a READ or FLUSH of entry 0, N = 1. -/
def roWord (op : Nat) : Nat := word (clsOp 0 op + 1) 0 1 0

/-- `s` with four places of FWD in the queue of array 0. -/
def fullQueue (s : State) : State := modArray s 0 0 (fun a => { a with
  queue := List.replicate 4 { c := .fwd, ins := insOf (scal 8) 0, isLoad := true, slots := 0 } })

/-- `s` with a READ of BIN waiting in the read-out queue. -/
def roQueue (s : State) : State := modCluster s 0 (fun k => { k with readq := [(.bin, insOf ptrs 0)] })

theorem witness_ArrayInstructionsEnterTheirQueues :
    (∀ o ∈ [0, 1], memberHeld (seat ptrs (word (clsOp 0 o) 0 0 0)) 0 = false ∧ Seated ptrs (word (clsOp 0 o) 0 0 0) 0 o ∧
      queuedOf (cluster (seat ptrs (word (clsOp 0 o) 0 0 0)) 0).arrays[0] .fwd < 4 ∧
      Issues (fullQueue (seat ptrs (word (clsOp 0 o) 0 0 0))) 0 .fwd (insOf ptrs (word (clsOp 0 o) 0 0 0)) none 0 o ∧
      4 ≤ queuedOf (cluster (fullQueue (seat ptrs (word (clsOp 0 o) 0 0 0))) 0).arrays[0] .fwd) ∧
    (∀ o ∈ [2, 3], Seated ptrs (roWord o) 0 o ∧ (cluster (seat ptrs (roWord o)) 0).readq = [] ∧
      roWaits (Begun (seat ptrs (roWord o)) 0 .fwd none) 0 .fwd (insOf ptrs (roWord o)) = false ∧
      Issues (roQueue (seat ptrs (roWord o))) 0 .fwd (insOf ptrs (roWord o)) none 0 o ∧
      (cluster (roQueue (seat ptrs (roWord o))) 0).readq ≠ [] ∧
      ((cluster (roQueue (seat ptrs (roWord o))) 0).readq.filter (fun p => p.1 == .fwd)).length < 4) ∧
    Seated ptrs (word (clsOp 0 4) 0 0 0) 0 4 ∧
    ((insOf ptrs (roWord 3)).roN = 1 ∧ isRead (insOf ptrs (roWord 3)) = false ∧
      (insOf ptrs (roWord 3)).roEnt + (insOf ptrs (roWord 3)).roN ≤ 512 ∧ (cluster up 0).fused = none) := by decide +kernel

theorem witness_PartitionAndFusionChangeAnEmptyCluster :
    (∀ o ∈ [5, 6], let s := seat ptrs (word (clsOp 0 o + 3) 0 0 0)
      memberHeld s 0 = false ∧ (cluster s 0).fused = none ∧ arrQueuesEmpty s 0 .fwd = true ∧ changePending s 0 = false ∧
      arraysEmpty (cluster s 0) = true ∧ Issues s 0 .fwd (insOf ptrs (word (clsOp 0 o + 3) 0 0 0)) none 0 o) ∧
    (let s := seat ptrs (word (clsOp 0 6 + 3) 0 0 0)
     fuseShapeOf (insOf ptrs (word (clsOp 0 6 + 3) 0 0 0)) = some .s128x128 ∧
     fuseOk s 0 .s128x128 = true ∧ (fuseMembers 0 .s128x128).all (fun m => arraysEmpty (cluster s m)) = true ∧
     fuseOk (modCluster s 33 (fun k => { k with part := .p4 })) 0 .s128x128 = false) ∧
    (let s := (fuseMembers 0 .s128x64).foldl (fun t m => modCluster t m (fun k => { k with
        leader := if m = 0 then none else some 0
        fused := if m = 0 then some .s128x64 else none })) (seat ptrs (word (clsOp 0 6) 0 0 0))
     memberHeld s 0 = false ∧ (cluster s 0).fused = some .s128x64 ∧ arrQueuesEmpty s 0 .fwd = true ∧ changePending s 0 = false ∧
     (fuseMembers 0 .s128x64).all (fun m => arraysEmpty (cluster s m)) = true ∧
     Issues s 0 .fwd (insOf ptrs (word (clsOp 0 6) 0 0 0)) none 0 6) ∧
    (insOf ptrs (word (clsOp 0 6) 0 0 0)).f 0 1 0 = 0 := by decide +kernel

/-- The words of a PASS of 1 slot over 1 column, its tensor descriptor at X1. -/
def passWord : Nat := word (clsOp 0 1 + 1) 0 (2 ^ 24) (2 ^ 8)

/-- That PASS in the queue of array 0. -/
def passQ : QEntry := { c := .fwd, ins := insOf ptrs passWord, isLoad := false, slots := 0 }

/-- FWD with bank 0 and entries 0 to 10, and the PASS in the queue. -/
def passSeat : State := modArray (modStream (tensorSeat 0 0 0) 0 .fwd (fun t => { t with
  banks := 1
  entHi := 10 })) 0 0 (fun a => { a with queue := [passQ] })

/-- The same queue of a context without banks, and a LOAD in place of the PASS: both fail their checks at grant. -/
theorem witness_ReservedFormsFault_grants :
    (let s := modStream passSeat 0 .fwd (fun t => { t with banks := 0 })
     clusterLive s 0 = true ∧ memberHeld s 0 = false ∧ (cluster s 0).arrays[0].feeder = none ∧ changePending s 0 = false ∧
     (rotation (cluster s 0).arrays[0].lastGrant).findSome?
       (fun c => readyPass s 0 (cluster s 0).arrays[0] c) = some passQ ∧ passOk s 0 0 passQ.c passQ.ins = false) ∧
    (let q : QEntry := { c := .fwd, ins := insOf ptrs (word (clsOp 0 0) 0 0 0), isLoad := true, slots := 0 }
     let s := modArray (modStream passSeat 0 .fwd (fun t => { t with banks := 0 })) 0 0 (fun a => { a with queue := [q] })
     clusterLive s 0 = true ∧ memberHeld s 0 = false ∧ (cluster s 0).arrays[0].loading = none ∧
     (rotation (cluster s 0).arrays[0].lastLoad).findSome? (fun c => if takesGrants s 0 c && !changeOf s 0 c
       then (cluster s 0).arrays[0].queue.find? (fun q => q.c == c && q.isLoad) else none) = some q ∧
     loadOk s 0 0 q.c q.ins = false) := by decide +kernel

/-- The PASS in the feeder. -/
def fed : Feeding := { c := .fwd, ins := insOf ptrs passWord, slots := 0, td := rdBytes passSeat (storeAddr 0 0x40) 32 }

/-- A slot of an array. -/
def slotOf (entry : Nat) : Slot where
  c := .fwd
  passId := 0
  wt := false
  cut := false
  passEnt := entry
  passM := 1
  bank := 0
  issued := 0
  set := true
  entry := entry
  colLo := 0
  colN := 32
  evenOnly := false
  lanes := List.replicate 64 3
  queued := false

/-- A quartered cluster whose array 0 has many slots due, and array 1 as many waiting behind them. -/
def crowded : State := modCluster up 0 (fun k => { k with
  part := .p4
  arrays := (k.arrays.set 0 { ArrayUnit.reset with
      ck := 1000
      flight := List.replicate 120 (slotOf 0) }).set 1 { ArrayUnit.reset with
      ck := 1000
      feeder := some fed
      flight := List.replicate 31 (slotOf 0) } })

/-- A load that waits for its commit. -/
def loading : Loading := { c := .fwd, ins := insOf ptrs 0, bank := 2, parts := [(0, 0, emptyBank)], before := [] }

theorem witness_ArrayStepsGrantIssueAndCommit : clusterLive up 0 = true ∧ memberHeld up 0 = false ∧
    (clusterLive passSeat 0 = true ∧ (cluster passSeat 0).arrays[0].feeder = none ∧ changePending passSeat 0 = false ∧
      (rotation (cluster passSeat 0).arrays[0].lastGrant).findSome?
        (fun c => readyPass passSeat 0 (cluster passSeat 0).arrays[0] c) = some passQ ∧
      passOk passSeat 0 0 passQ.c passQ.ins = true) ∧
    (cluster up 0).arrays[0].feeder = none ∧ (arrayShape (cluster up 0) 0 0).isSome = true ∧
    (let s := modArray passSeat 0 0 (fun a => { a with feeder := some fed })
     (cluster s 0).arrays[0].feeder = some fed ∧ (parseTD fed.td).isSome = true ∧
     drainAdmits s 0 0 (fed.ins.passEnt + fed.slots) = true ∧ tokenGate s 0 fed.slots fed.ins = .open ∧
     setClear s 0 fed.c fed.ins = true ∧ relayedSlow s 0 = false ∧ throttled s = false ∧
     throttled { s with power := { s.power with envThr := true } } = true) ∧
    ((cluster crowded 0).arrays[1].feeder = some fed ∧ (arrayShape (cluster crowded 0) 0 1).isSome = true ∧
      drainAdmits crowded 0 1 (fed.ins.passEnt + fed.slots) = false) ∧
    (let s := modArray up 0 0 (fun a => { a with loading := some loading })
     (cluster s 0).arrays[0].loading = some loading ∧ loading.before = []) ∧
    (let s := modArray up 0 0 (fun a => { a with
        ck := 1000
        flight := [slotOf 0] })
     dueSlot (cluster s 0) 0 0 = some (slotOf 0) ∧ losesBank (cluster s 0) 0 0 (slotOf 0) = false) ∧
    (dueSlot (cluster crowded 0) 0 1 = some (slotOf 0) ∧ losesBank (cluster crowded 0) 0 1 (slotOf 0) = true) := by
  decide +kernel

theorem witness_ACommitAddsTheLongLanes : (arrayShape { Cluster.reset with part := .p1 } 0 0).isSome = true ∧
    (slotOf 511).entry < 512 ∧ (slotOf 511).colLo + (slotOf 511).colN ≤ 64 := by decide +kernel

theorem witness_SyncWordOperationsFollowTheirTable : wordPlace 0x1001 = false ∧ wordPlace (storeAddr 4095 0x2FFFF8) = true ∧
    wordPlace 0x17FFFFFFFF8 = true ∧ 2 ^ 48 - 1 < 2 ^ 48 ∧
    poisoned { up with poison := [64] } 0x1000 8 = true ∧
    (poisoned (wrNat up 0x1000 8 (2 ^ 63)) 0x1000 8 = false ∧ wordOrphan? (rdNat (wrNat up 0x1000 8 (2 ^ 63)) 0x1000 8) = true) ∧
    (poisoned up 0x1000 8 = false ∧ wordOrphan? (rdNat up 0x1000 8) = false ∧ watchUsed up 0x1000 < watchSize 0x1000 ∧
      up.poison = [] ∧ up.ckpt.capture = none) := by decide +kernel

theorem witness_SyncCommandsActAtTheHome : InService up ∧ accessStatus up h0.master.toNat 0x1000 8 .atomic = .done ∧
    wordPlace 0x1000 = true ∧ cmdAccess up h0.master.toNat 0x1000 8 .atomic = .done ∧ ownerOk 0x7FFF = true ∧
    ownerOk 0x483F = true ∧ (indexWithout up 0x1000).length < 65536 ∧ poisoned up 0x1000 8 = false := by decide +kernel

/-- A context whose X1 names a word of cluster 0's store. -/
def own : Stream := Stream.reset.setX 1 (storeAddr 0 0x40)

/-- Words of a SYN instruction on the word whose address X1 holds, with operand 1. -/
def synWord (op : Nat) : Nat := word (clsOp 3 op + 1) 1 (2 ^ 31) 0

/-- The same on a global address. -/
def synFar (op : Nat) : Nat := word (clsOp 3 op + 1) 1 0 0

/-- A context whose X1 names a word of package 2. -/
def far : Stream := Stream.reset.setX 1 0x2000000001000

theorem witness_SynInstructionsActOnSyncWords :
    (∀ o ∈ [0, 1, 2, 3, 4], Seated own (synWord o) 3 o ∧ (insOf own (synWord o)).synOp < 2 ^ 48 ∧
      synTarget (seat own (synWord o)) (insOf own (synWord o)) = .here (storeAddr 0 0x40)) ∧
    (let s := seat own (synWord 3)
     (ownSync (Begun s 0 .fwd none) 0 (storeAddr 0 0x40) 3 1 (false, 0)).2.1 = .retry ∧
     (ownSync (Begun (wrNat s (storeAddr 0 0x40) 8 1) 0 .fwd none) 0 (storeAddr 0 0x40) 3 1 (false, 0)).2.1 = .done) ∧
    (∀ o ∈ [0, 1, 2, 3, 4], Seated far (synFar o) 3 o ∧
      synTarget (seat far (synFar o)) (insOf far (synFar o)) = .away 2 0x1000) ∧
    (let s := { seat (Stream.reset.setX 1 (storeAddr 1024 0x40)) (synWord 0) with links := (training 0).links }
     Issues s 0 .fwd (insOf (Stream.reset.setX 1 (storeAddr 1024 0x40)) (synWord 0)) none 3 0 ∧ (stream s 0 .fwd).block = .none ∧
     (stream s 0 .fwd).synq = [] ∧ synHeld (Begun s 0 .fwd none) 0 (insOf (Stream.reset.setX 1 (storeAddr 1024 0x40)) (synWord 0)) = true) ∧
    EdgesSettled (seat own (synWord 0)) ∧
    Seated own (synWord 5) 3 5 ∧ (insOf ptrs (word (clsOp 3 0 + 2 ^ 22) 0 0 0)).tol = true ∧
    (insOf own (synWord 0)).tol = false ∧ (stream up 0 .fwd).fault = none := by decide +kernel

/-- FWD blocked on a SYN instruction. -/
def blockedOn (b : Block) (st : Stream) (w : Nat) : State := fwd (fun _ => { st with
  st := .running
  block := b
  blocked := some (insOf st w) })

theorem witness_WaitersAreReleasedAndMonitorsFire : clocksOn up = true ∧
    (clusterLive (blockedOn (.poll 0x40 1) own (synWord 3)) 0 = true ∧
      (stream (blockedOn (.poll 0x40 1) own (synWord 3)) 0 .fwd).block = .poll 0x40 1 ∧
      trainHolds (blockedOn (.poll 0x40 1) own (synWord 3)) 0 0x40 8 = false) ∧
    (let a := storeAddr 0 0x40
     observe (wrNat up a 8 5) 0 a 5 = (.done, 5) ∧ observe (wrNat up a 8 5) 0 a 6 = (.retry, 5)) ∧
    (let s := blockedOn (.remotePoll 100) far (synFar 3)
     (stream s 0 .fwd).block = .remotePoll 100 ∧ (stream s 0 .fwd).blocked = some (insOf far (synFar 3)) ∧
     synTarget s (insOf far (synFar 3)) = .away 2 0x1000) ∧
    (let m : Monitor := { addr := 0x40, n := 0, notify := 0x80, notifyLocal := true, master := 0, due := true }
     let s := { up with sync := { up.sync with monitors := [m] } }
     s.sync.monitors.filter (fun m => m.due && sameWord m.addr.toNat 0x40) = [m]) ∧
    (let s := { up with sync := { up.sync with
        orphans := [0x40]
        index := [(0x40, 0x4800)] } }
     s.sync.orphans.contains 0x40 = true ∧ wordPlace 0x40 = true ∧ placeLost s none (place 0x40) = false ∧
     wordOrphan? (rdNat s 0x40 8) = false) := by decide +kernel

/-- A barrier channel of `up`. -/
def barrierUp (f : Barrier → Barrier) : State := modBarrier up 3 f

theorem witness_BarriersReleaseArmAndDisarm : InService up ∧
    ((barrier up 3).armed = none ∧ localCond up 3 = false) ∧
    ((barrier (barrierUp (fun b => { b with arrived := [0] })) 3).armed = none ∧
      localCond (barrierUp (fun b => { b with arrived := [0] })) 3 = true) ∧
    (let s := barrierUp (fun b => { b with
        arrived := [0]
        armed := some (0, 5)
        collective := true
        collectiveDone := true })
     (barrier s 3).armed = some (0, 5) ∧ (barrier s 3).collectiveDone = true ∧ (barrier s 3).disarming = false) ∧
    (let s := wrNat (wrNat (barrierUp (fun b => { b with
        arrived := [0]
        armed := some (0, 5) })) 0 4 (2 ^ 31 + 1)) 64 2 1
     (barrier s 3).armed = some (0, 5) ∧ (barrier s 3).collective = false ∧ (barrier s 3).collectiveDone = false ∧
     localCond s 3 = true ∧ exchRuns s = true ∧ s.exch.ops = [] ∧ (readGroup s 0).isSome = true) ∧
    (let s := barrierUp (fun b => { b with
        armed := some (0, 5)
        collective := true
        disarming := true })
     (barrier s 3).disarming = true ∧ (barrier s 3).deferred = none) := by decide +kernel

/-- A DMA descriptor at X1 of one run of 8 bytes from 0x100000 to 0x200000 of cluster 0's store; CADDR as given. -/
def ddBytes (len caddr : Nat) : List Byte :=
  leBytes 8 (storeAddr 0 0x100000) ++ leBytes 8 (storeAddr 0 0x200000) ++ leBytes 4 len ++ leBytes 4 0x10001 ++ leBytes 16 0 ++ leBytes 8 caddr ++
    leBytes 4 1 ++ leBytes 4 7 ++ leBytes 8 0

/-- `seat` with MOV and its descriptor. -/
def movSeat (len caddr : Nat) : State := wrBytes (seat ptrs (word (clsOp 2 0 + 1) 0 0 0)) (storeAddr 0 0x40) (ddBytes len caddr)

/-- A descriptor whose only run has moved, in the mover. -/
def job : DmaJob := { id := 3, c := .fwd, ins := insOf ptrs 0, d := parseDD (ddBytes 8 (storeAddr 0 0x2F0000)), units := 0, next := 1,
                      adding := false, bad := none }

theorem witness_MovesCopyTheirRunsAndAddTheirUnits :
    (let i := insOf ptrs (word (clsOp 2 0 + 1) 0 0 0)
     let full := modCluster (movSeat 8 0) 0 (fun k => { k with mover := List.replicate 8 { job with ins := { job.ins with w := 0 } } })
     Issues (movSeat 8 0) 0 .fwd i none 2 0 ∧ Issues full 0 .fwd i none 2 0 ∧
     8 ≤ ((cluster full 0).mover.filter (fun j => j.c == .fwd)).length ∧
     (cluster (movSeat 8 0) 0).mover = [] ∧
     readDD (Begun (movSeat 0 0) 0 .fwd none) 0 i = none ∧
     (readDD (Begun (movSeat 8 0) 0 .fwd none) 0 i).any (fun d => d.runs == 1 && d.caddr == 0 && d.sloc && d.dloc &&
        runStatus (Begun (movSeat 8 0) 0 .fwd none) 0 d 0 == .done && (runsMeeting (Begun (movSeat 8 0) 0 .fwd none) d 0).isEmpty &&
        !meetsCtrl (d.srcAt 0) d.len0.toNat && !meetsCtrl (d.dstAt 0) d.len0.toNat &&
        !jobWaits (movSeat 8 0) 0 (cluster (movSeat 8 0) 0).nextId d.units) = true) ∧
    (let s := modCluster up 0 (fun k => { k with mover := [job] })
     clusterLive s 0 = true ∧ jobOf s 0 3 = some job ∧ job.next = job.d.runs ∧ jobWaits s 0 3 job.d.units = false ∧
     job.d.caddr ≠ 0 ∧ job.units < job.d.units ∧ job.d.cloc = true ∧
     (ownAdd s 0 job.d.caddr.toNat job.d.cval.toNat).2 = .done) := by decide +kernel

/-- No slot of the seat of a MOV has entered a drain queue. -/
theorem drains_movSeat : DrainsEmpty (movSeat 8 0) := fun n a => match n with
  | 0 => (by decide +kernel : ∀ a : Fin 4, ((cluster (movSeat 8 0) 0).arrays[a].flight.all (fun q => !q.queued)) = true) a
  | _ + 1 => match a with
    | 0 => rfl
    | 1 => rfl
    | 2 => rfl
    | 3 => rfl

/-- A schedule entry. -/
def entry (due : Nat) (post : Bool) : SchedEntry :=
  { id := 7, due := due, nb := 0, isPost := post, repeatNs := 0, times := 0, occurrence := 0,
    cmd := { hdr := h0, opcode := 0x0505, serial := false, params := [], raw := [], tag := [], wc := 0 } }

/-- `up` with one schedule entry. -/
def sched (due : Nat) (post : Bool) : State := { up with cmd := { up.cmd with schedule := [entry due post] } }

/-- Invar of `up` changed. -/
def inv (f : Invar → Invar) : State := { up with inv := f up.inv }

theorem witness_FabricTimeIsSetReadAndDisciplined :
    (InService up ∧ up.inv.state ≠ 3 ∧ up.inv.state ≠ 4 ∧ up.cmd.schedule = [] ∧ anyRuns up = false ∧ up.inv.parent = 0xFF ∧
      (inv (fun v => { v with parent := 0xFE })).inv.parent ≠ 0xFF ∧ (sched 5 true).cmd.schedule ≠ []) ∧
    (up.inv.timeinEn = false) ∧
    (let s := inv (fun v => { v with
        timeinEn := true
        ft := 5000 })
     s.inv.timeinEn = true ∧ 1000 < (nearestSecond (edgeTime s) - edgeTime s).natAbs) ∧
    (let s := inv (fun v => { v with
        timeinEn := true
        parent := 0xFE
        ft := 2 })
     s.inv.timeinEn = true ∧ s.inv.parent = 0xFE ∧ (nearestSecond (edgeTime s) - edgeTime s).natAbs ≤ 2) ∧
    (let s := { inv (fun v => { v with parent := 0xFD }) with tap := { up.tap with mgtUp := Vector.replicate 2 true } }
     s.inv.en1588 = true ∧ s.tap.mgtUp[(0 : Fin 2)] = true ∧ s.inv.parent = 0xFD ∧ (250 : Int).natAbs ≤ 250) ∧
    (let s := inv (fun v => { v with
        parent := 0xFE
        state := 3
        err := 250000000 })
     s.inv.parent ≠ 0xFF ∧ 1 ≤ s.inv.state.toNat ∧ s.inv.state.toNat ≤ 3 ∧ s.inv.err ≤ 250000000) ∧
    (let s := inv (fun v => { v with
        state := 4
        err := 250000001 })
     s.inv.state = 4 ∧ 250000000 < s.inv.err) ∧
    (up.inv.ft.toNat % 1000000000 = 0 ∧
     (let s := inv (fun v => { v with ft := 1000000001 })
      s.inv.ft.toNat % 1000000000 = 1 ∧ s.inv.slewAge = 0 ∧ s.inv.timeOutUntil = none) ∧
     (let s := inv (fun v => { v with
        ft := 1
        timeOutUntil := some 9 })
      s.inv.ft.toNat % 1000000000 = 1 ∧ s.inv.timeOutUntil ≠ none) ∧
     (at_ 2).inv.ft.toNat % 1000000000 ≠ 0 ∧ (at_ 2).inv.ft.toNat % 1000000000 ≠ 1) := by decide +kernel

/-- A message of 64 bytes with session 0, master 0x2000 and the opcode of TIME_QUERY, as SCHEDULE_POST embeds it. -/
def message : List Byte := leBytes 6 0 ++ leBytes 2 0x0505 ++ leBytes 2 0 ++ leBytes 2 0x2000 ++ leBytes 52 0

theorem witness_ScheduleEntriesArePostedCancelledAndDispatched : InService up ∧
    (aligned 3000 up.inv.tickNs.toNat = true ∧ aligned 0 up.inv.tickNs.toNat = true ∧ embeddedBad h0 message = false) ∧
    aligned 3001 up.inv.tickNs.toNat = false ∧ 1000 < h0.stamp.toNat + 2000 ∧ h0.stamp.toNat + 2000 ≤ 3000 ∧
    3000 ≤ h0.stamp.toNat + up.inv.horizon.toNat ∧ h0.stamp.toNat + up.inv.horizon.toNat < 10000001000 ∧
    4096 ≤ (List.replicate 4096 (entry 5 true)).length ∧ up.cmd.schedule.length < 4096 ∧
    ((sched 5 true).cmd.schedule.find? (fun e => e.isPost && e.id == 7) = some (entry 5 true) ∧
      (entry 5 true).cmd.hdr.session = h0.session ∧ (entry 5 true).cmd.hdr.session ≠ h1.session) ∧
    (sched 5 true).cmd.schedule.find? (fun e => e.isPost && e.id == 8) = none := by decide +kernel

theorem witness_ScheduleEntriesArePostedCancelledAndDispatched_due : served up = true ∧ up.power.ramp = none ∧
    (∀ e ∈ (sched 5 true).cmd.schedule, (sched 5 true).inv.ft.toNat < e.due) ∧
    (served (sched 0 false) = true ∧ (sched 0 false).power.st = 0 ∧ dueEntries (sched 0 false) = [entry 0 false] ∧
      (entry 0 false).isPost = false) := by decide +kernel

/-- The memory block of `up` changed. -/
def memb (f : MemBlk → MemBlk) : State := { up with memblk := f up.memblk }

/-- `up` with a fenced stack. -/
def stackLost : State := modStack up 15 (fun k => { k with st := .fenced })

theorem witness_NoVectorUnitHolds (n : Nat) : (cluster (memb (fun m => { m with stepOn := true })) n).vecq = [] := rfl

theorem witness_StepsBeginAndCommit : InService up ∧ (1 : W64) ≠ up.memblk.epoch ∧
    (up.memblk.stepOn = false ∧ up.memblk.failed = false ∧ anyFenced up = false) ∧ anyFenced stackLost = true ∧
    (memb (fun m => { m with failed := true })).memblk.failed = true ∧ commitRefused up 1 = some .badParam ∧
    (let s := memb (fun m => { m with stepOn := true })
     commitRefused s 1 = none ∧ s.twin.st ≠ 2 ∧ waitsRefresh s (s.memblk.epoch.toNat + 1) = false) ∧
    (let s := { memb (fun m => { m with stepOn := true }) with twin := { up.twin with
        st := 2
        held := some (1, 9) } }
     commitRefused s 1 = none ∧ s.twin.st = 2 ∧ heldDigest s = some 9 ∧ (9 : W128) ≠ stepDigest s) := by decide +kernel

/-- A VALID group of a rule. -/
def grp (r : URule) : Group where
  rule := r
  clipx := false
  tracked := false
  b1 := 0
  b2 := 0
  eps := 0
  gain := 0
  kbeta := 0
  keps := 0
  kperiod := 1
  kiter := 1
  lrCurve := 0
  wdCurve := 0
  lrPoints := 1
  wdPoints := 1

/-- A tensor of one tile on die 0. -/
def tensor1 : Tensor where
  idx := 0
  group := 0
  die := 0
  kb := 1
  nb := 1
  pkt := 1
  pnt := 1
  region := 0x1000000
  freeze := 0
  kstate := 0x2000000
  tid := 0xFFFF

/-- The update block of `up` with that tensor and a group of a rule. -/
def updUp (r : URule) (f : Upd → Upd) : State := { up with upd := f { up.upd with
  groups := [(0, grp r)]
  tensors := [tensor1] } }

theorem witness_TablesAndRefreshesAreLatchedAndRun : InService up ∧
    (stackImage 0x17FFFF80000 0x80000 = true ∧ stackImage 0x1000 (64 * 65535) = true ∧ meetsReserve 0x17FFFF80000 0x80000 = true ∧
      meetsReserve 0x1000 (64 * 65535) = false ∧ meetsReserve 0x200000 0x80000 = false ∧ stackImage 0x17FFFF90000 0x80000 = false) ∧
    (look (updUp .k id).upd.groups 0 = some (grp .k) ∧ (updUp .k id).memblk.stepOn = false ∧
      (updUp .k id).memblk.epoch.toNat < 1 ∧ (grp .a).rule ≠ .k) ∧
    look up.upd.groups 0 = none ∧
    (let s := updUp .k (fun u => { u with
        refreshing := [0]
        refreshClusters := 4 })
     s.upd.refreshing.contains 0 = true ∧ clocksOn s = true ∧ refreshHeld s 0 = false ∧ commitPending s = false) := by
  decide +kernel

/-- A pass of `up` in a phase. -/
def passUp (r : URule) (ph : BitVec 4) (f : Pass → Pass) : State := updUp r (fun u => { u with
  phase := ph
  pass := some (f (newPass h0 one32 one32 0 0)) })

theorem witness_UpdatePassGoesThroughItsPhases : InService up ∧ updateRefused up 0 0 = some .badParam ∧
    updateRefused (memb (fun m => { m with stepOn := true })) 0 0 = none ∧
    (let s := passUp .a 1 id
     engineRuns s = true ∧ s.upd.phase = 1 ∧ passLost s = false ∧ passOneBad s = false ∧
     (newPass h0 one32 one32 0 0).normScope ≠ 1 ∧
     passLost (modDie s 0 (fun d => { d with st := .fenced })) = true ∧ engineRuns (modDie s 0 (fun d => { d with st := .fenced })) = true) ∧
    (let s := passUp .a 2 (fun p => { p with normIn := true })
     s.upd.phase = 2 ∧ s.upd.pass.any (fun p => p.normIn && p.nf1 == 0) = true ∧ scalarsBad s = false ∧
     scalarsBad { s with poison := [0] } = true) ∧
    (let s := passUp .a 2 (fun p => { p with
        normIn := true
        nf1 := 1 })
     s.upd.phase = 2 ∧ s.upd.pass.any (fun p => p.normIn && p.nf1 != 0) = true) ∧
    (let s := passUp .o 3 id
     s.upd.phase = 3 ∧ panelOf s 0 0 = some (tensor1, grp .o) ∧ s.upd.pass.any (fun p => !p.posted.contains (0, 0)) = true ∧
     phaseABad s tensor1 (grp .o) 0 = false ∧ s.upd.pass.any (fun p => !panelsServed s p) = true) ∧
    (let s := passUp .o 3 (fun p => { p with posted := [(0, 0)] })
     s.upd.pass.any (fun p => p.posted.contains (0, 0) && !p.served.contains (0, 0)) = true ∧
     serviceBad s tensor1 (grp .o) 0 = false) ∧
    (let s := passUp .o 3 (fun p => { p with
        posted := [(0, 0)]
        served := [(0, 0)] })
     s.upd.pass.any (fun p => panelsServed s p && p.served.contains (0, 0)) = true ∧ passTwoAnyBad s = false) := by decide +kernel

/-- A COUNT of group 0 of the eight bytes at 0x8000. -/
def count : ExParams where
  opId := 5
  kind := 6
  group := 0
  mode := 0
  etype := 0
  k := 0
  root := 0
  layout := 0
  tfirst := 0
  tcount := 0
  src := 0x8000
  dst := 0
  len := 8
  caddr := 0x4000
  cval := 0

/-- `up` with group 0 of one member, this package. -/
def groupUp : State := wrNat (wrNat up 0 4 (2 ^ 31 + 1)) 64 2 1

/-- An incomplete operation; with nothing owed or expected it is finished. -/
def exOpOf (p : ExParams) (n : Nat) : ExOp where
  hdr := h0
  p := p
  line := false
  rank := 0
  members := [1]
  portNeg := 0
  portPos := 0
  epoch := 1
  taken := []
  contribs := []
  applied := 0
  sent := 0
  received := 0
  nonfin := 0
  expect := n
  owed := n
  own := false
  waits := false

/-- An exchange header of an operation. -/
def exHdr : ExHdr := { kind := 1, mode := 0, etype := false, km1 := 0, rank := 0, layout := 0, opId := 5, epoch := 1 }

/-- `up` with an incomplete operation. -/
def exUp (x : ExOp) : State := { up with exch := { up.exch with ops := [x] } }

theorem witness_ExchangeOperationsStartReceiveAndComplete : InService groupUp ∧
    (exRefused groupUp { count with kind := 15 } = some .badParam) ∧
    (exRefused groupUp count = none ∧ (readGroup groupUp 0).isSome = true ∧ opReadsPoison groupUp count 0 = false ∧ groupUp.poison = [] ∧
      (let s := { groupUp with poison := [0x200] }
       exRefused s count = none ∧ (readGroup s 0).isSome = true ∧ opReadsPoison s count 0 = true)) ∧
    (exchRuns up = true ∧ ({ exHdr with layout := 1 } : ExHdr).layout ≠ up.exch.layout) ∧
    (let x := exOpOf { count with kind := 2 } 1
     exHdr.layout = (exUp x).exch.layout ∧ exHdr.epoch = exEpoch (exUp x) ∧ (exUp x).exch.early = [] ∧ exchRuns (exUp x) = true ∧ exOp (exUp x) 5 = some x ∧
     (exUp x).poison = [] ∧ x.finished = false) ∧
    (let x := exOpOf { count with kind := 2 } 0
     exOp (exUp x) 5 = some x ∧ x.finished = true ∧ x.own = false ∧ x.p.caddr ≠ 0 ∧ x.p.kind ≠ 6 ∧ recordWaits (exUp x) x = false ∧
     (let w : WaitReq := { pkt := mkReq 2 1 0 0 16 (leBytes 16 (5 * 2 ^ 64)), what := .exch, line := none }
      let s := { exUp x with fab := { up.fab with waitq := [w] } }
      recordWaits s x = true ∧ exOp s 5 = some x ∧ exchRuns s = true ∧ s.exch.early = [])) ∧
    (let x := exOpOf { count with
        kind := 2
        caddr := 0 } 0
     exOp (exUp x) 5 = some x ∧ x.finished = true ∧ x.p.caddr = 0) := by decide +kernel

/-- The checkpoint block of a state changed. -/
def ck (s : State) (f : Ckpt → Ckpt) : State := { s with ckpt := f s.ckpt }

/-- `up` with a manifest of one RECORD at 0x100000, and at 0x10000000 the header of an image without regions, of epoch 0. -/
def imageUp : State := wrBytes (wrNat up 0x100018 1 1) 0x10000000
  (leBytes 4 0x43504B54 ++ leBytes 2 1 ++ leBytes 2 0x0416 ++ leBytes 8 0)

/-- The RECORD region. -/
def recordRegion : Region := { addr := 0, len := 0, offset := 0, record := true }

/-- A region of no bytes. -/
def emptyRegion : Region := { addr := 0x100000, len := 0, offset := 0x1000000, record := false }

/-- An active capture. -/
def cap (l : List Region) (bs : Assoc BlockState) (ph : Nat) : Capture where
  hdr := h0
  dest := loc 0x10000000
  manifest := 0x100000
  regions := l
  header := []
  gens := []
  blocks := bs
  bytes := 0
  cow := 0
  image := []
  phase := ph
  bad := false
  refreshing := []

/-- An active restore whose image is at hand. -/
def rest (l : List Region) : Restore :=
  { hdr := h0, epoch := 0, src := loc 0x10000000, regions := l, gens := false, phase := 1, cycled := [] }

theorem witness_CheckpointsAreCapturedAndRestored : InService up ∧
    captureRefused up h0.master.toNat 0 (loc 0x10000000) 0x100000 0 = .inl .badParam ∧
    captureRefused imageUp h0.master.toNat 0 (loc 0x10000000) 0x100000 1 = .inr [recordRegion] ∧
    restoreRefused up h0.master.toNat 0 (loc 0x10000000) 0x100000 0 = .inl .badParam ∧
    (restoreRefused imageUp h0.master.toNat 0 (loc 0x10000000) 0x100000 1 = .inr [recordRegion] ∧
      imageHere imageUp (loc 0x10000000) = true) ∧
    (ckptRuns up = true ∧ (cap [] [(5, .uncaptured)] 2).blocks.all (fun b => b.2 == .done) = false ∧
      (cap [] [(5, .done)] 2).blocks.all (fun b => b.2 == .done) = true ∧
      captureQuiet (ck up (fun k => { k with capture := some (cap [] [(5, .done)] 2) })) = true ∧ 2 ≤ (cap [] [] 2).phase ∧ (cap [] [] 2).bad = false) ∧
    (let c := { cap [] [] 2 with bad := true }
     let s := ck up (fun k => { k with capture := some c })
     ckptRuns s = true ∧ s.ckpt.capture = some c ∧ c.bad = true) ∧
    (let s := ck up (fun k => { k with restore := some (rest []) })
     s.ckpt.restore = some (rest []) ∧ (rest []).phase ≠ 0 ∧ ckptRuns s = true ∧ fetchQuiet s (ckptLong s) = true ∧
     anyFenced (cycleFailed s (rest []).cycled [] []) = false ∧ s.dies.toList.any (fun d => d.on && d.st == .off) = false ∧
     (restoreRegions s (rest []).src (dataRegions (rest []).regions)).2 = true) ∧
    (restoreRegions up (loc 0x10000000) (dataRegions [emptyRegion])).2 = false := by decide +kernel

/-- `up` with an active capture of one block of die 1, and a pool there of two blocks. -/
def cowUp (b : BlockState) : State := ck (modDie up 1 (fun d => { d with
    cowBase := 0x088000000000
    cowSize := 2 })) (fun k => { k with capture := some (cap [] [(blockKey 1 7, b)] 0) })

theorem witness_CopyOnWriteKeepsTheCapturedBytes :
    (∀ b ∈ [BlockState.uncaptured, .done], ((cowUp b).ckpt.capture.any (fun c => look c.blocks (blockKey 1 7) == some b &&
      look c.blocks (blockKey 1 8) == none && (poolUsed c 1).isEmpty && Memory.wf c.image)) = true ∧ ckptRuns (cowUp b) = true) ∧
    ((die (cowUp .uncaptured) 1).cowSize.toNat = 2 ∧
      (∀ p, p < 2 → (pages (poolAddr (cowUp .uncaptured) 1 p) 65536).all (fun a => (place a).isStack) = true) ∧
      (cowUp .uncaptured).mem.wf = true) ∧
    (blockLost (cowUp .uncaptured) (blockKey 1 7) = false ∧
      blockBad (cowUp .uncaptured) (cap [] [(blockKey 1 7, .uncaptured)] 0) (blockKey 1 7) = false ∧
      (cap [] [(blockKey 1 7, .uncaptured)] 0).bad = false ∧
      blockNext (cowUp .uncaptured) (cap [] [(blockKey 1 7, .uncaptured)] 0) (blockKey 1 7) = true) ∧
    (let r := fun (b : Nat) => ({ addr := blockAddr 1 b, len := 0x10000, offset := 0, record := false } : Region)
     ∀ b ∈ [BlockState.uncaptured, .copied 0],
      let c := cap [r 6, r 7] [(blockKey 1 6, .uncaptured), (blockKey 1 7, b)] 0
      let s := ck (cowUp .uncaptured) (fun k => { k with capture := some c })
      look c.blocks (blockKey 1 7) = some b ∧ c.bad = false ∧ blockNext s c (blockKey 1 7) = false ∧
      blockNext s c (blockKey 1 6) = true) := by decide +kernel

/-- The twin block of `up` changed. -/
def twinUp (f : Twin → Twin) : State := { up with twin := f up.twin }

/-- A TWIN_JOIN in progress. -/
def joining : LongOp := { id := 4, hdr := h0, opcode := 0x0603, kind := .twinJoin 0 0, cursor := 0, lastReply := 0 }

theorem witness_TwinsJoinCompareAndPart : InService up ∧ joinRefused up 1 = some .badParam ∧
    (joinRefused up 0 = none ∧ joinOf up = none ∧ up.twin.joinIn = none) ∧
    (let s := twinUp (fun t => { t with joinIn := some (0, 0) })
     joinRefused s 0 = none ∧ joinOf s = none ∧ s.twin.joinIn = some (0, committedDigest s)) ∧
    (let s := twinUp (fun t => { t with joinIn := some (0, 9) })
     joinRefused s 0 = none ∧ s.twin.joinIn = some (0, 9) ∧ (9 : W128) ≠ committedDigest s) ∧
    (twinUp (fun t => { t with st := 2 })).twin.st = 2 ∧ up.twin.st ≠ 2 ∧ up.twin.st ≠ 3 ∧
    historyDigest { up with upd := { up.upd with history := [(0, 5)] } } 0 = some 5 ∧ historyDigest up 7 = none ∧
    (solderRuns up = true ∧ up.twin.st = 0 ∧ up.inv.clk.toNat < up.twin.hbAt.toNat + 100000 ∧
      (let s := { at_ 100000 with twin := { up.twin with st := 2 } }
       s.twin.st ≠ 0 ∧ s.twin.hbAt.toNat + 100000 ≤ s.inv.clk.toNat) ∧ (7 : W64) ≠ up.memblk.epoch + 1 ∧ since up up.twin.lastMsg < 600 * 1000 + 1) ∧
    (let s := { at_ 100000000000 with
        twin := { up.twin with
          st := 2
          waitFrom := some 0 }
        cmd := { up.cmd with longs := [{ joining with kind := .stepCommit 0 }] } }
     commitPending s = true ∧ s.clusters = [] ∧ s.twin.hbLimitUs.toNat * 1000 ≤ since s s.twin.lastMsg ∧ s.twin.waitFrom = some 0 ∧ heldDigest s = none ∧
     s.twin.digestToMs.toNat * 1000000 ≤ since s 0) ∧
    (let s := twinUp (fun t => { t with
        hbLimitUs := 200
        digestToMs := 1
        st := 2
        waitFrom := some 0 })
     since s s.twin.lastMsg < s.twin.hbLimitUs.toNat * 1000 ∧ since s 0 < s.twin.digestToMs.toNat * 1000000) ∧
    (let s := { twinUp (fun t => { t with st := 1 }) with cmd := { up.cmd with longs := [joining] } }
     joinOf s = some (joining, 0) ∧ s.twin.st = 1 ∧ since s s.twin.joinAt < 10000000000) := by decide +kernel

/-- `up` at epoch 1 with its base at epoch 0 and the step logged, so that the committed step can be replayed. -/
def replayUp : State :=
  let s := wrBytes up 0x100000 (leBytes 8 0 ++ leBytes 8 0x20000 ++ leBytes 8 0x1000000 ++ leBytes 8 0)
  { ck s (fun k => { k with
      baseValid := true
      baseManifest := 0x100000
      baseNreg := 1
      baseLoc := loc 0x10000000 }) with
    memblk := { s.memblk with epoch := 1 }
    guard := { s.guard with bare := [1] }
    exch := { s.exch with log := [{ epoch := 1, records := [], bytes := 0, logged := true }] }
    twin := { s.twin with log := [{ epoch := 1, records := [], groups := [], tensors := [], gstate := [], clip := 0, gscale := 0,
                                    skipped := false, hadPass := false, nf1 := 0, nf2 := 0, digest := 0, gens := [], imageAt := none,
                                    image := Mem.reset, bytes := 0,
                                    logged := true }] } }

/-- `up` with a remap of spare row 31 of die 3 released. -/
def remapUp : State := modDie up 3 (fun d => { d with due := [(31, 1023, h0)] })

theorem witness_ReplayReshardAndRemapChangeWhatTheyName : InService up ∧
    replayRefused up h0.master.toNat 0 = .inl .badParam ∧
    (∃ l, replayRefused replayUp h0.master.toNat 1 = .inr (true, l)) ∧
    replayUp.upd.refreshing = [] ∧ (up.ckpt.captured.contains 0 = false ∧ (ck up (fun k => { k with captured := [0] })).ckpt.captured.contains 0 = true ∧
      up.memblk.epoch = 0) ∧
    ((spare up 3 31).1 = false ∧ (spare up 3 31).2.1 = false ∧
      ((die up 3).pending ++ (die up 3).due).any (fun p => p.1 == 31 || p.2.1 == 4095 % 1024) = false ∧ dieFenced up 3 = false) ∧
    dieFenced (modDie up 3 (fun d => { d with st := .fenced })) 3 = true ∧
    ((die remapUp 3).due.find? (fun p => p.1 == 31) = some (31, 1023, h0) ∧ dieFenced remapUp 3 = false ∧ clocksOn remapUp = true) ∧
    (let s := twinUp (fun t => { t with
        ownReplay := some (1, 5)
        peerReplay := some (1, 5)
        st := 3 })
     s.twin.ownReplay = some (1, 5) ∧ solderRuns s = true ∧ s.twin.st = 3 ∧ s.twin.peerReplay = some (1, 5)) := by
  refine ⟨by decide +kernel, by decide +kernel, ⟨[{ addr := 0, len := 0x20000, offset := 0x1000000, record := false }], ?_⟩,
    by decide +kernel, by decide +kernel, by decide +kernel, by decide +kernel, by decide +kernel⟩
  decide +kernel

/-- A level that stands as an entry ends, and an entry whose limit has not fallen. -/
theorem witness_PowerStatesAreEnteredAndLeft_levels :
    (let s := pow (fun p => { p with
        entering := some 1
        limit := 0
        levels := 1
        wakeCfg := 1 })
     s.power.limit ≤ holdPower s.power.mode.toNat ∧ s.power.levels.getLsbD 0 = true ∧ s.power.wakeCfg.getLsbD 0 = true ∧
     s.power.exiting = false) ∧
    (holdPower up.power.mode.toNat < 100000 ∧ (pow (fun p => { p with
        entering := some 1
        limit := 100000 })).power.limit = 100000) := by decide +kernel

theorem witness_PowerStatesAreEnteredAndLeft :
    (InService up ∧ up.power.entering = none ∧ up.power.exiting = false ∧ darkBusy up = false) ∧
    (pow (fun p => { p with entering := some 2 })).power.entering.isSome = true ∧
    (let s := pow (fun p => { p with st := 3 })
     served s = true ∧ s.power.st ≠ 0 ∧ s.power.entering = none ∧ s.power.exiting = false ∧ s.power.st ≠ 1) ∧
    (∀ t ∈ [1, 2, 3], let s := pow (fun p => { p with
        entering := some t
        limit := 0 })
      s.power.entering = some t ∧ s.power.next = [] ∧ s.power.deferredRun = none ∧ s.power.latched = none ∧ s.power.levels = 0 ∧
      s.cmd.schedule = [] ∧ s.power.exiting = false ∧ s.power.limit ≤ holdPower s.power.mode.toNat ∧ s.power.buffer = [] ∧
      s.mem.wf = true ∧ s.sync.index = [] ∧ s.sync.orphans = [] ∧ s.sync.monitors = []) ∧
    exitReady up = false ∧
    (∀ t ∈ [1, 2], let s := pow (fun p => { p with
        st := t
        exiting := true })
      exitReady s = true) ∧
    (let s := pow (fun p => { p with
        st := 1
        wakeCfg := 0x80000011 })
     s.power.wakeCfg.getLsbD 0 = true ∧ s.power.wakeCfg.getLsbD (8 + 23) = true ∧ s.power.wakeCfg.getLsbD 4 = true) ∧
    (let s := pow (fun p => { p with
        st := 2
        wakeCfg := 0 })
     (∀ n, n < 32 → s.power.wakeCfg.getLsbD n = false) ∧ dueWake s = false) ∧
    (let s := pow (fun p => { p with
        st := 2
        wakeCfg := 4
        buffer := [.timeQuery h0] })
     s.power.wakeCfg.getLsbD 2 = true ∧ s.power.buffer ≠ []) ∧
    (let s := { pow (fun p => { p with st := 1 }) with cmd := (sched 0 false).cmd }
     dueWake s = true) ∧
    (up.power.wakeArmed = false ∧ (let s := pow (fun p => { p with
        wakeArmed := true
        wakeFt := 0
        wakeCfg := 8
        st := 1 })
     s.power.wakeFt.toNat ≤ s.inv.ft.toNat ∧ s.power.wakeCfg.getLsbD 3 = true)) := by decide +kernel

theorem witness_ModesEnvelopeAndLimitsActOnThePowerBlock :
    (InService up ∧ up.memblk.stepOn = false ∧ up.power.entering = none ∧ up.power.modeTo = none ∧ (2 : Nat) ≠ up.power.mode.toNat) ∧
    up.power.limit ≤ maxPower 0 ∧ (∃ m, m ≤ 2 ∧ maxPower m < (pow (fun p => { p with limit := 100000 })).power.limit) ∧
    (memb (fun m => { m with stepOn := true })).memblk.stepOn = true ∧
    ((pow (fun p => { p with modeTo := some (1, 3) })).power.modeTo = some (1, 3) ∧ modePhase up ≠ 3) ∧
    (let t := maxPower up.power.mode.toNat
     holdPower up.power.mode.toNat ≤ t ∧ t ≤ maxPower up.power.mode.toNat ∧ 0 ≤ t ∧ t < 2 ^ 32) ∧
    (up.tap.pwrEn = true ∧ up.power.samples + 1 < 100 ∧ 100 ≤ (pow (fun p => { p with samples := 99 })).power.samples + 1 ∧
      up.power.thermThr = false) ∧
    (let s := pow (fun p => { p with limit := 10 })
     s.power.limit ≤ envelopeTop s ∧ s.power.st.toNat < 2 ∧ s.power.excursion = false ∧ s.power.limit < 11 ∧
     11 ≤ excursionLimit s.power.mode.toNat ∧ s.power.lastExcursion = none) ∧
    (let s := pow (fun p => { p with lastExcursion := some 0 })
     s.power.lastExcursion = some 0 ∧ s.inv.clk.toNat < (0 : W64).toNat + 100000000) ∧
    (up.power.st = 0 ∧ up.power.ramp = none ∧ up.cmd.schedule.find? (leadBegun up) = none) ∧
    (hottest (liveTemps up { cd := [103], iod := 20, stackHot := 20 }) = 103 ∧
      hottest (liveTemps up { cd := [102], iod := 20, stackHot := 20 }) = 102 ∧
      hottest (liveTemps up { cd := [101], iod := 20, stackHot := 20 }) ≤ 101 ∧
      110 ≤ hottest (liveTemps up { cd := [110], iod := 20, stackHot := 20 }) ∧
      (pow (fun p => { p with thermThr := true })).power.thermThr = true) ∧
    (let s := pow (fun p => { p with
        limit := 10
        floor := 11
        floorRises := true })
     s.power.st = 0 ∧ s.power.ramp = none ∧ s.power.entering = none ∧ s.power.floorRises = true ∧ s.power.floorMet = false ∧
     (s.power.sampleSum + 10) / 100 < s.power.floor.toNat) ∧
    (vinOut 40600 = true ∧ vinOut 36000 = false ∧ vinFault 20000 = true ∧ (17999 : BitVec 16).toNat < 18000 ∧
      vinFault 18000 = true ∧ 18000 ≤ (18000 : BitVec 16).toNat) := by
  refine ⟨by decide +kernel, by decide +kernel, ⟨0, by decide +kernel⟩, ?_⟩
  decide +kernel

/-- The package at a stage of bring-up. -/
def staged (n : BitVec 4) : State := boot (fun b => { b with
  stage := n
  complete := false })

/-- Stage 6 with every fabric port switched off. -/
def portsOff : State := (List.range 24).foldl (fun s p => modPort s p (fun q => { q with
  mode := 0
  pstate := 0 })) (staged 6)

/-- Every bundle of every edge passes at both ends. -/
def allUp : DieLinksUp := { masks := List.replicate 8 (0xFFFFFFFF, 0xFFFFFFFF), attempts := List.replicate 8 1 }

/-- Whether a slot holds a valid image rests on ML-DSA, which is opaque (log entry 4): a hypothesis here. An erased flash holds
none (R432). -/
theorem witness_BringUpRunsThroughItsStages (s : State) (h2 : s.boot.stage = 2) (hv : slotValid s s.boot.active = true)
    (ht : s.boot.trial = false) :
    (s.boot.stage = 2 ∧ slotValid s s.boot.active = true ∧ s.boot.trial = false) ∧
    (State.reset.tap.pwrEn = false ∧ up.tap.pwrEn = true ∧ up.tap.resetN = true ∧ State.reset.tap.resetN = true) ∧
    (staged 2).boot.stage = 2 ∧ (staged 3).boot.stage = 3 ∧
    ((staged 4).boot.stage = 4 ∧ (staged 4).boot.fromDark = false ∧
      (∀ e, e < 8 → (allUp.masks.getD e (0, 0)).1 &&& (allUp.masks.getD e (0, 0)).2 &&& fullMask e = fullMask e) ∧
      (∀ e, e < 8 → 4 ≤ popCount 32 ((allUp.masks.getD e (0, 0)).1 &&& (allUp.masks.getD e (0, 0)).2 &&& fullMask e).toNat) ∧
      (∀ e, 4 ≤ e → e < 8 → popCount 32 (((([] : List (W32 × W32)).getD e (0, 0)).1) &&& (([] : List (W32 × W32)).getD e (0, 0)).2 &&&
        fullMask e).toNat < 4)) ∧
    ((staged 5).boot.stage = 5 ∧ (∀ k : Fin 4, (staged 5).dies[k].st ≠ .fenced) ∧ (∀ k : Fin 16, (staged 5).stk[k].st ≠ .fenced)) ∧
    (portsOff.boot.stage = 6 ∧ portsOff.power.st = 0 ∧ portsOff.fab.ports.toList.all portSettled = true ∧
      (staged 6).boot.stage = 6 ∧ (staged 6).fab.ports.toList.all portSettled = false) ∧
    ((staged 7).boot.stage = 7 ∧ (staged 7).inv.state ≠ 2 ∧ (staged 7).inv.state ≠ 3 ∧
      (staged 7).inv.clk.toNat < (staged 7).boot.since.toNat + 10000000000 ∧
      (let s := { staged 7 with inv := { up.inv with clk := 10000000000 } }
       s.boot.since.toNat + 10000000000 ≤ s.inv.clk.toNat)) ∧
    ((∀ k ∈ [3, 4, 5], bootLive (staged k) = true) ∧
      (let s := { staged 4 with power := { up.power with st := 3 } }
       s.power.st = 3 ∧ s.power.exiting = false)) ∧
    (let s := { staged 8 with inv := { up.inv with clk := 1000000000 } }
     announces s = true ∧ s.boot.annAt[(1 : Fin 2)].toNat + 1000000000 ≤ s.inv.clk.toNat) ∧
    (staged 8).inv.clk.toNat < (staged 8).boot.annAt[(1 : Fin 2)].toNat + 1000000000 ∧
    (announces (staged 8) = true ∧ announces State.reset = false) := by
  refine ⟨⟨h2, hv, ht⟩, ?_⟩
  decide +kernel

/-- An erased flash holds no valid image: no signature is looked at. -/
theorem witness_ErasedSlotsAreNotValid : slotValid (staged 2) false = false ∧ slotValid (staged 2) true = false := by decide +kernel

/-- Whether an image is valid rests on ML-DSA, which is opaque (log entry 4): a hypothesis here. -/
theorem witness_MaintenanceCommandsDoWhatTheyName (s : State) (hs : InService s) (hv : slotValid s true = true)
    (e1 : s.cob.bootSlot = false) (e2 : s.cob.staging = none) (e3 : s.memblk.stepOn = false) (e4 : anyRuns s = false)
    (e5 : ckptBusy s = false) :
    (InService s ∧ slotValid s ((1 : Byte) == 1) = true ∧ ((1 : Byte) == 1) ≠ s.cob.bootSlot ∧ s.cob.staging = none ∧
      s.memblk.stepOn = false ∧ anyRuns s = false ∧ ckptBusy s = false) ∧
    (InService up ∧ slotLen < (0xFFFFFFFF : W32).toNat ∧ cmdAccess up h0.master.toNat 0x1000 4096 .r = .done ∧
      inStacks 0x1000 4096 = true ∧ ((0 : Byte) == 1) = up.cob.bootSlot ∧ slotValid up true = false) ∧
    (validTarget 0x1200 = true ∧ entryOk 0x1200 0 = true) ∧
    (∀ i, i < 1 → placeLost up none (place (guardEntry up (0 + i) + 64)) = false ∧
      placeUp up (place (guardEntry up (0 + i) + 64)) = true ∧ poisoned up (guardEntry up (0 + i) + 64) 64 = false) ∧
    (up.dies[(3 : Fin 4)].st ≠ .fenced ∧ (modDie up 3 (fun d => { d with st := .fenced })).dies[(3 : Fin 4)].st = .fenced) ∧
    (sessionOf upS h1.session = some (0, sess)) ∧
    ((∀ k : Fin 16, stackServes up k = true) ∧ passRuns up = false ∧ scrubOp up = none ∧ passRuns (passUp .a 1 id) = true) ∧
    (testBusy up = false ∧ loopRuns up 23 = false ∧ edgeLost up 7 = false ∧
      edgeLost (modDie up 3 (fun d => { d with st := .fenced })) 7 = true ∧
      testBusy (memb (fun m => { m with stepOn := true })) = true) ∧
    (dieFenced up 3 = false ∧ (die up 3).on = true ∧ storeOwned up 4095 4096 = false ∧ storeOwned up 3072 4096 = false) ∧
    ((∀ t ∈ [0x18, 0xFFFF], 23 < t) ∧ (15 : Nat) < 16 ∧ (4095 : Nat) < 4096 ∧ (3 : Nat) < 4 ∧
      dieFenced (modDie up 3 (fun d => { d with st := .fenced })) (4095 / 1024) = true ∧ up.fab.ports[(23 : Fin 24)].pstate ≠ 7 ∧
      (let s := modPort up 23 (fun q => { q with pstate := 7 })
       testBusy s = false ∧ loopRuns s 23 = false ∧ s.fab.ports[(23 : Fin 24)].pstate = 7)) ∧
    (let u := modPort up 23 (fun q => { q with mode := 1 })
     u.fab.ports[(23 : Fin 24)].mode ≠ 0) := by
  refine ⟨⟨hs, hv, by rw [e1]; decide, e2, e3, e4, e5⟩, ?_⟩
  decide +kernel

theorem witness_StackErrorsScrubAndRepairActAsGiven :
    stackServes State.reset 0 = false ∧ stackWakes State.reset 0 = false ∧
    (let s := modStack (pow (fun p => { p with
        st := 2
        exiting := true })) 15 (fun k => { k with st := .selfRefresh })
     stackServes s 15 = false ∧ stackWakes s 15 = true) ∧ stackServes up 15 = true ∧ stackLen - 1 < stackLen ∧
    up.poison.contains (stackLineNo 15 ((stackLen - 1) / 64)) = false ∧ up.sync.waiters = [] ∧
    ({ up with poison := [stackLineNo 15 5] } : State).poison.contains (stackLineNo 15 (64 * 0 + 5)) = true ∧
    (0 : Nat) ∉ up.stk[(15 : Fin 16)].redirects ∧ up.stk[(15 : Fin 16)].redirects.length < 4096 ∧ up.power.st ≠ 1 ∧
    up.stk[(15 : Fin 16)].scrubRun = none ∧
    (let o : LongOp := { id := 4, hdr := h0, opcode := 0x0A01, kind := .scrub 0x8000, cursor := 0, lastReply := 0 }
     let s := { modStack up 15 (fun k => { k with scrubRun := some 2 }) with cmd := { up.cmd with longs := [o] } }
     s.stk[(15 : Fin 16)].scrubRun = some 2 ∧ (scrubOp s).any (fun p => p.1.id == 4) = true) := by decide +kernel

theorem witness_FailingRowsAreSpared : ∃ row, rowFails { up.stk[(15 : Fin 16)] with
    corrected := [0]
    correctedPrev := [0] } 15 row = true ∧ rowFails up.stk[(15 : Fin 16)] 15 row = false :=
  ⟨rowOfLine 15 0, by simp [rowFails], by decide +kernel⟩

/-- `upS` with the management port's link up and the address 1. -/
def upM : State := { upS with
  tap := { up.tap with mgtUp := Vector.replicate 2 true }
  cmd := { upS.cmd with ip := upS.cmd.ip.set 0 1 } }

/-- A whole datagram to that address and to CMD_UDP_PORT. -/
def via : Datagram := { dst := 1, udp := up.cmd.udpPort, fragment := false }

/-- The port takes it; its link-local address, which the manual does not give, is another matter (log entry 87). -/
theorem witness_ThePortServesItsAddress : portServes upM via (.mgt 0 0 0) = true := by
  have h : (vgetD upM.tap.mgtUp 0 false && !via.fragment && via.udp == upM.cmd.udpPort) = true := by decide +kernel
  have k : ((vgetD upM.cmd.ip 1 0 ++ vgetD upM.cmd.ip 0 0 : W128) != 0 &&
      via.dst == (vgetD upM.cmd.ip 1 0 ++ vgetD upM.cmd.ip 0 0 : W128)) = true := by decide +kernel
  simp only [portServes, mgtAddress, Fin.val_zero, Nat.mul_zero, Nat.zero_add] at h k ⊢
  rw [h, k]; simp

/-- The header and parameters of a one-part message, without its tag (R338): opcode 0x0608, SEQUENCE and session as given. -/
def untagged (handle seq : Nat) : List Byte :=
  leBytes 4 0x4150554E ++ leBytes 2 1 ++ leBytes 2 0x0608 ++ leBytes 2 handle ++ leBytes 2 0x2000 ++ leBytes 2 0xFFFF ++ leBytes 2 0 ++
    leBytes 4 seq ++ leBytes 16 0 ++ leBytes 4 8 ++ leBytes 24 0 ++ leBytes 8 0

/-- The message with the tag of the session's command key (R340). -/
def tagged (seq : Nat) : List Byte := untagged 64 seq ++ kmac256 [] (untagged 64 seq) 32 (ascii "APUNE CMD")

/-- The message with a tag of zeros. -/
def zeroTag (handle seq : Nat) : List Byte := untagged handle seq ++ List.replicate 32 0

/-- A long operation of a kind. -/
def longOf (k : LongKind) : LongOp := { id := 4, hdr := h0, opcode := 0x0206, kind := k, cursor := 0, lastReply := 0 }

/-- `up` with a long operation. -/
def longUp (k : LongKind) : State := { up with cmd := { up.cmd with longs := [longOf k] } }

/-- An admitted command. -/
def queued : QCmd := { hdr := h0, opcode := 0x0505, serial := false, params := [], raw := [], tag := [], wc := 0 }

theorem witness_MessagesAreAdmittedQueuedAndStarted : (cmdOf (.timeQuery h0)).isSome = true ∧
    (served State.reset = false ∧ portServes up via (.mgt 0 0 0) = false ∧ served upM = true) ∧
    (headerOk [] = false ∧ headerOk (untagged 64 5) = true ∧ leAt (untagged 64 5) 15 1 = 0 ∧ (untagged 64 5).length < 96) ∧
    (headerOk (zeroTag 128 5) = true ∧ leAt (zeroTag 128 5) 15 1 = 0 ∧ (zeroTag 128 5).length = 96 + leAt (zeroTag 128 5) 36 4 ∧
      sessionOf upM (par16 (zeroTag 128 5) 8) = none ∧ upM.cmd.authFails = []) ∧
    (sessionOf upM (par16 (zeroTag 64 5) 8) = some (0, sess) ∧ par16 (zeroTag 64 5) 8 ≠ 0) ∧
    (readClass (leAt (zeroTag 64 5) 6 2) = true ∧ readClass 0x0603 = false) ∧
    (leAt (zeroTag 64 11) 20 8 = 0 ∧ par64 (zeroTag 64 11) 28 = 0 ∧ leAt (zeroTag 64 11) 14 1 = 0 ∧
      (∀ j, j < 64 → 40 ≤ j → leAt (zeroTag 64 11) j 1 = 0) ∧
      cmdLength (leAt (zeroTag 64 11) 6 2) (((zeroTag 64 11).drop 64).take (leAt (zeroTag 64 11) 36 4)) =
        some (leAt (zeroTag 64 11) 36 4) ∧
      scopeOk (leAt (zeroTag 64 11) 6 2) (par16 (zeroTag 64 11) 12) = true ∧
      tableAdmits upM 0x1200 (leAt (zeroTag 64 11) 10 2) (leAt (zeroTag 64 11) 6 2 * 65536 + leAt (zeroTag 64 11) 12 2) .cmd = true ∧
      queuedArrivals upM < 1024 ∧ par32 (zeroTag 64 11) 16 = 11 ∧ sess.h.toNat < 11 + 1024) ∧
    (up.cmd.waits.length < 8 ∧ up.cmd.ready = [] ∧ up.cmd.queue = [] ∧ mayStart up [] queued = true) ∧
    (longOp (longUp (.memFill 0 64 0 32 none)) 4 = some (longOf (.memFill 0 64 0 32 none)) ∧ (longUp .replay).power.st = 0 ∧
      longOp (longUp (.port 3 true 0)) 4 = some (longOf (.port 3 true 0)) ∧ now up < 1000000000) := by decide +kernel

/-- The tag that closes the message is the one of the key. -/
theorem witness_TaggedMessagePasses : (tagged 11).drop ((tagged 11).length - 32) =
    kmac256 (keysFor sess 11).kc ((tagged 11).take ((tagged 11).length - 32)) 32 (ascii "APUNE CMD") := by decide +kernel

/-- An end of edge 0. -/
def end0 : EdgeEnd := { edge := 0, upper := false }

/-- `up` with every edge in reset. -/
def unlinked : State := { up with links := State.reset.links }

/-- That state with one end in a state of training, all bundles in its mask. -/
def endUp (e : EdgeEnd) (f : LinkEnd → LinkEnd) : State := modEnd unlinked e (fun l => f { l with
  tstate := 5
  mask := 0xFFFFFFFF
  allowed := 0xFFFFFFFF
  passed := 0xFFFFFFFF })

/-- The bytes of a DATA flit with BSEQ and ESEQ as given (R269). -/
def d2dBytes (bseq eseq : Nat) : List Byte := leBytes 4 (2 ^ 28 + bseq * 2 ^ 16 + eseq) ++ List.replicate 252 0

/-- Its sideband, with the CRC of R270. -/
def d2dSide (bseq eseq : Nat) : W64 := BitVec.ofNat 64 (crc32c (d2dBytes bseq eseq ++ leBytes 4 0)).toNat

/-- A COUNT of 1 on the word at 0x40. -/
def countPkt : MeshPkt := { net := false, typ := 3, ddie := 0, dx := 0, dy := 0, mcend := 0, master := 0x1000, tag := 0, addr := 0x40,
                            len := 8, data := leBytes 8 1 }

/-- A multicast write along row 0 of die 0, from column 0 to its end. -/
def mcPkt : MeshPkt := { countPkt with
  typ := 6
  mcend := 32
  addr := BitVec.ofNat 48 (storeAddr 0 0x40) }

/-- The bytes of a flit of a type, with a payload. -/
def d2dFlit (typ bseq eseq : Nat) (pay : List Byte) : List Byte :=
  leBytes 4 (typ * 2 ^ 28 + bseq * 2 ^ 16 + eseq) ++ leBytes 4 (pay.length / 16 * 2 ^ 24) ++ List.replicate 8 0 ++ pay ++
    List.replicate (240 - pay.length) 0

/-- Its sideband, with the CRC of R270. -/
def sideOf (d : List Byte) : W64 := BitVec.ofNat 64 (crc32c (d ++ leBytes 4 0)).toNat

/-- A TRAIN flit in UP and in MASK. -/
theorem witness_TrainFlitsArrive :
    (let d := d2dFlit 3 0 0 (leBytes 4 1 ++ leBytes 4 0xFFFFFFFF ++ leBytes 8 0)
     let t := endUp end0 (fun l => { l with tstate := 3 })
     d2dCrcOk d (sideOf d) = true ∧ (parseD2d d).typ = 3 ∧ (linkEnd t end0).tstate = 3 ∧
     (linkEnd t end0).passed.getLsbD 31 = true ∧ endLive t end0 = true) ∧
    endLive (endUp end0 id) end0 = true := by decide +kernel

/-- A flit ahead of its turn, one that completes no packet, and one with a whole packet for die 0. -/
theorem witness_DataFlitsArrive :
    (let s := endUp end0 id
     let ahead := d2dFlit 1 0 1 []
     let half := d2dFlit 1 0 0 []
     let whole := d2dFlit 1 0 0 (meshBytes countPkt)
     (linkEnd s end0).streamReq = [] ∧ (linkEnd s end0).streamRsp = [] ∧ (linkEnd s end0).held = [] ∧ (linkEnd s end0).txWait = [] ∧
     (d2dCrcOk ahead (sideOf ahead) = true ∧ (parseD2d ahead).eseq ≠ (linkEnd s end0).rxEseqReq ∧
       ((parseD2d ahead).eseq - (linkEnd s end0).rxEseqReq).toNat < 32768) ∧
     (d2dCrcOk half (sideOf half) = true ∧ (parseD2d half).eseq = (linkEnd s end0).rxEseqReq ∧
       (takeMesh ((parseD2d half).bytes.length / 16 + 1) (parseD2d half).bytes).1 = []) ∧
     (d2dCrcOk whole (sideOf whole) = true ∧ (parseD2d whole).eseq = (linkEnd s end0).rxEseqReq ∧
       takeMesh ((parseD2d whole).bytes.length / 16 + 1) (parseD2d whole).bytes = ([countPkt], []) ∧
       (nearDie end0).isSome = true ∧ edgeToward (nearDie end0) (meshTarget countPkt) = none)) := by decide +kernel

theorem witness_DieLinksAndMeshMoveTrainAndFence :
    (endLive unlinked end0 = false ∧ endLive (endUp end0 id) end0 = true ∧ (linkEnd (endUp end0 id) end0).tstate = 5 ∧
      (linkEnd (endUp end0 id) end0).mask.getLsbD 31 = true) ∧
    (d2dCrcOk [] 0 = false ∧ d2dCrcOk (d2dBytes 0 0) (d2dSide 0 0) = true ∧ (parseD2d (d2dBytes 0 0)).typ = 1 ∧
      (parseD2d (d2dBytes 0 0)).bseq = (bundleOf (linkEnd (endUp end0 id) end0) 31).rxExpect ∧
      (parseD2d (d2dBytes 0 0)).eseq = (linkEnd (endUp end0 id) end0).rxEseqReq ∧
      (linkEnd (endUp end0 id) end0).held = [] ∧ (linkEnd (endUp end0 id) end0).requeue = [] ∧
      noRoom (linkEnd (endUp end0 id) end0) (parseD2d (d2dBytes 0 0)) = false ∧
      noRoom { linkEnd (endUp end0 id) end0 with held := List.replicate 128 (parseD2d (d2dBytes 0 0)) } (parseD2d (d2dBytes 0 0)) = true ∧
      (linkEnd (endUp end0 id) (otherEnd end0)).tstate ≠ 5 ∧ up.meshLate.contains (reqKey countPkt) = false ∧
      ({ up with meshLate := [reqKey countPkt] } : State).meshLate.contains (reqKey countPkt) = true ∧ d2dCrcOk (d2dBytes 1 0) (d2dSide 1 0) = true ∧
      (parseD2d (d2dBytes 1 0)).bseq ≠ (bundleOf (linkEnd (endUp end0 id) end0) 31).rxExpect) ∧
    (let fl : D2dFlit := { bseq := 0, typ := 1, eseq := 0, units := 1, payload := [], sends := 16 }
     let s := endUp end0 (fun l => modBundle l 31 (fun b => { b with
        nakFrom := some 0
        replay := [fl] }))
     (bundleOf (linkEnd s end0) 31).nakFrom = some 0 ∧ fl ∈ (bundleOf (linkEnd s end0) 31).replay ∧ 16 ≤ fl.sends ∧
     (bundleOf (linkEnd s end0) 0).nakFrom = none ∧ (bundleOf (linkEnd s end0) 0).replay = []) ∧
    (∀ t ∈ [1, 2, 3, 4], endLive (endUp end0 (fun l => { l with tstate := t })) end0 = true) ∧
    (let s := endUp end0 (fun l => { l with
        tstate := 3
        attempt := 1 })
     (linkEnd s end0).second = false ∧ (linkEnd s end0).attempt.toNat ≤ 3 ∧
     4 ≤ popCount 32 ((linkEnd s end0).passed &&& ~~~(linkEnd s end0).exclude).toNat) ∧
    3 ≤ (linkEnd (endUp end0 (fun l => { l with
        tstate := 4
        attempt := 3 })) end0).attempt.toNat ∧
    endLive (endUp { edge := 7, upper := false } id) { edge := 7, upper := false } = true ∧
    (iodEdgesUp (endUp end0 id) 0 = false ∧
      iodEdgesUp ((List.range 4).foldl (fun s k => [false, true].foldl (fun t u =>
        modEnd t { edge := Fin.ofNat 8 (4 + k), upper := u } (fun l => { l with
          tstate := 5
          mask := 0xFFFFFFFF })) s) (endUp end0 id)) 0 = true) ∧
    (State.reset.dies[(3 : Fin 4)].on = false ∧ up.dies[(3 : Fin 4)].on = true ∧ up.dies[(3 : Fin 4)].st ≠ .fenced) ∧
    ((place countPkt.addr.toNat).die = some 0 ∧ placeStopped up (place countPkt.addr.toNat) = false ∧
      mergeable countPkt countPkt = true ∧ wordPlace countPkt.addr.toNat = true ∧ poisoned up countPkt.addr.toNat 8 = false ∧
      wordOrphan? (rdNat up countPkt.addr.toNat 8) = false ∧
      accessStatus up countPkt.master.toNat countPkt.addr.toNat 8 .atomic = .done ∧
      leAt countPkt.data 0 8 + ([countPkt].map (fun o => leAt o.data 0 8)).sum < 2 ^ 48) ∧
    (mcLine 0 32 0 countPkt = none ∧ (mcLine 0 0 0 mcPkt).isSome = true) := by decide +kernel

/-- `up` with a change of port 0. -/
def portUp (f : Port → Port) : State := modPort up 0 f

/-- Port 0 up in mode 1. -/
def portOn (f : Port → Port) : State := portUp (fun q => f { q with
  mode := 1
  pstate := 5 })

/-- The bytes of a DATA flit with its sequence number (R297). -/
def fabFlit (fseq : Nat) : List Byte := sealFlit (leBytes 4 (2 ^ 28 + fseq * 2 ^ 16) ++ List.replicate 272 0)

/-- A TIME flit after the exchange of one each way. -/
def timeFlit : TimeFlit := { txPrev := 0, rxLast := 0, tseq := 2, rseq := 1 }

/-- A flit in the replay buffer after its sends. -/
def sentFlit (n : Nat) : Flit := { fseq := 0, vn := false, lane := false, hdrOff := 0xFF, body := [], sends := n, pkts := [] }

theorem witness_FabricPortsTrainServeAndFail :
    (up.fab.ports[(0 : Fin 24)].mode ≠ 1 ∨ up.fab.ports[(0 : Fin 24)].pstate.toNat < 4) ∧
    ((portOn id).fab.ports[(0 : Fin 24)].mode = 1 ∧ (portOn id).fab.ports[(0 : Fin 24)].pstate = 5 ∧
      (crc32c ((slice [] 0 280).take 276)).toNat ≠ leAt [] 276 4) ∧
    (∀ n ∈ [0, 1], (crc32c ((slice (fabFlit n) 0 280).take 276)).toNat = leAt (fabFlit n) 276 4 ∧ (fabFlit n).length = 280 ∧
      bits (leAt (fabFlit n) 0 4) 31 28 = 1) ∧
    (bits (leAt (fabFlit 0) 0 4) 27 16 = (portOn id).fab.ports[(0 : Fin 24)].rxExpect.toNat ∧
      bits (leAt (fabFlit 1) 0 4) 27 16 ≠ (portOn id).fab.ports[(0 : Fin 24)].rxExpect.toNat) ∧
    (up.fab.ports[(0 : Fin 24)].nakFrom = none ∧
      (let s := portOn (fun q => { q with
        nakFrom := some 0
        replay := [sentFlit 1] })
       s.fab.ports[(0 : Fin 24)].nakFrom = some 0 ∧ s.fab.ports[(0 : Fin 24)].mode = 1 ∧ s.fab.ports[(0 : Fin 24)].pstate = 5 ∧
        s.fab.ports[(0 : Fin 24)].outq = [] ∧ s.fab.ports[(0 : Fin 24)].replay = [sentFlit 1])) ∧
    (up.fab.ports[(0 : Fin 24)].carries = false ∧ (portOn id).fab.ports[(0 : Fin 24)].carries = true) ∧
    ((∃ f ∈ (portOn (fun q => { q with replay := [sentFlit 8] })).fab.ports[(0 : Fin 24)].replay, 8 ≤ f.sends) ∧
      (∀ f ∈ (portOn (fun q => { q with replay := [sentFlit 1] })).fab.ports[(0 : Fin 24)].replay, f.sends < 8)) ∧
    (up.inv.linkEn = true ∧
      ttOffset (portOn id) (portOn id).fab.ports[(0 : Fin 24)] { timeFlit with rseq := 9 } = none ∧
      ttOffset up (portOn (fun q => { q with
        tseq := 1
        rseq := 1 })).fab.ports[(0 : Fin 24)] timeFlit = some 0 ∧ up.inv.parent.toNat ≠ 0 ∧ (0 : Int).natAbs ≤ 1 ∧
      (let s := { portOn id with inv := { up.inv with parent := 0 } }
       s.inv.parent.toNat = 0 ∧ (1 : Nat) < (2 : Int).natAbs)) ∧
    (portsOn up = true ∧
      (let s := portUp (fun q => { q with
          mode := 1
          pstate := 1 })
       s.fab.ports[(0 : Fin 24)].pstate = 1 ∧ s.fab.ports[(0 : Fin 24)].retryAt = none ∧ portsOn s = true)) ∧
    (alignLanes 0xFF ≠ 0 ∧ alignLanes 0x0F ≠ 0 ∧ alignLanes 0x3C = 0) ∧
    (∀ t ∈ [2, 3, 4], (portUp (fun q => { q with
      mode := 1
      pstate := t })).fab.ports[(0 : Fin 24)].pstate = t ∧ 2 ≤ t.toNat ∧ t.toNat ≤ 4) ∧
    (up.fab.ports[(0 : Fin 24)].identIn = false ∧ (portUp (fun q => { q with identIn := true })).fab.ports[(0 : Fin 24)].identIn = true ∧ identOk { up.fab.ports[(0 : Fin 24)] with peerPort := 3 } 0 = true ∧
      identOk { up.fab.ports[(0 : Fin 24)] with peerPort := 22 } 0 = false ∧
      identOk { up.fab.ports[(0 : Fin 24)] with
        peerPort := 22
        peerPart := 0x0416 } 22 = true) ∧
    ((portUp (fun q => { q with retryAt := some 0 })).fab.ports[(0 : Fin 24)].retryAt = some 0 ∧
      (0 : W64).toNat ≤ now up ∧ now up < (1000 : W64).toNat) ∧
    (let s := portUp (fun q => { q with
        mode := 2
        pstate := 1 })
     portsOn s = true ∧ s.fab.ports[(0 : Fin 24)].mode = 2 ∧ s.fab.ports[(0 : Fin 24)].ethUp ≠ true ∧ loopRuns s 0 = false ∧
      s.fab.ports[(0 : Fin 24)].ethUp = false) := by decide +kernel

/-- Link time on, with port 0 the parent, and off. -/
theorem witness_LinkTimeIsOnOrOff : (∃ s : State, s.inv.linkEn = true ∧ s.inv.parent.toNat = 0 ∧
    s.fab.ports[(0 : Fin 24)].carries = true) ∧ ∃ s : State, s.inv.linkEn = false :=
  ⟨⟨{ portOn id with inv := { up.inv with parent := 0 } }, by decide +kernel⟩,
   ⟨{ up with inv := { up.inv with linkEn := false } }, by decide +kernel⟩⟩

/-- A WRITE of eight bytes at 0x40, from package 2 to package 1, that begins its flow. -/
def wrPkt : Pkt := sealPkt { mkReq 1 0 1 0x40 8 (leBytes 8 7) with
  src := 2
  syn := true }

/-- Package 2 is a valid peer, in slot 5, that may write all of the first stack. -/
def peered : State :=
  let s := wrNat (portOn id) ((portOn id).fab.peerBase.toNat + 4) 2 0x8005
  { s with cob := { s.cob with table := [(0x1000 * 64, BitVec.ofNat 128
    (0x8005 + 0x8005 * 2 ^ 16 + (2 ^ 31 + 2 ^ Perm.bit .w) * 2 ^ 32 + 0 * 2 ^ 64 + 0xFFFFFFFF * 2 ^ 96))] } }

/-- The flow of that packet after it ran. -/
def ranFlow : RecvFlow := { src := 2, dst := 1, incarn := 0, cum := 0, seen := [(0, 0, 0)] }

/-- A route to package 3 by port 0. -/
def routed : State :=
  let s := portOn id
  wrNat { s with fab := { s.fab with fwdEn := true } } (s.fab.routeBase.toNat + 12) 4 0x80000000

/-- A transaction with package 2, and the answer to it. -/
def waiting : Txn := { tag := 1, pkt := mkReq 2 0 1 0x40 8 (leBytes 8 7), what := .add, sent := 0, resends := 0, busyAt := none,
                       mcWait := [], mcBusy := [] }
def rspPkt (st : Byte) : Pkt := sealPkt { mkReq 1 0 9 0 0 [] with
  src := 2
  vn := true
  tag := 1
  status := st }

/-- The send flow to package 2. -/
def flow2 (e2e : Bool) : SendFlow := { dst := 2, next := 1, started := true, e2e := e2e, lastActive := 0 }

/-- `portOn` with that transaction and its flow. -/
def asking (t : Txn) (e2e : Bool) : State :=
  let s := portOn id
  { s with fab := { s.fab with
    e2eAll := false
    txns := [t]
    sends := [flow2 e2e] } }

theorem witness_FabricPacketsAreServedAnsweredAndSentAgain :
    (arrives up 0 wrPkt = false ∧ arrives (portOn id) 0 wrPkt = true ∧ wrPkt.cls ≠ 3 ∧ wrPkt.vn = false ∧ wrPkt.mc = false ∧
      ({ portOn id with pkgId := 0xFFFF } : State).pkgId = 0xFFFF ∧ (portOn id).pkgId = 1 ∧ wrPkt.dst = 1 ∧
      (mkReq 3 0 1 0x40 8 []).dst ≠ 1) ∧
    (up.fab.fwdEn = false ∧ routed.fab.fwdEn = true ∧ (mkReq 3 0 1 0x40 8 []).ttl ≠ 0 ∧ (mkReq 3 0 1 0x40 8 []).cls ≠ 3 ∧
      routePort routed 3 = some 0 ∧ routePort up 3 = none) ∧
    (pktEcrc wrPkt = wrPkt.ecrc ∧ pktEcrc (mkReq 1 0 1 0x40 8 []) ≠ (mkReq 1 0 1 0x40 8 []).ecrc ∧
      requestOk 0 wrPkt = true ∧ requestOk 0 (sealPkt { wrPkt with cls := 7 }) = false ∧
      pktEcrc (sealPkt { wrPkt with cls := 7 }) = (sealPkt { wrPkt with cls := 7 }).ecrc) ∧
    (recvFlow up wrPkt = none ∧ (sealPkt { wrPkt with syn := false }).syn = false) ∧
    (let s := { portOn id with fab := { (portOn id).fab with recvs := [ranFlow] } }
     flowGate s wrPkt = .again ranFlow 0 0 ∧ wrPkt.cls = 0 ∧ wrPkt.op ≠ 0) ∧
    (flowGate (portOn id) wrPkt = .run { ranFlow with seen := [] } ∧ peerSlot (portOn id) wrPkt.src = none) ∧
    (flowGate peered wrPkt = .run { ranFlow with seen := [] } ∧ peerSlot peered wrPkt.src = some 5 ∧ wrPkt.op = 1 ∧
      (place wrPkt.addr.toNat).isMem = true ∧ pageShape wrPkt.addr.toNat wrPkt.plen.toNat = true ∧
      wrPkt.payload.length = wrPkt.plen.toNat ∧ touchesStopped peered wrPkt.addr.toNat wrPkt.plen.toNat = false ∧
      peered.ckpt.capture = none ∧ spaceStatus peered (0x8000 + 5) wrPkt.addr.toNat wrPkt.plen.toNat .w = .done ∧ peered.poison = [] ∧ arrives peered 0 wrPkt = true ∧ peered.pkgId = wrPkt.dst) ∧
    ((rspPkt 0).vn = true ∧ (rspPkt 0).dst = 1 ∧ pktEcrc (rspPkt 0) = (rspPkt 0).ecrc ∧ (rspPkt 0).op = 9 ∧ (rspPkt 0).cls.toNat ≤ 3 ∧
      txnOf (portOn id) (rspPkt 0) = none ∧ txnOf (asking waiting false) (rspPkt 0) = some waiting ∧
      (rspPkt 0).status.toNat ≠ statusCode .busy ∧ waiting.pkt.mc = false ∧
      txnOf (asking waiting false) (rspPkt (BitVec.ofNat 8 (statusCode .busy))) = some waiting ∧
      (rspPkt (BitVec.ofNat 8 (statusCode .busy))).status.toNat = statusCode .busy) := by decide +kernel

/-- The timers, the quiet flow, the multicast and the Ethernet clauses. -/
theorem witness_FabricPacketsAreSentAgainAndMulticast :
    (txnAt (asking waiting false) 1 = some waiting ∧ iodOn (asking waiting false) = true ∧ waiting.busyAt = none ∧
      txnAt (asking { waiting with busyAt := some 0 } false) 1 = some { waiting with busyAt := some 0 } ∧
      (0 : W64).toNat ≤ now (asking waiting false) ∧ now (asking waiting false) < (20000 : W64).toNat) ∧
    (let s := asking waiting false
     clk s < waiting.sent.toNat + s.fab.toService.toNat * 1000 ∧ flowE2e s (sendFlow s waiting.pkt.dst) = false) ∧
    (let s := { asking waiting false with inv := { up.inv with clk := 1000000000 } }
     waiting.sent.toNat + s.fab.toService.toNat * 1000 ≤ clk s ∧ flowE2e s (sendFlow s waiting.pkt.dst) = false) ∧
    (let s := { asking waiting true with inv := { up.inv with clk := 1000000000 } }
     flowE2e s (sendFlow s waiting.pkt.dst) = true ∧ waiting.sent.toNat + backoffNs s waiting.resends ≤ clk s ∧
      waiting.resends < s.fab.tries.toNat ∧ waiting.sent.toNat + backoffNs s 100 ≤ clk s ∧ s.fab.tries.toNat ≤ 100 ∧
      s.fab.e2eAll = false ∧ bit (routeEntry s 2) 30 = false ∧
      s.fab.sends.find? (fun g => g.dst == 2) = some (flow2 true) ∧ (flow2 true).lastActive.toNat + 10000000 ≤ clk s) ∧
    ((asking waiting true).fab.sends.find? (fun g => g.dst == 2) = some (flow2 true) ∧
      now (asking waiting true) < (flow2 true).lastActive.toNat + 10000000) ∧
    (let m : Pkt := { wrPkt with
        mc := true
        mcHops := 2 }
     let s := portOn (fun q => { q with lineNext := 0 })
     m.vn = false ∧ 2 ≤ m.mcHops.toNat ∧ m.ttl ≠ 0 ∧ s.fab.ports[(0 : Fin 24)].lineNext.toNat = (0 : Fin 24).val ∧
      s.fab.ports[(0 : Fin 24)].carries = true ∧ arrives s 0 m = true ∧ s.pkgId ≠ 0xFFFF) ∧
    (let s := portUp (fun q => { q with
        mode := 2
        ethUp := true })
     portsOn s = true ∧ s.fab.ports[(0 : Fin 24)].mode = 2 ∧ s.fab.ports[(0 : Fin 24)].ethUp = true ∧
      up.fab.ports[(0 : Fin 24)].mode ≠ 2 ∧ s.fab.ports[(0 : Fin 24)].ethWait = [] ∧ frameFits (.other (List.replicate 9217 0)) = false ∧
      ethXfers (modPort s 0 (fun q => { q with rxPkts := satAdd q.rxPkts 1 })) 0 5 false = []) := by decide +kernel


/-- Every block and offset whose write takes effect, as master 0x2000 sees it. -/
def writable : List (Nat × Nat) :=
  [(0x00, 0x08), (0x00, 0x10), (0x04, 0x10), (0x04, 0x18), (0x08, 0x00), (0x0C, 0x20), (0x10, 0x08), (0x140, 0x40), (0x440, 0x40), (0x140, 0x38), (0x440, 0x38),
   (0x140, 0x20), (0x140, 0x48), (0x150, 0x100), (0x450, 0x8F8), (0x1C, 0x08), (0x1C, 0x10), (0x20, 0x00), (0x37, 0x00),
   (0x38, 0x08), (0x3C, 0x08), (0x40, 0x08), (0x48, 0x08), (0x48, 0x20), (0x48, 0xFF8), (0x4C, 0x20), (0x4C, 0x18), (0x4C, 0x30)]

/-- A credential record of slot 0 with the owner role and ordinal 1, of no one device; its key begins with 1. -/
def record0 : List Byte := leBytes 4 0x43524544 ++ [0, 1] ++ leBytes 2 0 ++ leBytes 8 1 ++ leBytes 32 0 ++ [1]

/-- `up` with an owner key and that record at 0x1000. -/
def credUp : State := { up with
  mem := (pokeBytes up 0x1000 record0).mem
  cob := { up.cob with creds := [(0, { role := 3, ordinal := 0, pubkey := [] })] } }

theorem witness_RegisterWritesAreCheckedAndTakeEffect :
    ((place 0x100000000000).isMem = true ∧ (place (ctrlAddr 0x04 0x10)).isMem = false ∧ listedBlock 0x04 = true) ∧
    (∀ e ∈ writable, cmdAccess up 0x2000 (ctrlAddr e.1 e.2) 8 .w = .done) ∧
    (cmdAccess up 0x0001 (ctrlAddr 0x04 0x10) 8 .w ≠ .done) ∧
    (State.reset.boot.stage.toNat < 7 ∧ 7 ≤ up.boot.stage.toNat ∧ up.fab.txns = [] ∧ up.fab.waitq = [] ∧
      up.boot.stage.toNat ≤ 9 ∧ up.fab.incarnAt.toNat + 100000000 ≤ now (at_ 200000000) ∧
      (let s : State := { at_ 200000000 with boot := { up.boot with stage := 7 } }
       s.boot.stage ≠ 9 ∧ cmdAccess s 0x2000 (ctrlAddr 0x00 0x08) 8 .w = .done ∧ (1 : Nat) % 65536 ≠ 0xFFFF)) ∧
    (parentOk 24 = false ∧ parentOk 3 = true ∧ up.inv.parent.toNat = 0xFF ∧ parentOk 0xFF = true) ∧
    ((1000 : Nat) % 2 ^ 32 = 1000 ∧ 1000000000 % 1000 = 0 ∧ up.cmd.schedule = []) ∧
    (linearEnd < addrField 0xFFFFFFFFFFFF 19 + 0x80000 ∧ addrField 0 19 + 0x80000 ≤ linearEnd ∧ up.memblk.stepOn = false) ∧
    (updHeld up = false ∧ updHeld { up with memblk := { up.memblk with stepOn := true } } = true) ∧
    (up.exch.ops = [] ∧ up.exch.early = []) ∧
    (viewBase + 0 * viewStride ≤ viewBase ∧ viewBase + 0x10000 ≤ viewBase + 0x5FF0000000 ∧ up.ckpt.capture = none) ∧
    (up.sync.barriers[(0 : Fin 16)].arrived = [] ∧ up.fab.e2eAll = true ∧ up.fab.en = false ∧ up.sync.index = []) ∧
    (rdBytes credUp 0x1000 48 = record0.take 48 ∧ inStacks 0x1000 7267 = true ∧ inStacks 0x7FFFFFFFFFFF 7267 = false ∧ inStacks 0x1000 4675 = true ∧ recordCause up [] true ≠ 1 ∧
      cmdAccess credUp 0x2000 (ctrlAddr 0x48 0x08) 8 .w = .done) ∧
    (validTarget 0x1300 = false ∧ validTarget 0x1200 = true ∧ up.power.buffer = []) := by decide +kernel

/-- The record is installed, and a token opens the debug state, where their signatures are good (ML-DSA is opaque: log entry 4). -/
theorem witness_SignedRecordsAndTokensAreGood
    (sig : Config.mldsaVerify [] (slice (rdBytes credUp 0x1000 7267) 0 2640) (ascii "IFEPOR CRED")
      (slice (rdBytes credUp 0x1000 7267) 2640 4627) = true)
    (tok : List Byte) (dev : slice tok 0 32 = deviceId) (form : leAt tok 32 8 = 0 ∧ leAt tok 40 1 = 1 ∧ leAt tok 44 4 = 0)
    (good : Config.mldsaVerify [] (slice tok 0 48) (ascii "IFEPOR DEBUG") (slice tok 48 4627) = true) :
    (recordCause credUp (rdBytes credUp 0x1000 7267) true = 1) ∧
    (tokenOk up [] = false ∧ tokenOk credUp tok = true) := by
  refine ⟨?_, ?_, ?_⟩
  · have a1 : ¬ (leAt (rdBytes credUp 0x1000 7267) 0 4 ≠ 0x43524544 ∨ 15 < leAt (rdBytes credUp 0x1000 7267) 4 1 ∨
      4 ≤ leAt (rdBytes credUp 0x1000 7267) 5 1) := by decide +kernel
    have a2 : slice (rdBytes credUp 0x1000 7267) 16 32 = List.replicate 32 0 := by decide +kernel
    have a3 : ¬ leAt (rdBytes credUp 0x1000 7267) 8 8 ≤
      (lookD credUp.cob.ordinals (leAt (rdBytes credUp 0x1000 7267) 4 1) 0).toNat := by decide +kernel
    have a4 : look credUp.cob.creds 0 = some { role := 3, ordinal := 0, pubkey := [] } := by decide +kernel
    simp only [recordCause, if_neg a1, a2, if_neg a3, a4, sig, ne_eq, not_true_eq_false, false_and, if_false, if_true]
  · have b : look up.cob.creds (leAt [] 44 4) = none := by decide +kernel
    simp only [tokenOk, b, Bool.and_false]
  · have b : look credUp.cob.creds 0 = some { role := 3, ordinal := 0, pubkey := [] } := by decide +kernel
    have c : credUp.cob.chal.toNat = 0 := by decide +kernel
    simp [tokenOk, dev, form.1, form.2.1, form.2.2, b, c, good]

/-- `up` in RECOVERY, with an image begun in slot A. -/
def recovering : State := { up with
  boot := { up.boot with stage := 14 }
  i3c := { up.i3c with image := some false } }

/-- `up` with a code in the instruction register and RESET_N as given. -/
def tapUp (ir : Byte) (rst : Bool) : State := { up with tap := { up.tap with
  ir := ir
  resetN := rst } }

/-- `up` with the record of slot 0 in the I3C buffer. -/
def bufUp : State := { up with i3c := { up.i3c with buffer := (pokeBytes up 0x0 record0).mem.cells } }

theorem witness_BoardInterfacesReadInstallAndScan :
    (State.reset.tap.pwrEn = false ∧ up.tap.pwrEn = true ∧ lifecycle up = 0 ∧ lifecycle credUp ≠ 0) ∧
    ((0x4C : W16).toNat = 0x4C ∧ (8 : W16).toNat % 8 = 0 ∧ (32 : Byte).toNat ≤ 32 ∧ (0 : Byte) = 0) ∧
    ((List.range 7267).map (Memory.read bufUp.i3c.buffer)).take 49 = record0 ∧ lifecycle bufUp = 0 ∧
    (let r := (List.range 7267).map (Memory.read bufUp.i3c.buffer)
     leAt r 4 1 = 0 ∧ bit (leAt r 5 1) 0 = true ∧ recordCause bufUp r false = 1 ∧ (slice r 48 2592).all (· == 0) = false) ∧
    (let r := (List.range 7267).map (Memory.read up.i3c.buffer)
     leAt r 4 1 = 0 ∧ bit (leAt r 5 1) 0 = false) ∧
    (inRecovery up = false ∧ inRecovery recovering = true ∧ recovering.i3c.image = some false ∧ up.i3c.image = none ∧
      inRecovery { recovering with i3c := up.i3c } = true) ∧
    (slotLen < (0xFFFFFFFF : W32).toNat ∧ (0 : W32).toNat ≤ slotLen) ∧
    (up.i3c.address = none ∧ extestClass 0x00 = true ∧ extestClass 0x09 = true ∧ extestClass 0x41 = false ∧ up.tap.resetN = true ∧
      (tapUp 0x02 false).tap.resetN = false) ∧
    (∀ c ∈ [0x00, 0x01, 0x02, 0x40, 0xFF], (tapUp c true).tap.ir = c ∧ (tapUp c true).tap.pwrEn = true) ∧
    (up.tap.ir ≠ 0x40) := by decide +kernel

/-- An image of no bytes is not valid. -/
theorem witness_AnEmptyImageIsNotValid : imageValid recovering (flashByte recovering false) 0 = false := by
  have h : decide (12288 ≤ imgNat (flashByte recovering false) 8 4) = false := by decide +kernel
  simp [imageValid, h]

/-- The first and the last byte of the first page, and the last page, of a die's interleaved view. -/
theorem witness_MemoryReadsWhatWasWritten_views :
    place (0x080000000000 + 0 * 0x8000000000 + 0) = .stack 0 0 ∧ place (0x080000000000 + 3 * 0x8000000000 + 0xFFF) = .stack 12 0xFFF ∧
    0x5FFFFFFFFF < 0x6000000000 ∧ 0x4000 * 0x17FFFFF + 0x4000 ≤ 0x6000000000 := by decide +kernel

/-- A package with nothing wrong reports 0, one with a fenced die reports bit 0. -/
theorem witness_ConditionReportsThePackage : cond up = 0 ∧ (cond (modDie up 0 (fun d => { d with st := .fenced }))).testBit 0 = true := by decide +kernel

/-- A lane of cluster 1 whose state is not 0. -/
theorem witness_GeneratorsAreSeededAndDrawn : (List.replicate 32 (0 : Byte)).length = 32 ∧
    leNat ((sha3_512 (List.replicate 32 0 ++ leBytes 3 (laneId 1 64))).take 16) ≠ 0 := by decide +kernel

/-- Every writable register of master 0x2000 is served and admitted; of another master not, and of a fenced or cold die neither. -/
theorem witness_RegisterWritesAreCheckedAndTakeEffect_served :
    (∀ e ∈ writable, placeLost up (masterDie 0x2000) (.ctrl e.1 e.2) = false ∧
      tableAdmits up (Place.ctrl e.1 e.2).target 0x2000 (Place.ctrl e.1 e.2).compared .w = true ∧
      placeUp up (.ctrl e.1 e.2) = true ∧ placeStopped up (.ctrl e.1 e.2) = false) ∧
    (tableAdmits up (Place.ctrl 4 0x10).target 1 (Place.ctrl 4 0x10).compared .w = false ∧
      placeLost up (masterDie 1) (.ctrl 4 0x10) = false) ∧
    (let s := modDie up 3 (fun d => { d with st := .fenced })
     placeLost s (masterDie 0x2000) (.ctrl 0x440 0x20) = true) ∧
    (let s := pow (fun p => { p with st := 2 })
     let t := { s with dies := s.dies.map (fun d => { d with on := false }) }
     placeLost t (masterDie 0x2000) (.ctrl 0x440 0x20) = false ∧
     tableAdmits t (Place.ctrl 0x440 0x20).target 0x2000 (Place.ctrl 0x440 0x20).compared .w = true ∧
     (writeReg t 0x440 0x20 5).2 = .done ∧ placeUp t (.ctrl 0x440 0x20) = false) ∧
    (writeReg up 0x04 0x18 999).2 ≠ .done := by decide +kernel

/-- An operation byte that R447 does not list, and the chain under each of its codes. -/
theorem witness_BoardInterfacesReadInstallAndScan_chain : i3cListed 0x00 = false ∧ i3cListed 0x23 = false ∧ i3cListed 0x22 = true ∧
    (∀ c ∈ [0x00, 0x01, 0x08, 0x09], (tapUp c true).tap.ir = c) ∧ up.tap.landsTaken = false ∧
    scanLands.length = 785 ∧ scanLands.any (· == .pwrEn) = true ∧ scanLands.any (· == .alertN) = true := by decide +kernel

/-- Long operations by kind, a KEY_ROTATE without its final reply, and processors in use. -/
theorem witness_MessagesAreAdmittedQueuedAndStarted_kinds :
    (∀ k ∈ [LongKind.fwStage 0x1000 0x3000 true 0 true, .replay, .exchange 5, .reshard 0, .edge 7 (some 0)],
      longOp (longUp k) 4 = some (longOf k)) ∧
    (let s := { longUp (.edge 7 (some 0)) with links := (startPrbs up 7).links }
     edgeState s 7 = 0 ∧ (edge s 7).1.tstate = 0 ∧ (edge s 7).2.tstate = 0 ∧ s.inv.clk.toNat < (0 : W64).toNat + 1000000) ∧
    ({ sess with rotating := [5] } : Session).rotating.any (fun r => decide (r.toNat < (11 : W32).toNat)) = true ∧
    ({ sess with rotating := [11] } : Session).rotating.any (fun r => decide (r.toNat < (11 : W32).toNat)) = false ∧
    (let s := { up with cmd := { up.cmd with held := List.replicate 8 (.timeQuery h0) } }
     served s = true ∧ 8 ≤ s.cmd.waits.length + s.cmd.held.length) := by decide +kernel

/-- The most records that a reply holds, and one more; the counters of the last port. -/
theorem witness_MaintenanceCommandsDoWhatTheyName_telemetry :
    ((1000 : W16).toNat ≤ 1000 ∧ 1000 < (1001 : W16).toNat ∧ 3095 + (1001 : W16).toNat ≤ 4096) ∧
    (∀ i ∈ [0, 1000], cmdAccess up h0.master.toNat (guardEntry up (3095 + i) + 64) 64 .r = .done ∧
      poisoned up (guardEntry up (3095 + i) + 64) 64 = false) ∧
    cmdAccess up h0.master.toNat (portCounters 23) 96 .r = .done := by decide +kernel

/-- A WRITE to the first queue pair of port 0 whose packet is not acknowledged. -/
def rdmaUp : State :=
  let s := portUp (fun q => { q with
    mode := 2
    ethUp := true })
  { s with fab := { s.fab with eth := [{ port := 0, qp := 0, op := 0, read := false, off := 0, psn := 9, packets := 1,
                                         frames := [([], 0)], left := 0 }] } }

/-- A TTL that a hop ends, a queue pair with one WRITE, and a peer's packet that crosses no training edge. -/
theorem witness_FabricPacketsAreServedAnsweredAndSentAgain_hops :
    ((sealPkt { wrPkt with ttl := 1 }).ttl.toNat ≤ 1 ∧ 2 ≤ wrPkt.ttl.toNat) ∧
    trainHolds peered (0x8000 + 5) wrPkt.addr.toNat wrPkt.plen.toNat = false ∧
    (let lqpn := BitVec.ofNat 24 (qpWord rdmaUp 0 0 0)
     ethXfers rdmaUp 0 lqpn false = rdmaUp.fab.eth ∧ ethXfers rdmaUp 0 lqpn true = [] ∧
     rdmaUp.fab.eth.all (fun x => x.psn == (9 : BitVec 24).toNat) = true ∧ ethXfers rdmaUp 0 (lqpn + 1) false = []) := by
  decide +kernel

/-! ### Conversions, the guard and the update engine -/

/-- Magnitudes below every scale, at a top, and above every scale; values on and between grid points; a block with a NaN. -/
theorem witness_ConversionsRoundOnceUnderTheSmallestScale :
    (∀ h ∈ [true, false], selectScale (7, 1) .f4b h % 256 ≤ 254 ∧ selectScale (0, 1) .i8b h = 0 ∧
      selectScale (2 ^ 140, 1) .f4b h % 256 = 254) ∧
    (fracLt (blockTop .f4b) (7 * (scaleVal 127).2, 1 * (scaleVal 127).1) = true ∧
      fracLt (blockTop .f4b) (6 * (scaleVal 127).2, 1 * (scaleVal 127).1) = false) ∧
    (fracLt (2 ^ 128 - 1, 1) (2 ^ 128, 1) = true ∧ fracLe (2 ^ 128, 1) (2 ^ 128, 1) = true) ∧
    (f32 0x3F800000).isFin = true ∧ (f32 0x7F800000).isFin = false ∧ f32 0x7FC00000 = .nan ∧
    (let ys : List (Fv × Option Nat) := [(.fin false 7 1, none), (.nan, none), (.fin true 1 3, some 5)]
     (∀ y ∈ ys, y.1.isFin = true → 0 < y.1.mag.2) ∧ amaxOf (ys.map (·.1)) = (7, 1) ∧
     fracLe (7, 1) (fracMul (blockTop .f4b) (scaleVal (selectScale (7, 1) .f4b true))) = true) ∧
    (insOf ptrs (word (clsOp 1 0x10) 0 (1 + 2 * 2 ^ 4) 0)).sr = false := by decide +kernel

/-- A latched entry: F4B, S9, HOLD 4, XCAP 0, one record at 0x200000 of the first stack. -/
def guardCfg : List W32 := [BitVec.ofNat 32 (4 * 2 ^ 22), 0, 0, 1, 1, 0x200000, 0, 0]

/-- `up` with that entry for TID 0, a table at 0x100000, and the record in force. -/
def guardUp : State :=
  let s := wrBytes up 0x200000 [0x80]
  { s with guard := { s.guard with
    en := true
    tableBase := 0x100000
    cfg := [(0, guardCfg)] } }

theorem witness_GuardCommitsScalesOverridesAndTelemetry :
    MemoryCanonical guardUp ∧ guardUp.ckpt.capture = none ∧ guardUp.poison = [] ∧ guardEntry guardUp 0 + 128 ≤ linearEnd ∧
    cfgBase guardCfg + cfgRecords guardCfg ≤ linearEnd ∧ guardEntry guardUp 0 + 128 ≤ cfgBase guardCfg ∧ cfgRecords guardCfg = 1 ∧
    cfgFmt guardCfg = some .f4b ∧ guardUp.guard.cfg = [(0, guardCfg)] ∧ up.guard.en = false ∧ guardUp.guard.en = true ∧
    (guardWord (trackerCommit guardUp 1 0 guardCfg).1 0 10 = 1 ∧
      (sweepRecord 4 0x80, sweepRecord 1 0x80, sweepRecord 4 0x40, sweepRecord 4 0xA0) = (0x81, 0, 0x80, 0x80)) :=
  ⟨(by decide +kernel : guardUp.mem.wf = true), by decide +kernel, by decide +kernel, by decide +kernel, by decide +kernel,
    by decide +kernel, by decide +kernel, by decide +kernel, by decide +kernel, by decide +kernel, by decide +kernel,
    by decide +kernel⟩

/-- A frozen tensor of one tile, its mask and LAST all ones. -/
def frozenUp : State :=
  let t := { tensor1 with freeze := 0x3000000 }
  let s := updUp .m (fun u => { u with tensors := [t] })
  wrTile (wrNat s 0x3000000 4 0xFFFFFFFF) .m t .last 0 0 [0xFF, 0xFF, 0xFF, 0xFF]

theorem witness_UpdateRulesComputeEachElementOnce :
    (fracLt maxF32 (1, 3) = false ∧ f32 0x3F800000 = .fin false (2 ^ 23) (2 ^ 23)) ∧
    (∃ g n d, f32 0x00000001 = .fin g n d ∧ 0 < d) ∧
    (normClip (4 * 2 ^ 298) 0x3F800000 = (0x40000000, 0x3F000000) ∧ normClip (4 * 2 ^ 298) 0x40000000 = (0x40000000, 0x3F800000)) ∧
    (let s := wrBytes up 0x1000 (leBytes 8 10 ++ leBytes 4 0x3F800000 ++ leBytes 4 0 ++ leBytes 8 20 ++ leBytes 4 0x40000000)
     rdNat s 0x1000 8 < rdNat s 0x1010 8 ∧ curveAt s 0x1000 2 15 = 0x3FC00000 ∧ curveAt s 0x1000 2 10 = 0x3F800000 ∧
     curveAt s 0x1000 2 20 = 0x40000000) ∧
    (let p : Mat := [[0x3F800000, 0], [0, 0x3F800000]]
     p.length = 2 ∧ (∀ r ∈ p, r.length = 2) ∧ rootSumSq p.flatten ≠ 0 ∧ rootSumSq [0, 0] = 0) ∧
    (let t := { tensor1 with freeze := 0x3000000 }
     liveBlocks frozenUp t 0 = [] ∧ freezeBits frozenUp t 0 = leNat (rdTile frozenUp .m t .last 0 0 4)) ∧
    (let sc : GScalars := { eta := 0, kap := 0, alpha := 0, epsh := 0, clip := 0, p1n := 0, p2n := 0 }
     let s := passUp .m 3 (fun p => { p with scalars := [(0, sc)] })
     s.upd.pass.any (fun p => look p.scalars tensor1.group == some sc) = true) := by
  refine ⟨by decide +kernel, ⟨false, _, _, rfl, ?_⟩, by decide +kernel, by decide +kernel, by decide +kernel, by decide +kernel,
    by decide +kernel⟩
  decide +kernel

/-- A session in slot 63, a full schedule but one, and a spare in use; and clusters without work. -/
theorem witness_EveryStepKeepsTheTablesBounded :
    (let s := modDie { upS with cmd := { upS.cmd with sessions := [(0, sess), (63, sess)] } } 3 (fun d => { d with
        spares := [(0, true, false, false, 5), (31, true, false, false, 6)] })
     TablesBounded s ∧ ∃ t, step s = .next t) ∧
    (List.replicate 4096 (entry 5 true)).length ≤ 4096 :=
  ⟨⟨⟨by decide +kernel, by decide +kernel, by decide +kernel⟩, ⟨_, rfl⟩⟩, by decide +kernel⟩

/-- `up` has no cluster at work: its queues are empty and its contexts idle. -/
theorem witness_EveryStepKeepsClustersOrderly : QueuesBounded up ∧ ContextsApart up ∧ ∃ t, step up = .next t :=
  ⟨fun _ c => ⟨by cases c <;> exact Nat.zero_le _, Nat.zero_le _, Nat.zero_le _, Nat.zero_le _, Nat.zero_le _, fun a => match a with
      | 0 => Nat.zero_le _
      | 1 => Nat.zero_le _
      | 2 => Nat.zero_le _
      | 3 => Nat.zero_le _⟩,
   fun _ c _ _ _ h => absurd (by cases c <;> rfl) h, ⟨_, rfl⟩⟩

/-- Two contexts of a cluster with banks and entries apart, and queues at their sizes. -/
theorem witness_ContextsAtWork :
    (let s := modStream (fwd (fun t => { t with
        st := .running
        banks := 0x00FF
        entHi := 10 })) 0 .bin (fun t => { t with
        st := .stopped
        banks := 0xFF00
        entLo := 11
        entHi := 511 })
     (stream s 0 .fwd).banks &&& (stream s 0 .bin).banks = 0 ∧
     rangesMeet (stream s 0 .fwd).entLo.toNat (stream s 0 .fwd).entHi.toNat (stream s 0 .bin).entLo.toNat
       (stream s 0 .bin).entHi.toNat = false) ∧
    queuedOf (cluster (fullQueue up) 0).arrays[0] .fwd = 4 := by decide +kernel

end Sys2Proof.Tests
end

section
/-! Generators: the seed, the lanes that a seeding covers, and the draw on the four words of a state (R103 to R105). -/

namespace Sys2Proof.Machine

/-! ### Bytes and bit fields -/

theorem slice_of_length {l : List Byte} {n : Nat} (h : l.length = n) : slice l 0 n = l := by
  subst h
  simp [slice]

theorem leNat_lt (l : List Byte) : leNat l < 256 ^ l.length := by
  induction l with
  | nil => simp [leNat]
  | cons b t ih =>
    have hb : b.toNat < 256 := b.isLt
    rw [leNat, List.length_cons, Nat.pow_succ]
    omega

theorem bits_eq_div_mod (v hi lo : Nat) : bits v hi lo = v / 2 ^ lo % 2 ^ (hi + 1 - lo) := by
  rw [bits, Nat.shiftRight_eq_div_pow]

theorem bits_laneId {cl lane : Nat} (hcl : cl < 4096) (hlane : lane < 128) :
    bits (laneId cl lane) 23 19 = 0 ∧ bits (laneId cl lane) 18 7 = cl ∧ bits (laneId cl lane) 6 0 = lane := by
  have hid : laneId cl lane = cl * 128 + lane := by
    rw [laneId, Nat.mod_eq_of_lt hcl, Nat.mod_eq_of_lt hlane]
  simp only [bits_eq_div_mod, hid]
  omega

/-! ### Seeding -/

/-- The value of a seeded state: 16 bytes fit its 128 bits, so nothing of the digest is cut off. -/
theorem seedState_toNat {seed : List Byte} (cl lane : Nat) (h : seed.length = 32) :
    (seedState seed cl lane).toNat =
      let d := leNat ((sha3_512 (seed ++ leBytes 3 (laneId cl lane))).take 16)
      if d = 0 then 1 else d := by
  have hlt : leNat ((sha3_512 (seed ++ leBytes 3 (laneId cl lane))).take 16) < 2 ^ 128 :=
    calc _ < 256 ^ ((sha3_512 (seed ++ leBytes 3 (laneId cl lane))).take 16).length := leNat_lt _
      _ ≤ 256 ^ 16 := Nat.pow_le_pow_right (by decide) (List.length_take_le _ _)
      _ = 2 ^ 128 := by decide
  simp only [seedState, slice_of_length h, BitVec.toNat_ofNat]
  apply Nat.mod_eq_of_lt
  split
  · decide
  · exact hlt

theorem look_foldl_put {α : Type} (f : Nat → α) (ls : List Nat) (g : Assoc α) (k : Nat) :
    look (ls.foldl (fun t l => put t l (f l)) g) k = if k ∈ ls then some (f k) else look g k := by
  induction ls generalizing g with
  | nil => simp
  | cons l ls ih =>
    rw [List.foldl_cons, ih, look_put]
    by_cases hk : k = l
    · simp [hk]
    · simp [hk]

theorem mem_seedLanes {sets : Byte} {lane : Nat} (h : lane < 128) :
    lane ∈ seedLanes sets ↔
      (lane < 64 ∧ sets.getLsbD 0 = true) ∨ (64 ≤ lane ∧ sets.getLsbD 1 = true) := by
  have hcols : (∃ a < 64, 64 + a = lane) ↔ 64 ≤ lane :=
    ⟨fun ⟨a, _, e⟩ => by omega, fun hl => ⟨lane - 64, by omega, by omega⟩⟩
  simp only [seedLanes, List.mem_append, List.mem_ite_nil_right, List.mem_range, List.mem_map, hcols,
    and_comm (b := sets.getLsbD _ = true)]

@[simp] theorem cluster_modCluster_self (s : State) (n : Nat) (f : Cluster → Cluster) :
    cluster (modCluster s n f) n = f (cluster s n) := by
  rw [cluster, modCluster_clusters, lookD_put_self]

theorem genState_seedCluster (s : State) (seed : List Byte) (sets : Byte) (cl : Nat) {lane : Nat} (h : lane < 128) :
    genState (cluster (seedCluster s seed sets cl) cl).gens cl lane =
      if (lane < 64 ∧ sets.getLsbD 0 = true) ∨ (64 ≤ lane ∧ sets.getLsbD 1 = true) then seedState seed cl lane
      else genState (cluster s cl).gens cl lane := by
  simp only [seedCluster, cluster_modCluster_self, genState, look_foldl_put, mem_seedLanes h]
  by_cases hcov : (lane < 64 ∧ sets.getLsbD 0 = true) ∨ (64 ≤ lane ∧ sets.getLsbD 1 = true)
  · simp only [if_pos hcov]
  · simp only [if_neg hcov]

/-! ### Drawing -/

theorem rotl32_toNat (v : W32) {n : Nat} (h : n < 32) : rotl32 v.toNat n = (v.rotateLeft n).toNat := by
  have hsr : v.toNat >>> (32 - n) < 2 ^ 32 := Nat.lt_of_le_of_lt (Nat.shiftRight_le _ _) v.isLt
  rw [rotl32, BitVec.toNat_rotateLeft, Nat.or_mod_two_pow, Nat.mod_eq_of_lt h, Nat.mod_eq_of_lt hsr]

theorem toNat_append_eq_add {m n : Nat} (x : BitVec m) (y : BitVec n) :
    (x ++ y).toNat = x.toNat * 2 ^ n + y.toNat := by
  rw [BitVec.toNat_append, ← Nat.shiftLeft_add_eq_or_of_lt y.isLt, Nat.shiftLeft_eq]

theorem toNat_words (s0 s1 s2 s3 : W32) :
    (s3 ++ s2 ++ s1 ++ s0).toNat = s0.toNat + s1.toNat * 2 ^ 32 + s2.toNat * 2 ^ 64 + s3.toNat * 2 ^ 96 := by
  simp only [toNat_append_eq_add]
  omega

theorem ofNat_words (s0 s1 s2 s3 : W32) :
    BitVec.ofNat 128 (s0.toNat + s1.toNat * 2 ^ 32 + s2.toNat * 2 ^ 64 + s3.toNat * 2 ^ 96) = s3 ++ s2 ++ s1 ++ s0 := by
  rw [← toNat_words, BitVec.ofNat_toNat, BitVec.setWidth_eq]

theorem bits_words (s0 s1 s2 s3 : W32) :
    bits (s3 ++ s2 ++ s1 ++ s0).toNat 31 0 = s0.toNat ∧ bits (s3 ++ s2 ++ s1 ++ s0).toNat 63 32 = s1.toNat ∧
    bits (s3 ++ s2 ++ s1 ++ s0).toNat 95 64 = s2.toNat ∧ bits (s3 ++ s2 ++ s1 ++ s0).toNat 127 96 = s3.toNat := by
  have h0 := s0.isLt
  have h1 := s1.isLt
  have h2 := s2.isLt
  have h3 := s3.isLt
  simp only [bits_eq_div_mod, toNat_words]
  omega

/-- The draw works on numbers; each of its operations is the one on 32-bit words, so its four words are those of R103. -/
theorem draw_words (s0 s1 s2 s3 : W32) :
    draw (s3 ++ s2 ++ s1 ++ s0) =
      ((((s0 + s3).rotateLeft 9 + s0).toNat),
       ((s3 ^^^ s1).rotateLeft 11) ++ ((s2 ^^^ s0) ^^^ (s1 <<< 9)) ++ (s1 ^^^ (s2 ^^^ s0)) ++ (s0 ^^^ (s3 ^^^ s1))) := by
  obtain ⟨e0, e1, e2, e3⟩ := bits_words s0 s1 s2 s3
  simp only [draw, e0, e1, e2, e3, ← BitVec.toNat_add, ← BitVec.toNat_xor, ← BitVec.toNat_shiftLeft,
    rotl32_toNat _ (by decide : 9 < 32), rotl32_toNat _ (by decide : 11 < 32), ofNat_words]

/-- Settles O14: the lane identifier's fields, the seeded state with its exception for 0, the lanes that SETS covers,
and the draw on words. -/
theorem generatorsAreSeededAndDrawn : Obligations.GeneratorsAreSeededAndDrawn := by
  unfold Obligations.GeneratorsAreSeededAndDrawn
  refine ⟨⟨?seeded, ?covered⟩, draw_words⟩
  case seeded =>
    intro seed cl lane hseed hcl hlane
    obtain ⟨hdomain, hcluster, hcolumn⟩ := bits_laneId hcl hlane
    refine ⟨hdomain, hcluster, hcolumn, ?_, ?_⟩
    · intro hd
      rw [seedState_toNat cl lane hseed, if_neg hd]
    · intro hd
      rw [seedState_toNat cl lane hseed, if_pos hd]
  case covered =>
    intro s seed sets cl lane hlane
    exact genState_seedCluster s seed sets cl hlane

end Sys2Proof.Machine
end

section
/-! COND: its four bits (R347), and the replies and events that carry it (R346, R351). -/

namespace Sys2Proof.Machine

/-! ### The bits of COND -/

/-- Four flags laid side by side: each is the bit at its place, and nothing stands above them. -/
theorem flags_bits : ∀ f₀ f₁ f₂ f₃ : Bool,
    let n := b2n f₀ + 2 * b2n f₁ + 4 * b2n f₂ + 8 * b2n f₃
    n < 16 ∧ n.testBit 0 = f₀ ∧ n.testBit 1 = f₁ ∧ n.testBit 2 = f₂ ∧ n.testBit 3 = f₃ := by
  decide

theorem cond_bits (s : State) :
    cond s < 16 ∧ (cond s).testBit 0 = anyFenced s ∧ (cond s).testBit 1 = (s.twin.st == 4) ∧
      (cond s).testBit 2 = s.memblk.failed ∧ (cond s).testBit 3 = s.memblk.stepOn :=
  flags_bits _ _ _ _

theorem anyFenced_iff (s : State) :
    anyFenced s = true ↔ (∃ d : Fin 4, s.dies[d].st = .fenced) ∨ (∃ k : Fin 16, s.stk[k].st = .fenced) := by
  simp only [anyFenced, Bool.or_eq_true, Vector.any_toList, Vector.any_eq_true, Fin.exists_iff, Fin.getElem_fin,
    beq_iff_eq]

/-! ### The messages that carry COND -/

/-- COND fits its byte of the header. -/
theorem condByte_toNat (s : State) : (BitVec.ofNat 8 (cond s)).toNat = cond s := by
  obtain ⟨hlt, -⟩ := cond_bits s
  exact Nat.mod_eq_of_lt (by omega)

@[simp] theorem mkReply_cond (s : State) (h : CmdHdr) (op : Nat) (st : Status) (r : List Byte) (cu : Nat) (e : W64) :
    (mkReply s h op st r cu e).cond = BitVec.ofNat 8 (cond s) := rfl

@[simp] theorem emit_sent (s : State) (r : Reply) : (emit s r).cmd.sent = r :: s.cmd.sent := by
  rw [emit_cmd]

theorem mem_sent_foldl_emit {β : Type} (msg : β → Reply) (l : List β) (s : State) (q : Reply) :
    q ∈ (l.foldl (fun t b => emit t (msg b)) s).cmd.sent ↔ q ∈ s.cmd.sent ∨ ∃ b ∈ l, q = msg b := by
  induction l generalizing s with
  | nil => simp
  | cons b t ih =>
    rw [List.foldl_cons, ih, emit_sent, List.mem_cons, List.exists_mem_cons_iff]
    tauto

/-- What an event sends beyond what stood there before carries the condition of the state that it was raised in. -/
theorem cond_of_mem_raise_sent {s : State} {cls : Nat} {code : Byte} {d : List Byte} {q : Reply}
    (h : q ∈ (raise s cls code d).cmd.sent) : q ∈ s.cmd.sent ∨ q.cond = BitVec.ofNat 8 (cond s) := by
  unfold raise at h
  obtain hold | ⟨_, -, rfl⟩ := (mem_sent_foldl_emit _ _ _ q).mp h
  · exact .inl hold
  · exact .inr rfl

/-- Settles O8: the bits of COND are those of its four flags, and a reply and every message of an event hold it in
their COND byte. -/
theorem conditionReportsThePackage : Obligations.ConditionReportsThePackage := by
  unfold Obligations.ConditionReportsThePackage
  intro s
  obtain ⟨hlt, hfenced, hsole, hfailed, hstep⟩ := cond_bits s
  refine ⟨hlt, ?_, ?_, ?_, ?_, ?reply, ?event⟩
  · rw [hfenced, anyFenced_iff]
  · rw [hsole, beq_iff_eq]
  · rw [hfailed]
  · rw [hstep]
  case reply =>
    intro h op st r cu e
    rw [mkReply_cond, condByte_toNat]
  case event =>
    intro cls code d q hq
    obtain hold | hcond := cond_of_mem_raise_sent hq
    · exact .inl hold
    · exact .inr (by rw [hcond, condByte_toNat])

end Sys2Proof.Machine
end
